-- ==== Sys2Proof/Word.lean ====
section
/-!
DEFINITION. The machine's words: what the manual treats as bits (00_scope.md R10, R11).
-/

-- One thread: the whole package is elaborated as one text.
set_option Elab.async false

namespace Sys2Proof

/-- A 32-bit register, address or memory word. -/
abbrev Word := BitVec 32

/-- A 16-bit register half or 16-bit memory-mapped register. -/
abbrev HWord := BitVec 16

/-- A byte of memory. -/
abbrev Byte := BitVec 8

/-- A 40-bit accumulator (R52). -/
abbrev Acc := BitVec 40

end Sys2Proof
end

