-- ==== Sys2Proof/Syntax.lean ====
section
/-!
DEFINITION. The abstract instructions of the core, one constructor for each row of the opcode table
(00_scope.md R14, 30_encoding.md R504), and the operand types they use.
-/

namespace Sys2Proof

/-- A data register R0..R7 (`Dreg`, R14). -/
inductive DReg where
  | r0 | r1 | r2 | r3 | r4 | r5 | r6 | r7
  deriving DecidableEq, Repr

/-- A pointer register P0..P5, SP, FP (`Preg`, R14, numbered as R511). -/
inductive PReg where
  | p0 | p1 | p2 | p3 | p4 | p5 | sp | fp
  deriving DecidableEq, Repr

/-- The number of an I, M, B or L register (`Ireg`, `Mreg`, `Breg`, `Lreg`, R14). -/
inductive DagN where
  | n0 | n1 | n2 | n3
  deriving DecidableEq, Repr

/-- An accumulator, A0 or A1 (`An`, R14). -/
inductive AccN where
  | a0 | a1
  deriving DecidableEq, Repr

/-- A hardware-loop unit, 0 or 1 (R58). -/
inductive LoopN where
  | l0 | l1
  deriving DecidableEq, Repr

/-- The low or the high half of a 32-bit register (R10). -/
inductive Half where
  | lo | hi
  deriving DecidableEq, Repr

/-- A data or a pointer register (`DPreg`, R14). -/
inductive DPReg where
  | d (r : DReg)
  | p (r : PReg)
  deriving DecidableEq, Repr

/-- A register that a constant load can name (R542 LDIMMhalf: groups 0 to 3 of the table of R522). -/
inductive ImmReg where
  | d (r : DReg)
  | p (r : PReg)
  | i (n : DagN)
  | m (n : DagN)
  | b (n : DagN)
  | l (n : DagN)
  deriving DecidableEq, Repr

/-- A register that a register move, a push or a pop can name (`allreg`, R14; the table of R522). -/
inductive AllReg where
  | d (r : DReg)
  | p (r : PReg)
  | i (n : DagN)
  | m (n : DagN)
  | b (n : DagN)
  | l (n : DagN)
  | ax (a : AccN)
  | aw (a : AccN)
  | astat
  | rets
  | lc (n : LoopN)
  | lt (n : LoopN)
  | lb (n : LoopN)
  | cycles
  | cycles2
  | usp
  | seqstat
  | syscfg
  | reti
  | retx
  | retn
  | rete
  | emudat
  deriving DecidableEq, Repr

/-- A flag of ASTAT that an instruction can copy to or from CC (R582). -/
inductive Flag where
  | az | an | aq | ac0 | ac1 | av0 | av0s | av1 | av1s | v | vs
  deriving DecidableEq, Repr

/-- The post-modification of an address register: `[X++]`, `[X--]`, `[X]` (R901 to R903, R907, R908). -/
inductive PostMod where
  | inc | dec | keep
  deriving DecidableEq, Repr

/-- A multiplier option (R703): the default signed fraction, S2RND, T, W32, FU, TFU, IS, ISS2, IH, IU. -/
inductive MMod where
  | fr | s2rnd | t | w32 | fu | tfu | is | iss2 | ih | iu
  deriving DecidableEq, Repr

/-- Which half of each of the two multiplier sources a MAC unit takes. -/
structure HalfSel where
  s : Half
  t : Half
  deriving DecidableEq, Repr

/-- The two 16-bit operands of one multiplication: a half of `s` times a half of `t`. -/
structure MulSrc where
  sh : Half
  th : Half
  s : DReg
  t : DReg
  deriving DecidableEq, Repr

/-- What a MAC unit does to its accumulator: `=`, `+=`, `-=`, or nothing (R543). -/
inductive MacOp where
  | set | add | sub | none
  deriving DecidableEq, Repr

/-- One unit of the general dual MAC (R740): its operation, whether its result is written to a data
register, and its source halves. -/
structure MacUnit where
  op : MacOp
  write : Bool
  sel : HalfSel
  deriving DecidableEq, Repr

/-- Scaling of the dual results of the quad additions: none, ASR, ASL (R619). -/
inductive QuadScale where
  | none | asr | asl
  deriving DecidableEq, Repr

/-- The value operand of EXPADJ: the whole register, or its low or high half (R648). -/
inductive ExpSel where
  | word | lo | hi
  deriving DecidableEq, Repr

/-- The second operand of a data-register compare: a register or a 3-bit immediate (R660). -/
inductive DRegImm3 where
  | reg (r : DReg)
  | imm (n : BitVec 3)
  deriving DecidableEq, Repr

/-- The second operand of a pointer-register compare: a register or a 3-bit immediate (R666). -/
inductive PRegImm3 where
  | reg (r : PReg)
  | imm (n : BitVec 3)
  deriving DecidableEq, Repr

/-- The comparison of a pointer-register compare (R666): `==`, `<`, `<=`, `<` (IU), `<=` (IU). -/
inductive CmpOp where
  | eq | lt | le | ltu | leu
  deriving DecidableEq, Repr

/-- The register ranges of a push or pop multiple (R1018): `R7:d` if `d` is given, `P5:p` if `p` is given. -/
structure MultiRegs where
  d : Option DReg
  p : Option PReg
  deriving DecidableEq, Repr

/-- One instruction: one constructor for each row of `spec/opcode_table.json`, in the table's order.
Each docstring gives the row's syntax, its pattern and the rule that gives its meaning. -/
inductive Instr where
  -- Register moves (40_regmove.md)
  /-- `allreg = allreg`: 0011GGGgggdddsss, R550. -/
  | moveReg (d s : AllReg)
  /-- `A0 = A1 / A1 = A0`: 1100M10uuu00100011s0uuuuuuuuuuuu, R551. -/
  | moveAccAcc (d : AccN)
  /-- `An = Dreg`: 1100M10uuu001001n010uuuuuusssuuu, R552. -/
  | moveAccDreg (a : AccN) (s : DReg)
  /-- `Dreg_even = A0`: 1100M00mmmm010110011100ddduuuuuu, R553. -/
  | moveDregEvenA0 (m : MMod) (d : DReg)
  /-- `Dreg_odd = A1`: 1100M00mmmmN11110001100ddduuuuuu, R554. -/
  | moveDregOddA1 (m : MMod) (mm : Bool) (d : DReg)
  /-- `Dreg_odd = A1, Dreg_even = A0`: 1100M00mmmmN11110011100ddduuuuuu, R555. -/
  | moveDregPairAcc (m : MMod) (mm : Bool) (d : DReg)
  /-- `IF CC DPreg = DPreg`: 00000111efdddsss, R556. -/
  | ifCcMove (d s : DPReg)
  /-- `IF !CC DPreg = DPreg`: 00000110efdddsss, R557. -/
  | ifNccMove (d s : DPReg)
  /-- `Dreg = Dreg_lo (Z)`: 0100001011sssddd, R558. -/
  | moveHalfZ (d s : DReg)
  /-- `Dreg = Dreg_lo (X)`: 0100001010sssddd, R559. -/
  | moveHalfX (d s : DReg)
  /-- `An.X = Dreg_lo`: 1100M10uuu001001n100uuuuuusssuuu, R560. -/
  | moveAccXDregLo (a : AccN) (s : DReg)
  /-- `Dreg_lo = An.X`: 1100M10uuu0010100n00ddduuuuuuuuu, R561. -/
  | moveDregLoAccX (d : DReg) (a : AccN)
  /-- `An.L = Dreg_lo`: 1100M10uuu001001n000uuuuuusssuuu, R562. -/
  | moveAccLDregLo (a : AccN) (s : DReg)
  /-- `An.H = Dreg_hi`: 1100M10uuu101001n000uuuuuusssuuu, R563. -/
  | moveAccHDregHi (a : AccN) (s : DReg)
  /-- `Dreg_lo = A0`: 1100M00mmmm000110011100ddduuuuuu, R564. -/
  | moveDregLoA0 (m : MMod) (d : DReg)
  /-- `Dreg_hi = A1`: 1100M00mmmmN01110001100ddduuuuuu, R565. -/
  | moveDregHiA1 (m : MMod) (mm : Bool) (d : DReg)
  /-- `Dreg_hi = A1, Dreg_lo = A0`: 1100M00mmmmN01110011100ddduuuuuu, R566. -/
  | moveDregHalvesAcc (m : MMod) (mm : Bool) (d : DReg)
  /-- `Dreg = Dreg_byte (Z)`: 0100001101sssddd, R567. -/
  | moveByteZ (d s : DReg)
  /-- `Dreg = Dreg_byte (X)`: 0100001100sssddd, R568. -/
  | moveByteX (d s : DReg)
  /-- `Dreg = imm7 (X)`: 011000iiiiiiiddd, R570. -/
  | loadImm7D (d : DReg) (imm : BitVec 7)
  /-- `Preg = imm7 (X)`: 011010iiiiiiiddd, R570. -/
  | loadImm7P (d : PReg) (imm : BitVec 7)
  /-- `reg = imm16 (X)`: 11100001001ggrrriiiiiiiiiiiiiiii, R571. -/
  | loadImm16X (r : ImmReg) (imm : BitVec 16)
  /-- `reg = uimm16 (Z)`: 11100001100ggrrriiiiiiiiiiiiiiii, R572. -/
  | loadImm16Z (r : ImmReg) (imm : BitVec 16)
  /-- `reg_lo = uimm16`: 11100001000ggrrriiiiiiiiiiiiiiii, R573. -/
  | loadImm16Lo (r : ImmReg) (imm : BitVec 16)
  /-- `reg_hi = uimm16`: 11100001010ggrrriiiiiiiiiiiiiiii, R574. -/
  | loadImm16Hi (r : ImmReg) (imm : BitVec 16)
  /-- `A0 = 0`: 1100M10uuu0010000000uuuuuuuuuuuu, R575. -/
  | clearA0
  /-- `A1 = 0`: 1100M10uuu0010000100uuuuuuuuuuuu, R575. -/
  | clearA1
  /-- `A1 = A0 = 0`: 1100M10uuu0010001000uuuuuuuuuuuu, R575. -/
  | clearA1A0
  /-- `CC = Dreg`: 0000001000001rrr, R580. -/
  | ccFromDreg (s : DReg)
  /-- `Dreg = CC`: 0000001000000rrr, R581. -/
  | dregFromCc (d : DReg)
  /-- `CC = flag`: 00000011000bbbbb, R582. -/
  | ccFlagSet (b : Flag)
  /-- `CC |= flag`: 00000011001bbbbb, R582. -/
  | ccFlagOr (b : Flag)
  /-- `CC &= flag`: 00000011010bbbbb, R582. -/
  | ccFlagAnd (b : Flag)
  /-- `CC ^= flag`: 00000011011bbbbb, R582. -/
  | ccFlagXor (b : Flag)
  /-- `flag = CC`: 00000011100bbbbb, R583. -/
  | flagCcSet (b : Flag)
  /-- `flag |= CC`: 00000011101bbbbb, R583. -/
  | flagCcOr (b : Flag)
  /-- `flag &= CC`: 00000011110bbbbb, R583. -/
  | flagCcAnd (b : Flag)
  /-- `flag ^= CC`: 00000011111bbbbb, R583. -/
  | flagCcXor (b : Flag)
  /-- `CC = !CC`: 0000001000011000, R584. -/
  | ccNot
  -- ALU (41_alu.md)
  /-- `Preg = Preg + Preg`: 0101101dddtttsss, R603. -/
  | addPreg (d s t : PReg)
  /-- `Preg += Preg`: 0101101dddtttsss, R604. -/
  | addPregTo (d s : PReg)
  /-- `Preg -= Preg`: 0100010000sssddd, R605. -/
  | subPregFrom (d s : PReg)
  /-- `Preg += imm7`: 011011iiiiiiiddd, R606. -/
  | addPregImm7 (d : PReg) (imm : BitVec 7)
  /-- `Dreg = Dreg + Dreg`: 0101000dddtttsss, R607. -/
  | addDreg (d s t : DReg)
  /-- `Dreg = Dreg + Dreg (NS|S)`: 1100M10uuu00010000S0ddduuusssttt, R607. -/
  | addDregOpt (sat : Bool) (d s t : DReg)
  /-- `Dreg = Dreg - Dreg`: 0101001dddtttsss, R608. -/
  | subDreg (d s t : DReg)
  /-- `Dreg = Dreg - Dreg (NS|S)`: 1100M10uuu00010001S0ddduuusssttt, R608. -/
  | subDregOpt (sat : Bool) (d s t : DReg)
  /-- `Dreg = Dreg + Dreg, Dreg = Dreg - Dreg`: 1100M10uuu00010010S0dddDDDsssttt, R609. -/
  | addSubDreg (sat : Bool) (dSum dDiff s t : DReg)
  /-- `Dreg += imm7`: 011001iiiiiiiddd, R610. -/
  | addDregImm7 (d : DReg) (imm : BitVec 7)
  /-- `Dreg = -Dreg`: 0100001110sssddd, R611. -/
  | negDreg (d s : DReg)
  /-- `Dreg = -Dreg (NS|S)`: 1100M10uuu00011111S0ddduuusssuuu, R611. -/
  | negDregOpt (sat : Bool) (d s : DReg)
  /-- `Dreg = A0 + A1, Dreg = A0 - A1`: 1100M10uuu0100010aS0dddDDDuuuuuu, R612. -/
  | accSumDiff (sumIsA0First sat : Bool) (dSum dDiff : DReg)
  /-- `Dreg_lo_hi = Dreg_lo_hi + Dreg_lo_hi`: 1100M10uuuH00010aaS0ddduuusssttt, R613. -/
  | addHalf (sat : Bool) (dh : Half) (d : DReg) (sh th : Half) (s t : DReg)
  /-- `Dreg_lo_hi = Dreg_lo_hi - Dreg_lo_hi`: 1100M10uuuH00011aaS0ddduuusssttt, R614. -/
  | subHalf (sat : Bool) (dh : Half) (d : DReg) (sh th : Half) (s t : DReg)
  /-- `Dreg = Dreg +|+ Dreg`: 1100M10uuu00000000SXddduuusssttt, R615. -/
  | vecAddAdd (sat cross : Bool) (d s t : DReg)
  /-- `Dreg = Dreg +|- Dreg`: 1100M10uuu00000001SXddduuusssttt, R616. -/
  | vecAddSub (sat cross : Bool) (d s t : DReg)
  /-- `Dreg = Dreg -|+ Dreg`: 1100M10uuu00000010SXddduuusssttt, R617. -/
  | vecSubAdd (sat cross : Bool) (d s t : DReg)
  /-- `Dreg = Dreg -|- Dreg`: 1100M10uuu00000011SXddduuusssttt, R618. -/
  | vecSubSub (sat cross : Bool) (d s t : DReg)
  /-- `Dreg = Dreg +|+ Dreg, Dreg = Dreg -|- Dreg`: 1100M10uuu000001aaSXdddDDDsssttt, R619. -/
  | quadAddSub (scale : QuadScale) (sat cross : Bool) (dSum dDiff s t : DReg)
  /-- `Dreg = Dreg +|- Dreg, Dreg = Dreg -|+ Dreg`: 1100M10uuu100001aaSXdddDDDsssttt, R620. -/
  | quadAddSubCross (scale : QuadScale) (sat cross : Bool) (dFirst dSecond s t : DReg)
  /-- `A0 += A1`: 1100M10uuu00101110S0uuuuuuuuuuuu, R621. -/
  | accAdd (w32 : Bool)
  /-- `A0 -= A1`: 1100M10uuu00101111S0uuuuuuuuuuuu, R622. -/
  | accSub (w32 : Bool)
  /-- `Dreg = (A0 += A1)`: 1100M10uuu0010110000ddduuuuuuuuu, R623. -/
  | dregAccAdd (d : DReg)
  /-- `Dreg_lo_hi = (A0 += A1)`: 1100M10uuuH010110100ddduuuuuuuuu, R624. -/
  | dregHalfAccAdd (dh : Half) (d : DReg)
  /-- `An = -An`: 1100M10uuuH011100a00uuuuuuuuuuuu, R625. -/
  | negAcc (d s : AccN)
  /-- `A1 = -A1, A0 = -A0`: 1100M10uuu0011101100uuuuuuuuuuuu, R626. -/
  | negAccBoth
  /-- `An = ABS An`: 1100M10uuuH100000a00uuuuuuuuuuuu, R627. -/
  | absAcc (d s : AccN)
  /-- `A1 = ABS A1, A0 = ABS A0`: 1100M10uuu0100001100uuuuuuuuuuuu, R628. -/
  | absAccBoth
  /-- `An = An (S)`: 1100M10uuu0010000n10uuuuuuuuuuuu, R629. -/
  | satAcc (a : AccN)
  /-- `A1 = A1 (S), A0 = A0 (S)`: 1100M10uuu0010001010uuuuuuuuuuuu, R630. -/
  | satAccBoth
  /-- `DIVS (Dreg, Dreg)`: 0100001001sssddd, R631. -/
  | divs (d s : DReg)
  /-- `DIVQ (Dreg, Dreg)`: 0100001000sssddd, R632. -/
  | divq (d s : DReg)
  /-- `Dreg = MAX (Dreg, Dreg)`: 1100M10uuu0001110000ddduuusssttt, R633. -/
  | maxDreg (d s t : DReg)
  /-- `Dreg = MAX (Dreg, Dreg) (V)`: 1100M10uuu0001100000ddduuusssttt, R634. -/
  | maxVec (d s t : DReg)
  /-- `Dreg = MIN (Dreg, Dreg)`: 1100M10uuu0001110100ddduuusssttt, R635. -/
  | minDreg (d s t : DReg)
  /-- `Dreg = MIN (Dreg, Dreg) (V)`: 1100M10uuu0001100100ddduuusssttt, R636. -/
  | minVec (d s t : DReg)
  /-- `Dreg = ABS Dreg`: 1100M10uuu0001111000ddduuusssuuu, R637. -/
  | absDreg (d s : DReg)
  /-- `Dreg = ABS Dreg (V)`: 1100M10uuu0001101000ddduuusssuuu, R638. -/
  | absVec (d s : DReg)
  /-- `Dreg_lo_hi = Dreg (RND)`: 1100M10uuuH011001100ddduuusssuuu, R639. -/
  | roundHalf (dh : Half) (d s : DReg)
  /-- `Dreg_lo_hi = Dreg + Dreg (RND12)`: 1100M10uuuH001010000ddduuusssttt, R640. -/
  | addRnd12 (dh : Half) (d s t : DReg)
  /-- `Dreg_lo_hi = Dreg - Dreg (RND12)`: 1100M10uuuH001010100ddduuusssttt, R641. -/
  | subRnd12 (dh : Half) (d s t : DReg)
  /-- `Dreg_lo_hi = Dreg + Dreg (RND20)`: 1100M10uuuH001011000ddduuusssttt, R642. -/
  | addRnd20 (dh : Half) (d s t : DReg)
  /-- `Dreg_lo_hi = Dreg - Dreg (RND20)`: 1100M10uuuH001011100ddduuusssttt, R643. -/
  | subRnd20 (dh : Half) (d s t : DReg)
  /-- `Dreg_lo = SIGNBITS Dreg`: 1100M1100uu001010000ddduuuuuuttt, R644. -/
  | signbitsDreg (d s : DReg)
  /-- `Dreg_lo = SIGNBITS Dreg_lo_hi`: 1100M1100uu00101ab00ddduuuuuuttt, R645. -/
  | signbitsHalf (d : DReg) (sh : Half) (s : DReg)
  /-- `Dreg_lo = SIGNBITS An`: 1100M1100uu001100n00ddduuuuuuuuu, R646. -/
  | signbitsAcc (d : DReg) (a : AccN)
  /-- `Dreg_lo = EXPADJ (Dreg, Dreg_lo) (V)`: 1100M1100uu001110100ddduuusssttt, R647. -/
  | expadjVec (d v c : DReg)
  /-- `Dreg_lo = EXPADJ (Dreg_lo_hi, Dreg_lo)`: 1100M1100uu001111h00ddduuusssttt, R648. -/
  | expadj (sel : ExpSel) (d v c : DReg)
  /-- `Dreg = Dreg & Dreg`: 0101010dddtttsss, R649. -/
  | andDreg (d s t : DReg)
  /-- `Dreg = ~Dreg`: 0100001111sssddd, R650. -/
  | notDreg (d s : DReg)
  /-- `Dreg = Dreg | Dreg`: 0101011dddtttsss, R651. -/
  | orDreg (d s t : DReg)
  /-- `Dreg = Dreg ^ Dreg`: 0101100dddtttsss, R652. -/
  | xorDreg (d s t : DReg)
  /-- `CC = Dreg == Dreg|imm3`: 00001I0000yyyxxx, R660. -/
  | cmpEqDreg (x : DReg) (y : DRegImm3)
  /-- `CC = Dreg < Dreg|imm3`: 00001I0010yyyxxx, R661. -/
  | cmpLtDreg (x : DReg) (y : DRegImm3)
  /-- `CC = Dreg <= Dreg|imm3`: 00001I0100yyyxxx, R662. -/
  | cmpLeDreg (x : DReg) (y : DRegImm3)
  /-- `CC = Dreg < Dreg|imm3 (IU)`: 00001I0110yyyxxx, R663. -/
  | cmpLtuDreg (x : DReg) (y : DRegImm3)
  /-- `CC = Dreg <= Dreg|imm3 (IU)`: 00001I1000yyyxxx, R664. -/
  | cmpLeuDreg (x : DReg) (y : DRegImm3)
  /-- `CC = Preg cmp Preg|imm3`: 00001Iooo1yyyxxx, R666. -/
  | cmpPreg (op : CmpOp) (x : PReg) (y : PRegImm3)
  /-- `Dreg = (Dreg + Dreg) << 1`: 0100000100sssddd, R670. -/
  | addShift1Dreg (d s : DReg)
  /-- `Dreg = (Dreg + Dreg) << 2`: 0100000101sssddd, R670. -/
  | addShift2Dreg (d s : DReg)
  /-- `Preg = (Preg + Preg) << 1`: 0100010110sssddd, R671. -/
  | addShift1Preg (d s : PReg)
  /-- `Preg = (Preg + Preg) << 2`: 0100010111sssddd, R671. -/
  | addShift2Preg (d s : PReg)
  /-- `Preg = Preg + (Preg << 1)`: 0101110dddtttsss, R672. -/
  | addShifted1Preg (d s t : PReg)
  /-- `Preg = Preg + (Preg << 2)`: 0101111dddtttsss, R672. -/
  | addShifted2Preg (d s t : PReg)
  /-- `Preg = Preg << 1`: 0101101dddtttsss, R673. -/
  | shl1Preg (d s : PReg)
  /-- `Preg = Preg << 2`: 0100010001sssddd, R673. -/
  | shl2Preg (d s : PReg)
  /-- `Preg = Preg >> 2`: 0100010011sssddd, R673. -/
  | shr2Preg (d s : PReg)
  /-- `Preg = Preg >> 1`: 0100010100sssddd, R673. -/
  | shr1Preg (d s : PReg)
  -- Multiplier and MAC (42_mac.md)
  /-- `Dreg_lo = Dreg_lo_hi * Dreg_lo_hi`: 1100M01mmmm00000uu100abdddsssttt, R720. -/
  | mulLo (m : MMod) (d : DReg) (x : MulSrc)
  /-- `Dreg_hi = Dreg_lo_hi * Dreg_lo_hi`: 1100M01mmmmN0100ef000uudddsssttt, R721. -/
  | mulHi (m : MMod) (mm : Bool) (d : DReg) (x : MulSrc)
  /-- `Dreg_even = Dreg_lo_hi * Dreg_lo_hi`: 1100M01mmmm01000uu100abdddsssttt, R722. -/
  | mulEven (m : MMod) (d : DReg) (x : MulSrc)
  /-- `Dreg_odd = Dreg_lo_hi * Dreg_lo_hi`: 1100M01mmmmN1100ef000uudddsssttt, R722. -/
  | mulOdd (m : MMod) (mm : Bool) (d : DReg) (x : MulSrc)
  /-- `Dreg_hi = a * b, Dreg_lo = c * d  /  Dreg_odd = a * b, Dreg_even = c * d`: 1100M01mmmmNP100ef100abdddsssttt, R723. -/
  | mulDual (m : MMod) (mm pair : Bool) (d : DReg) (h1 h0 : HalfSel) (s t : DReg)
  /-- `A0 = Dreg_lo_hi * Dreg_lo_hi`: 1100M00mmmm00011uu000abuuusssttt, R724. -/
  | macA0Set (m : MMod) (x : MulSrc)
  /-- `A1 = Dreg_lo_hi * Dreg_lo_hi`: 1100M00mmmmN0000ef011uuuuusssttt, R724. -/
  | macA1Set (m : MMod) (mm : Bool) (x : MulSrc)
  /-- `Dreg_lo = (A0 = Dreg_lo_hi * Dreg_lo_hi)`: 1100M00mmmm00011uu100abdddsssttt, R727. -/
  | macA0SetLo (m : MMod) (d : DReg) (x : MulSrc)
  /-- `Dreg_hi = (A1 = Dreg_lo_hi * Dreg_lo_hi)`: 1100M00mmmmN0100ef011uudddsssttt, R730. -/
  | macA1SetHi (m : MMod) (mm : Bool) (d : DReg) (x : MulSrc)
  /-- `Dreg_even = (A0 = Dreg_lo_hi * Dreg_lo_hi)`: 1100M00mmmm01011uu100abdddsssttt, R733. -/
  | macA0SetEven (m : MMod) (d : DReg) (x : MulSrc)
  /-- `Dreg_odd = (A1 = Dreg_lo_hi * Dreg_lo_hi)`: 1100M00mmmmN1100ef011uudddsssttt, R733. -/
  | macA1SetOdd (m : MMod) (mm : Bool) (d : DReg) (x : MulSrc)
  /-- `A0 += Dreg_lo_hi * Dreg_lo_hi`: 1100M00mmmm00011uu001abuuusssttt, R725. -/
  | macA0Add (m : MMod) (x : MulSrc)
  /-- `A1 += Dreg_lo_hi * Dreg_lo_hi`: 1100M00mmmmN0001ef011uuuuusssttt, R725. -/
  | macA1Add (m : MMod) (mm : Bool) (x : MulSrc)
  /-- `Dreg_lo = (A0 += Dreg_lo_hi * Dreg_lo_hi)`: 1100M00mmmm00011uu101abdddsssttt, R728. -/
  | macA0AddLo (m : MMod) (d : DReg) (x : MulSrc)
  /-- `Dreg_hi = (A1 += Dreg_lo_hi * Dreg_lo_hi)`: 1100M00mmmmN0101ef011uudddsssttt, R731. -/
  | macA1AddHi (m : MMod) (mm : Bool) (d : DReg) (x : MulSrc)
  /-- `Dreg_even = (A0 += Dreg_lo_hi * Dreg_lo_hi)`: 1100M00mmmm01011uu101abdddsssttt, R734. -/
  | macA0AddEven (m : MMod) (d : DReg) (x : MulSrc)
  /-- `Dreg_odd = (A1 += Dreg_lo_hi * Dreg_lo_hi)`: 1100M00mmmmN1101ef011uudddsssttt, R734. -/
  | macA1AddOdd (m : MMod) (mm : Bool) (d : DReg) (x : MulSrc)
  /-- `A0 -= Dreg_lo_hi * Dreg_lo_hi`: 1100M00mmmm00011uu010abuuusssttt, R726. -/
  | macA0Sub (m : MMod) (x : MulSrc)
  /-- `A1 -= Dreg_lo_hi * Dreg_lo_hi`: 1100M00mmmmN0010ef011uuuuusssttt, R726. -/
  | macA1Sub (m : MMod) (mm : Bool) (x : MulSrc)
  /-- `Dreg_lo = (A0 -= Dreg_lo_hi * Dreg_lo_hi)`: 1100M00mmmm00011uu110abdddsssttt, R729. -/
  | macA0SubLo (m : MMod) (d : DReg) (x : MulSrc)
  /-- `Dreg_hi = (A1 -= Dreg_lo_hi * Dreg_lo_hi)`: 1100M00mmmmN0110ef011uudddsssttt, R732. -/
  | macA1SubHi (m : MMod) (mm : Bool) (d : DReg) (x : MulSrc)
  /-- `Dreg_even = (A0 -= Dreg_lo_hi * Dreg_lo_hi)`: 1100M00mmmm01011uu110abdddsssttt, R735. -/
  | macA0SubEven (m : MMod) (d : DReg) (x : MulSrc)
  /-- `Dreg_odd = (A1 -= Dreg_lo_hi * Dreg_lo_hi)`: 1100M00mmmmN1110ef011uudddsssttt, R735. -/
  | macA1SubOdd (m : MMod) (mm : Bool) (d : DReg) (x : MulSrc)
  /-- `dual MAC: [Dreg_hi|Dreg_odd =] (A1 op1 a * b), [Dreg_lo|Dreg_even =] (A0 op0 c * d)`:
  1100M00mmmmNPWooefwppabdddsssttt, R740. -/
  | macDual (m : MMod) (mm pair : Bool) (u1 u0 : MacUnit) (d s t : DReg)
  /-- `Dreg *= Dreg`: 0100000011sssddd, R745. -/
  | mulDreg (d s : DReg)
  -- Shifter and bit operations (43_shifter_video.md)
  /-- `BITCLR (Dreg, uimm5)`: 01001100iiiiiddd, R763. -/
  | bitclr (d : DReg) (n : BitVec 5)
  /-- `BITSET (Dreg, uimm5)`: 01001010iiiiiddd, R764. -/
  | bitset (d : DReg) (n : BitVec 5)
  /-- `BITTGL (Dreg, uimm5)`: 01001011iiiiiddd, R765. -/
  | bittgl (d : DReg) (n : BitVec 5)
  /-- `CC = BITTST (Dreg, uimm5)`: 01001001iiiiiddd, R766. -/
  | ccBittst (s : DReg) (n : BitVec 5)
  /-- `CC = !BITTST (Dreg, uimm5)`: 01001000iiiiiddd, R767. -/
  | ccNotBittst (s : DReg) (n : BitVec 5)
  /-- `Dreg >>>= uimm5`: 01001101iiiiiddd, R773. -/
  | asrImmTo (d : DReg) (n : BitVec 5)
  /-- `Dreg >>= uimm5`: 01001110iiiiiddd, R774. -/
  | lsrImmTo (d : DReg) (n : BitVec 5)
  /-- `Dreg <<= uimm5`: 01001111iiiiiddd, R775. -/
  | lslImmTo (d : DReg) (n : BitVec 5)
  /-- `Dreg = DEPOSIT (Dreg, Dreg) [(X)]`: 1100M1100uu010101x00ddduuusssttt, R768. -/
  | deposit (x : Bool) (d bg fg : DReg)
  /-- `Dreg = EXTRACT (Dreg, Dreg_lo) (Z|X)`: 1100M1100uu010100x00ddduuusssttt, R769. -/
  | extract (x : Bool) (d scene pat : DReg)
  /-- `BITMUX (Dreg, Dreg, A0) (ASR|ASL)`: 1100M1100uu010000x00uuuuuusssttt, R770. -/
  | bitmux (asl : Bool) (s t : DReg)
  /-- `Dreg_lo = ONES Dreg`: 1100M1100uu001101100ddduuuuuuttt, R771. -/
  | ones (d s : DReg)
  /-- `Dreg = PACK (Dreg_lo_hi, Dreg_lo_hi)`: 1100M1100uu00100ab00ddduuusssttt, R772. -/
  | pack (d : DReg) (sh th : Half) (s t : DReg)
  /-- `Dreg = Dreg >>> uimm5`: 1100M1101uu000100000dddiiiiiittt, R776. -/
  | asrImm (d s : DReg) (n : BitVec 6)
  /-- `Dreg = Dreg >> uimm5`: 1100M1101uu000101000dddiiiiiittt, R777. -/
  | lsrImm (d s : DReg) (n : BitVec 6)
  /-- `Dreg = Dreg << uimm5`: 1100M1101uu000101000dddiiiiiittt, R778. -/
  | lslImm (d s : DReg) (n : BitVec 6)
  /-- `Dreg = Dreg << uimm5 (S)`: 1100M1101uu000100100dddiiiiiittt, R778. -/
  | lslImmSat (d s : DReg) (n : BitVec 6)
  /-- `Dreg = Dreg >>> uimm4 (V)`: 1100M1101uu000010000dddiiiiiittt, R779. -/
  | asrImmVec (d s : DReg) (n : BitVec 6)
  /-- `Dreg = Dreg >> uimm4 (V)`: 1100M1101uu000011000dddiiiiiittt, R780. -/
  | lsrImmVec (d s : DReg) (n : BitVec 6)
  /-- `Dreg = Dreg << uimm4 (V)`: 1100M1101uu000011000dddiiiiiittt, R781. -/
  | lslImmVec (d s : DReg) (n : BitVec 6)
  /-- `Dreg = Dreg << uimm4 (V, S)`: 1100M1101uu000010100dddiiiiiittt, R781. -/
  | lslImmVecSat (d s : DReg) (n : BitVec 6)
  /-- `Dreg_lo_hi = Dreg_lo_hi >>> uimm4`: 1100M1101uu0000000hhdddiiiiiittt, R782. -/
  | asrImmHalf (dh : Half) (d : DReg) (sh : Half) (s : DReg) (n : BitVec 6)
  /-- `Dreg_lo_hi = Dreg_lo_hi >> uimm4`: 1100M1101uu0000010hhdddiiiiiittt, R783. -/
  | lsrImmHalf (dh : Half) (d : DReg) (sh : Half) (s : DReg) (n : BitVec 6)
  /-- `Dreg_lo_hi = Dreg_lo_hi << uimm4`: 1100M1101uu0000010hhdddiiiiiittt, R784. -/
  | lslImmHalf (dh : Half) (d : DReg) (sh : Half) (s : DReg) (n : BitVec 6)
  /-- `Dreg_lo_hi = Dreg_lo_hi << uimm4 (S)`: 1100M1101uu0000001hhdddiiiiiittt, R784. -/
  | lslImmHalfSat (dh : Half) (d : DReg) (sh : Half) (s : DReg) (n : BitVec 6)
  /-- `Dreg >>>= Dreg`: 0100000000sssddd, R785. -/
  | asrDregTo (d s : DReg)
  /-- `Dreg >>= Dreg`: 0100000001sssddd, R786. -/
  | lsrDregTo (d s : DReg)
  /-- `Dreg <<= Dreg`: 0100000010sssddd, R787. -/
  | lslDregTo (d s : DReg)
  /-- `Dreg = ASHIFT Dreg BY Dreg_lo`: 1100M1100uu000100000ddduuusssttt, R788. -/
  | ashift (d v c : DReg)
  /-- `Dreg = ASHIFT Dreg BY Dreg_lo (S)`: 1100M1100uu000100100ddduuusssttt, R788. -/
  | ashiftSat (d v c : DReg)
  /-- `Dreg = LSHIFT Dreg BY Dreg_lo`: 1100M1100uu000101000ddduuusssttt, R789. -/
  | lshift (d v c : DReg)
  /-- `Dreg = ASHIFT Dreg BY Dreg_lo (V)`: 1100M1100uu000010000ddduuusssttt, R790. -/
  | ashiftVec (d v c : DReg)
  /-- `Dreg = ASHIFT Dreg BY Dreg_lo (V, S)`: 1100M1100uu000010100ddduuusssttt, R790. -/
  | ashiftVecSat (d v c : DReg)
  /-- `Dreg = LSHIFT Dreg BY Dreg_lo (V)`: 1100M1100uu000011000ddduuusssttt, R791. -/
  | lshiftVec (d v c : DReg)
  /-- `Dreg_lo_hi = ASHIFT Dreg_lo_hi BY Dreg_lo`: 1100M1100uu0000000hhddduuusssttt, R792. -/
  | ashiftHalf (dh : Half) (d : DReg) (vh : Half) (v c : DReg)
  /-- `Dreg_lo_hi = ASHIFT Dreg_lo_hi BY Dreg_lo (S)`: 1100M1100uu0000001hhddduuusssttt, R792. -/
  | ashiftHalfSat (dh : Half) (d : DReg) (vh : Half) (v c : DReg)
  /-- `Dreg_lo_hi = LSHIFT Dreg_lo_hi BY Dreg_lo`: 1100M1100uu0000010hhddduuusssttt, R793. -/
  | lshiftHalf (dh : Half) (d : DReg) (vh : Half) (v c : DReg)
  /-- `Dreg = ROT Dreg BY imm6`: 1100M1101uu000101100dddiiiiiittt, R794. -/
  | rotImm (d s : DReg) (n : BitVec 6)
  /-- `Dreg = ROT Dreg BY Dreg_lo`: 1100M1100uu000101100ddduuusssttt, R794. -/
  | rotDreg (d v c : DReg)
  /-- `An = ROT An BY imm6`: 1100M1101uu00011100nuuuiiiiiiuuu, R795. -/
  | rotAccImm (a : AccN) (n : BitVec 6)
  /-- `An = ROT An BY Dreg_lo`: 1100M1100uu00011100nuuuuuusssuuu, R795. -/
  | rotAcc (a : AccN) (c : DReg)
  /-- `An = An >>> uimm5`: 1100M1101uu00011000nuuuiiiiiiuuu, R796. -/
  | asrAccImm (a : AccN) (n : BitVec 6)
  /-- `An = An >> uimm5`: 1100M1101uu00011010nuuuiiiiiiuuu, R797. -/
  | lsrAccImm (a : AccN) (n : BitVec 6)
  /-- `An = An << uimm5`: 1100M1101uu00011000nuuuiiiiiiuuu, R798. -/
  | lslAccImm (a : AccN) (n : BitVec 6)
  /-- `An = An ASHIFT BY Dreg_lo`: 1100M1100uu00011000nuuuuuusssuuu, R799. -/
  | ashiftAcc (a : AccN) (c : DReg)
  -- Named video and BXOR operations (43_shifter_video.md)
  /-- `BXORSHIFT / BXOR with A0 (sopcde 11; refused by the spec)`: 1100M1100uu01011aahhddduuusssttt, R810. -/
  | bxorShift (aa hh : BitVec 2) (d s t : DReg)
  /-- `BXOR with A0 and A1 (sopcde 12; refused by the spec)`: 1100M1100uu01100aahhddduuusssttt, R810. -/
  | bxorAcc (aa hh : BitVec 2) (d s t : DReg)
  /-- `SAA (aopcde 18, aop 0); video operation, refused by the spec`: 1100M10uuuH1001000SXdddDDDsssttt, R811. -/
  | saa (hl s x : Bool) (d e p q : DReg)
  /-- `BYTEOP1P (aopcde 20); video operation, refused by the spec`: 1100M10uuuH10100bbSXdddDDDsssttt, R811. -/
  | byteop1p (hl : Bool) (b : BitVec 2) (s x : Bool) (d e p q : DReg)
  /-- `BYTEOP16P / BYTEOP16M (aopcde 21); video operation, refused by the spec`: 1100M10uuuH10101bbSXdddDDDsssttt, R811. -/
  | byteop16 (hl : Bool) (b : BitVec 2) (s x : Bool) (d e p q : DReg)
  /-- `BYTEOP2P (aopcde 22); video operation, refused by the spec`: 1100M10uuuH10110bbSXdddDDDsssttt, R811. -/
  | byteop2p (hl : Bool) (b : BitVec 2) (s x : Bool) (d e p q : DReg)
  /-- `BYTEOP3P (aopcde 23); video operation, refused by the spec`: 1100M10uuuH10111bbSXdddDDDsssttt, R811. -/
  | byteop3p (hl : Bool) (b : BitVec 2) (s x : Bool) (d e p q : DReg)
  /-- `BYTEPACK / BYTEUNPACK (aopcde 24); video operation, refused by the spec`: 1100M10uuuH11000bbSXdddDDDsssttt, R811. -/
  | bytepack (hl : Bool) (b : BitVec 2) (s x : Bool) (d e p q : DReg)
  -- Program flow (44_flow.md)
  /-- `JUMP.S off`: 0010oooooooooooo, R833. -/
  | jumpShort (o : BitVec 12)
  /-- `JUMP.L off`: 11100010oooooooooooooooooooooooo, R834. -/
  | jumpLong (o : BitVec 24)
  /-- `JUMP off (no suffix)`: no pattern of its own, R835. -/
  | jumpAny (o : BitVec 24)
  /-- `JUMP (Preg)`: 0000000001010ppp, R836. -/
  | jumpPreg (p : PReg)
  /-- `JUMP (PC + Preg)`: 0000000010000ppp, R837. -/
  | jumpPcPreg (p : PReg)
  /-- `CALL off`: 11100011oooooooooooooooooooooooo, R838. -/
  | callOff (o : BitVec 24)
  /-- `CALL (Preg)`: 0000000001100ppp, R839. -/
  | callPreg (p : PReg)
  /-- `CALL (PC + Preg)`: 0000000001110ppp, R840. -/
  | callPcPreg (p : PReg)
  /-- `RTS`: 0000000000010000, R841. -/
  | rts
  /-- `RTI`: 0000000000010001, R843. -/
  | rti
  /-- `RTX`: 0000000000010010, R844. -/
  | rtx
  /-- `RTN`: 0000000000010011, R845. -/
  | rtn
  /-- `RTE`: 0000000000010100, R846. -/
  | rte
  /-- `IF CC JUMP off`: 000110oooooooooo, R847. -/
  | brcc (o : BitVec 10)
  /-- `IF !CC JUMP off`: 000100oooooooooo, R848. -/
  | brncc (o : BitVec 10)
  /-- `IF CC JUMP off (bp)`: 000111oooooooooo, R849. -/
  | brccBp (o : BitVec 10)
  /-- `IF !CC JUMP off (bp)`: 000101oooooooooo, R849. -/
  | brnccBp (o : BitVec 10)
  /-- `LSETUP (top, bot) LCn = Preg`: 11100000101csssspppp00eeeeeeeeee, R851. -/
  | lsetupPreg (c : LoopN) (top : BitVec 4) (p : PReg) (bot : BitVec 10)
  /-- `LSETUP (top, bot) LCn`: 11100000100cssssuuuu00eeeeeeeeee, R851. -/
  | lsetup (c : LoopN) (top : BitVec 4) (bot : BitVec 10)
  /-- `LSETUP (top, bot) LCn = Preg >> 1`: 11100000111csssspppp00eeeeeeeeee, R852. -/
  | lsetupPregHalf (c : LoopN) (top : BitVec 4) (p : PReg) (bot : BitVec 10)
  -- Loads, stores, DAG (45_loadstore.md)
  /-- `DISALGNEXCPT`: 1100M10uuu0100101100uuuuuuuuuuuu, R912. -/
  | disalgnexcpt
  /-- `Preg = [Preg++ | Preg-- | Preg]`: 1001000aa1ppprrr, R915. -/
  | loadP (a : PostMod) (d p : PReg)
  /-- `Dreg = [Preg++ | Preg-- | Preg]`: 1001000aa0ppprrr, R916. -/
  | loadD (a : PostMod) (d : DReg) (p : PReg)
  /-- `Dreg = W [Preg++ | Preg-- | Preg] (Z)`: 1001010aa0ppprrr, R917. -/
  | loadWZ (a : PostMod) (d : DReg) (p : PReg)
  /-- `Dreg = W [Preg++ | Preg-- | Preg] (X)`: 1001010aa1ppprrr, R918. -/
  | loadWX (a : PostMod) (d : DReg) (p : PReg)
  /-- `Dreg = B [Preg++ | Preg-- | Preg] (Z)`: 1001100aa0ppprrr, R921. -/
  | loadBZ (a : PostMod) (d : DReg) (p : PReg)
  /-- `Dreg = B [Preg++ | Preg-- | Preg] (X)`: 1001100aa1ppprrr, R922. -/
  | loadBX (a : PostMod) (d : DReg) (p : PReg)
  /-- `[Preg++ | Preg-- | Preg] = Preg`: 1001001aa1ppprrr, R923. -/
  | storeP (a : PostMod) (p s : PReg)
  /-- `[Preg++ | Preg-- | Preg] = Dreg`: 1001001aa0ppprrr, R924. -/
  | storeD (a : PostMod) (p : PReg) (s : DReg)
  /-- `W [Preg++ | Preg-- | Preg] = Dreg`: 1001011aa0ppprrr, R927. -/
  | storeW (a : PostMod) (p : PReg) (s : DReg)
  /-- `B [Preg++ | Preg-- | Preg] = Dreg`: 1001101aa0ppprrr, R928. -/
  | storeB (a : PostMod) (p : PReg) (s : DReg)
  /-- `Dreg = [Preg + uimm6m4]`: 101000ffffppprrr, R916. -/
  | loadDOff (d : DReg) (p : PReg) (o : BitVec 4)
  /-- `Dreg = W [Preg + uimm5m2] (Z)`: 101001ffffppprrr, R917. -/
  | loadWZOff (d : DReg) (p : PReg) (o : BitVec 4)
  /-- `Dreg = W [Preg + uimm5m2] (X)`: 101010ffffppprrr, R918. -/
  | loadWXOff (d : DReg) (p : PReg) (o : BitVec 4)
  /-- `Preg = [Preg + uimm6m4]`: 101011ffffppprrr, R915. -/
  | loadPOff (d p : PReg) (o : BitVec 4)
  /-- `[Preg + uimm6m4] = Dreg`: 101100ffffppprrr, R924. -/
  | storeDOff (p : PReg) (o : BitVec 4) (s : DReg)
  /-- `W [Preg + uimm5m2] = Dreg`: 101101ffffppprrr, R927. -/
  | storeWOff (p : PReg) (o : BitVec 4) (s : DReg)
  /-- `[Preg + uimm6m4] = Preg`: 101111ffffppprrr, R923. -/
  | storePOff (p : PReg) (o : BitVec 4) (s : PReg)
  /-- `Dreg|Preg = [FP - uimm7m4]`: 1011100fffffrrrr, R916. -/
  | loadFp (d : DPReg) (o : BitVec 5)
  /-- `[FP - uimm7m4] = Dreg|Preg`: 1011101fffffrrrr, R924. -/
  | storeFp (o : BitVec 5) (s : DPReg)
  /-- `Dreg = [Preg + imm17m4]`: 1110010000ppprrroooooooooooooooo, R916. -/
  | loadDLong (d : DReg) (p : PReg) (o : BitVec 16)
  /-- `Preg = [Preg + imm17m4]`: 1110010100ppprrroooooooooooooooo, R915. -/
  | loadPLong (d p : PReg) (o : BitVec 16)
  /-- `Dreg = W [Preg + imm16m2] (Z)`: 1110010001ppprrroooooooooooooooo, R917. -/
  | loadWZLong (d : DReg) (p : PReg) (o : BitVec 16)
  /-- `Dreg = W [Preg + imm16m2] (X)`: 1110010101ppprrroooooooooooooooo, R918. -/
  | loadWXLong (d : DReg) (p : PReg) (o : BitVec 16)
  /-- `Dreg = B [Preg + imm16] (Z)`: 1110010010ppprrroooooooooooooooo, R921. -/
  | loadBZLong (d : DReg) (p : PReg) (o : BitVec 16)
  /-- `Dreg = B [Preg + imm16] (X)`: 1110010110ppprrroooooooooooooooo, R922. -/
  | loadBXLong (d : DReg) (p : PReg) (o : BitVec 16)
  /-- `[Preg + imm17m4] = Dreg`: 1110011000ppprrroooooooooooooooo, R924. -/
  | storeDLong (p : PReg) (o : BitVec 16) (s : DReg)
  /-- `[Preg + imm17m4] = Preg`: 1110011100ppprrroooooooooooooooo, R923. -/
  | storePLong (p : PReg) (o : BitVec 16) (s : PReg)
  /-- `W [Preg + imm16m2] = Dreg`: 1110011001ppprrroooooooooooooooo, R927. -/
  | storeWLong (p : PReg) (o : BitVec 16) (s : DReg)
  /-- `B [Preg + imm16] = Dreg`: 1110011010ppprrroooooooooooooooo, R928. -/
  | storeBLong (p : PReg) (o : BitVec 16) (s : DReg)
  /-- `Dreg = [Preg ++ Preg]`: 1000000rrriiippp, R916. -/
  | loadDIdx (d : DReg) (p x : PReg)
  /-- `Dreg_lo = W [Preg ++ Preg] / W [Preg]`: 1000001rrriiippp, R920. -/
  | loadLoIdx (d : DReg) (p x : PReg)
  /-- `Dreg_hi = W [Preg ++ Preg] / W [Preg]`: 1000010rrriiippp, R919. -/
  | loadHiIdx (d : DReg) (p x : PReg)
  /-- `Dreg = W [Preg ++ Preg] (Z)`: 1000011rrriiippp, R917. -/
  | loadWZIdx (d : DReg) (p x : PReg)
  /-- `Dreg = W [Preg ++ Preg] (X)`: 1000111rrriiippp, R918. -/
  | loadWXIdx (d : DReg) (p x : PReg)
  /-- `[Preg ++ Preg] = Dreg`: 1000100rrriiippp, R924. -/
  | storeDIdx (p x : PReg) (s : DReg)
  /-- `W [Preg ++ Preg] / W [Preg] = Dreg_lo`: 1000101rrriiippp, R926. -/
  | storeLoIdx (p x : PReg) (s : DReg)
  /-- `W [Preg ++ Preg] / W [Preg] = Dreg_hi`: 1000110rrriiippp, R925. -/
  | storeHiIdx (p x : PReg) (s : DReg)
  /-- `Dreg = [Ireg++ | Ireg-- | Ireg]`: 1001110aa00iirrr, R916. -/
  | loadDI (a : PostMod) (d : DReg) (i : DagN)
  /-- `Dreg_lo = W [Ireg++ | Ireg-- | Ireg]`: 1001110aa01iirrr, R920. -/
  | loadLoI (a : PostMod) (d : DReg) (i : DagN)
  /-- `Dreg_hi = W [Ireg++ | Ireg-- | Ireg]`: 1001110aa10iirrr, R919. -/
  | loadHiI (a : PostMod) (d : DReg) (i : DagN)
  /-- `[Ireg++ | Ireg-- | Ireg] = Dreg`: 1001111aa00iirrr, R924. -/
  | storeDI (a : PostMod) (i : DagN) (s : DReg)
  /-- `W [Ireg++ | Ireg-- | Ireg] = Dreg_lo`: 1001111aa01iirrr, R926. -/
  | storeLoI (a : PostMod) (i : DagN) (s : DReg)
  /-- `W [Ireg++ | Ireg-- | Ireg] = Dreg_hi`: 1001111aa10iirrr, R925. -/
  | storeHiI (a : PostMod) (i : DagN) (s : DReg)
  /-- `Dreg = [Ireg ++ Mreg]`: 100111011mmiirrr, R916. -/
  | loadDIM (d : DReg) (i m : DagN)
  /-- `[Ireg ++ Mreg] = Dreg`: 100111111mmiirrr, R924. -/
  | storeDIM (i m : DagN) (s : DReg)
  /-- `Ireg += Mreg`: 100111100110mmii, R931. -/
  | addIM (i m : DagN)
  /-- `Ireg -= Mreg`: 100111100111mmii, R932. -/
  | subIM (i m : DagN)
  /-- `Ireg += Mreg (BREV)`: 100111101110mmii, R933. -/
  | addIMBrev (i m : DagN)
  /-- `Preg += Preg (BREV)`: 0100010101sssddd, R934. -/
  | addPregBrev (d s : PReg)
  /-- `Ireg += 2`: 10011111011000ii, R935. -/
  | addI2 (i : DagN)
  /-- `Ireg -= 2`: 10011111011001ii, R935. -/
  | subI2 (i : DagN)
  /-- `Ireg += 4`: 10011111011010ii, R935. -/
  | addI4 (i : DagN)
  /-- `Ireg -= 4`: 10011111011011ii, R935. -/
  | subI4 (i : DagN)
  -- System (46_system.md)
  /-- `NOP`: 0000000000000000, R1000. -/
  | nop
  /-- `MNOP`: 1100M000000000110001100000000000, R1001. -/
  | mnop
  /-- `CLI Dreg`: 0000000000110rrr, R1002. -/
  | cli (d : DReg)
  /-- `STI Dreg`: 0000000001000rrr, R1003. -/
  | sti (s : DReg)
  /-- `RAISE uimm4`: 000000001001iiii, R1004. -/
  | raiseInt (n : BitVec 4)
  /-- `EXCPT uimm4`: 000000001010iiii, R1005. -/
  | excpt (n : BitVec 4)
  /-- `EMUEXCPT`: 0000000000100101, R1006. -/
  | emuexcpt
  /-- `IDLE`: 0000000000100000, R1007. -/
  | idle
  /-- `CSYNC`: 0000000000100011, R1008. -/
  | csync
  /-- `SSYNC`: 0000000000100100, R1009. -/
  | ssync
  /-- `TESTSET (Preg`: 0000000010110ppp, R1010. -/
  | testset (p : PReg)
  /-- `PREFETCH [Preg] / [Preg++]`: 0000001001a00ppp, R1011. -/
  | prefetch (inc : Bool) (p : PReg)
  /-- `FLUSH [Preg] / [Preg++]`: 0000001001a10ppp, R1012. -/
  | flush (inc : Bool) (p : PReg)
  /-- `FLUSHINV [Preg] / [Preg++]`: 0000001001a01ppp, R1013. -/
  | flushinv (inc : Bool) (p : PReg)
  /-- `IFLUSH [Preg] / [Preg++]`: 0000001001a11ppp, R1014. -/
  | iflush (inc : Bool) (p : PReg)
  /-- `[--SP] = allreg`: 0000000101gggrrr, R1015. -/
  | pushReg (r : AllReg)
  /-- `allreg = [SP++]`: 0000000100gggrrr, R1016. -/
  | popReg (r : AllReg)
  /-- `[--SP] = (R7:d, P5:p)`: 0000010DQ1dddppp, R1018. -/
  | pushMulti (regs : MultiRegs)
  /-- `(R7:d, P5:p) = [SP++]`: 0000010DQ0dddppp, R1019. -/
  | popMulti (regs : MultiRegs)
  /-- `LINK uimm18m4`: 1110100000000000ffffffffffffffff, R1020. -/
  | link (n : BitVec 16)
  /-- `UNLINK`: 11101000000000010000000000000000, R1020. -/
  | unlink
  deriving DecidableEq, Repr

end Sys2Proof
end

