-- ==== Sys2Proof/WellFormed.lean ====
section
/-!
DEFINITION. Which terms of `Instr` are instructions of the machine: the operand restrictions that the constructor's
argument types do not already say. A term that is not well formed has no word of its own in the encoding.
-/

namespace Sys2Proof

/-- An even-numbered data register: the base of a register pair R1:0, R3:2, R5:4, R7:6 (R14, R740). A word with an odd
one there is an illegal combination when it is executed (exception 0x22). -/
def DReg.even : DReg → Bool
  | .r0 | .r2 | .r4 | .r6 => true
  | .r1 | .r3 | .r5 | .r7 => false

/-- A pointer register that a push or pop multiple can name: P0 to P5 (R1018). -/
def PReg.inRange : PReg → Bool
  | .sp | .fp => false
  | _ => true

/-- A MAC unit that neither changes its accumulator nor writes a register. -/
def MacUnit.idle (u : MacUnit) : Bool :=
  decide (u.op = .none) && !u.write

/-- Both source halves of the unit are the low ones: the bits are 0. -/
def MacUnit.selLow (u : MacUnit) : Bool :=
  decide (u.sel = ⟨.lo, .lo⟩)

/-- The MAC word is one of the rows with MAC0 alone (`A0 op a * b`, to an accumulator, a half or a register). -/
def macIsMac0Only (mm pair : Bool) (u1 u0 : MacUnit) : Bool :=
  u1.idle && !mm && decide (u0.op ≠ .none) && (!pair || u0.write)

/-- The MAC word is one of the rows with MAC1 alone. -/
def macIsMac1Only (pair : Bool) (u1 u0 : MacUnit) : Bool :=
  u0.idle && decide (u1.op ≠ .none) && (!pair || u1.write)

/-- The MAC word is one of the accumulator-to-register moves (rows of R553 to R555, R564 to R566). -/
def macIsMove (mm : Bool) (u1 u0 : MacUnit) : Bool :=
  decide (u1.op = .none) && decide (u0.op = .none) && u1.selLow && u0.selLow
    && ((u1.write) || (u0.write && !mm))

/-- The MAC word is MNOP: both units idle and every field 0 (R1001). -/
def macIsMnop (m : MMod) (mm pair : Bool) (u1 u0 : MacUnit) (d s t : DReg) : Bool :=
  u1.idle && u0.idle && u1.selLow && u0.selLow && decide (m = .fr) && !mm && !pair
    && decide (d = .r0) && decide (s = .r0) && decide (t = .r0)

/-- The fields of a dual MAC word that no other row of the table names (R740; opcode_table.json: the general row
contains the single-MAC rows, the moves and MNOP as cases). -/
def macIsDual (m : MMod) (mm pair : Bool) (u1 u0 : MacUnit) (d s t : DReg) : Bool :=
  !macIsMac0Only mm pair u1 u0 && !macIsMac1Only pair u1 u0 && !macIsMove mm u1 u0
    && !macIsMnop m mm pair u1 u0 d s t

/-- A signed shift count of magnitude below `w`: 16 for `uimm4`, 32 for `uimm5` (R503, R761). -/
def countOk (w : Nat) (n : BitVec 6) : Bool := decide (n.toInt.natAbs < w)

/-- Every immediate operand that the argument types do not already bound lies in its range: the counts of the shifts by
`uimm4` and `uimm5` (R503, R761), the frame of LINK, which is 8 bytes or more (R1020). -/
def Instr.inRange : Instr → Bool
  | .asrImm _ _ n | .lsrImm _ _ n | .lslImm _ _ n | .lslImmSat _ _ n => countOk 32 n
  | .asrAccImm _ n | .lsrAccImm _ n | .lslAccImm _ n => countOk 32 n
  | .asrImmVec _ _ n | .lsrImmVec _ _ n | .lslImmVec _ _ n | .lslImmVecSat _ _ n => countOk 16 n
  | .asrImmHalf _ _ _ _ n | .lsrImmHalf _ _ _ _ n | .lslImmHalf _ _ _ _ n | .lslImmHalfSat _ _ _ _ n => countOk 16 n
  | .link n => decide (2 ≤ n.toNat)
  | _ => true

/-- The instruction is spelled as its word's own row (R507: which of several spellings of one word is the word's
own). -/
def Instr.spelled : Instr → Bool
  -- one word, three spellings (R507): doubling, then `+=`, then the three-operand sum
  | .addPreg d s t => decide (s ≠ t) && decide (s ≠ d)
  | .addPregTo d s => decide (d ≠ s)
  | .macDual m mm pair u1 u0 d s t => macIsDual m mm pair u1 u0 d s t
  -- the sign of the count tells these rows apart (R546)
  | .lsrImm _ _ n => n.msb
  | .lslImm _ _ n => !n.msb
  | .lsrImmVec _ _ n => n.msb
  | .lslImmVec _ _ n => !n.msb
  | .lsrImmHalf _ _ _ _ n => n.msb
  | .lslImmHalf _ _ _ _ n => !n.msb
  | .asrAccImm _ n => n.msb
  | .lslAccImm _ n => !n.msb
  -- the range of a push or pop multiple ends at P5 (R1018)
  | .pushMulti r => (r.p.map PReg.inRange).getD true
  | .popMulti r => (r.p.map PReg.inRange).getD true
  -- an assembler spelling, not a word (R835)
  | .jumpAny _ => false
  | _ => true

/-- The instruction is one of the machine's words, with every operand in its range (R503: one outside its range is not
an instruction), spelled as the word's own row. -/
def Instr.wf (i : Instr) : Bool := i.inRange && i.spelled

/-- `i` is an instruction of the machine. -/
abbrev Instr.WF (i : Instr) : Prop := i.wf = true

end Sys2Proof
end

