-- ==== Sys2Proof/Decode.lean ====
section
/-!
DEFINITION. From instruction bytes to instructions and back (30_encoding.md, the annex R520 to R546: PRESUMED by the
spec itself, log entry 1). A 16-bit unit is a natural number below 65536; a 32-bit instruction is two units, the first
one at the lower address (R509). Decoding is total: `none` is the undefined
instruction (exception 0x21, R505); a rejected bundle is the illegal combination (0x22). After it stands the encoder.
-/

namespace Sys2Proof

-- Terms of `Instr` are built in the kernel only: the compiler's runtime cannot number this many constructors.
noncomputable section

/-- The `n` bits of `w` from bit `lo` up. -/
def bits (w lo n : Nat) : Nat := w / 2 ^ lo % 2 ^ n

/-- Bit `lo` of `w`. -/
def bit (w lo : Nat) : Bool := w / 2 ^ lo % 2 == 1

/-- A Boolean as a bit. -/
def b2n (b : Bool) : Nat := if b then 1 else 0

/-! ### Register numbers (R511) -/

/-- The data register of a 3-bit number. -/
def DReg.ofField : Nat → DReg
  | 0 => .r0 | 1 => .r1 | 2 => .r2 | 3 => .r3 | 4 => .r4 | 5 => .r5 | 6 => .r6 | _ => .r7

/-- The number of a data register. -/
def DReg.num : DReg → Nat
  | .r0 => 0 | .r1 => 1 | .r2 => 2 | .r3 => 3 | .r4 => 4 | .r5 => 5 | .r6 => 6 | .r7 => 7

/-- The pointer register of a 3-bit number. -/
def PReg.ofField : Nat → PReg
  | 0 => .p0 | 1 => .p1 | 2 => .p2 | 3 => .p3 | 4 => .p4 | 5 => .p5 | 6 => .sp | _ => .fp

/-- The number of a pointer register. -/
def PReg.num : PReg → Nat
  | .p0 => 0 | .p1 => 1 | .p2 => 2 | .p3 => 3 | .p4 => 4 | .p5 => 5 | .sp => 6 | .fp => 7

/-- The I, M, B or L register of a 2-bit number. -/
def DagN.ofField : Nat → DagN
  | 0 => .n0 | 1 => .n1 | 2 => .n2 | _ => .n3

/-- The number of an I, M, B or L register. -/
def DagN.num : DagN → Nat
  | .n0 => 0 | .n1 => 1 | .n2 => 2 | .n3 => 3

/-- The accumulator of a bit. -/
def AccN.ofBit (b : Bool) : AccN := if b then .a1 else .a0

/-- The bit of an accumulator. -/
def AccN.num : AccN → Nat
  | .a0 => 0 | .a1 => 1

/-- The loop unit of a bit. -/
def LoopN.ofBit (b : Bool) : LoopN := if b then .l1 else .l0

/-- The bit of a loop unit. -/
def LoopN.num : LoopN → Nat
  | .l0 => 0 | .l1 => 1

/-- The half of a bit: 0 low, 1 high. -/
def Half.ofBit (b : Bool) : Half := if b then .hi else .lo

/-- The bit of a half. -/
def Half.num : Half → Nat
  | .lo => 0 | .hi => 1

/-- A data or pointer register: a class bit and a number (R527). -/
def DPReg.ofField (cls : Bool) (n : Nat) : DPReg :=
  if cls then .p (PReg.ofField n) else .d (DReg.ofField n)

/-- Class bit of a data or pointer register. -/
def DPReg.cls : DPReg → Nat
  | .d _ => 0 | .p _ => 1

/-- Number of a data or pointer register within its class. -/
def DPReg.num : DPReg → Nat
  | .d r => r.num | .p r => r.num

/-- The register of a constant load: groups 0 to 3 of the table of R522. -/
def ImmReg.ofField (g n : Nat) : ImmReg :=
  match g with
  | 0 => .d (DReg.ofField n)
  | 1 => .p (PReg.ofField n)
  | 2 => if n < 4 then .i (DagN.ofField n) else .m (DagN.ofField (n - 4))
  | _ => if n < 4 then .b (DagN.ofField n) else .l (DagN.ofField (n - 4))

/-- Group and number of the register of a constant load, as one 5-bit number. -/
def ImmReg.code : ImmReg → Nat
  | .d r => r.num
  | .p r => 8 + r.num
  | .i n => 16 + n.num
  | .m n => 20 + n.num
  | .b n => 24 + n.num
  | .l n => 28 + n.num

/-- The register table of pushes, pops and moves (R522); `none` where the table has a dash. -/
def AllReg.ofField (g n : Nat) : Option AllReg :=
  match g with
  | 0 => some (.d (DReg.ofField n))
  | 1 => some (.p (PReg.ofField n))
  | 2 => some (if n < 4 then .i (DagN.ofField n) else .m (DagN.ofField (n - 4)))
  | 3 => some (if n < 4 then .b (DagN.ofField n) else .l (DagN.ofField (n - 4)))
  | 4 =>
    match n with
    | 0 => some (.ax .a0)
    | 1 => some (.aw .a0)
    | 2 => some (.ax .a1)
    | 3 => some (.aw .a1)
    | 6 => some .astat
    | 7 => some .rets
    | _ => none
  | 6 =>
    match n with
    | 0 => some (.lc .l0)
    | 1 => some (.lt .l0)
    | 2 => some (.lb .l0)
    | 3 => some (.lc .l1)
    | 4 => some (.lt .l1)
    | 5 => some (.lb .l1)
    | 6 => some .cycles
    | _ => some .cycles2
  | 7 =>
    match n with
    | 0 => some .usp
    | 1 => some .seqstat
    | 2 => some .syscfg
    | 3 => some .reti
    | 4 => some .retx
    | 5 => some .retn
    | 6 => some .rete
    | _ => some .emudat
  | _ => none

/-- Group and number of a register in the table of R522, as one 6-bit number. -/
def AllReg.code : AllReg → Nat
  | .d r => r.num
  | .p r => 8 + r.num
  | .i n => 16 + n.num
  | .m n => 20 + n.num
  | .b n => 24 + n.num
  | .l n => 28 + n.num
  | .ax .a0 => 32
  | .aw .a0 => 33
  | .ax .a1 => 34
  | .aw .a1 => 35
  | .astat => 38
  | .rets => 39
  | .lc .l0 => 48
  | .lt .l0 => 49
  | .lb .l0 => 50
  | .lc .l1 => 51
  | .lt .l1 => 52
  | .lb .l1 => 53
  | .cycles => 54
  | .cycles2 => 55
  | .usp => 56
  | .seqstat => 57
  | .syscfg => 58
  | .reti => 59
  | .retx => 60
  | .retn => 61
  | .rete => 62
  | .emudat => 63

/-- The flag of an ASTAT bit number (R525, R582; positions R70). CC and RND_MOD are not in the list of R582, and the two
copies are not flags. -/
def Flag.ofField : Nat → Option Flag
  | 0 => some .az
  | 1 => some .an
  | 6 => some .aq
  | 12 => some .ac0
  | 13 => some .ac1
  | 16 => some .av0
  | 17 => some .av0s
  | 18 => some .av1
  | 19 => some .av1s
  | 24 => some .v
  | 25 => some .vs
  | _ => none

/-- The ASTAT bit number of a flag (R70). -/
def Flag.num : Flag → Nat
  | .az => 0 | .an => 1 | .aq => 6 | .ac0 => 12 | .ac1 => 13 | .av0 => 16 | .av0s => 17
  | .av1 => 18 | .av1s => 19 | .v => 24 | .vs => 25

/-- The multiplier option of an `mmod` field (R543). -/
def MMod.ofField : Nat → Option MMod
  | 0 => some .fr
  | 1 => some .s2rnd
  | 2 => some .t
  | 3 => some .w32
  | 4 => some .fu
  | 6 => some .tfu
  | 8 => some .is
  | 9 => some .iss2
  | 11 => some .ih
  | 12 => some .iu
  | _ => none

/-- The `mmod` field of a multiplier option. -/
def MMod.num : MMod → Nat
  | .fr => 0 | .s2rnd => 1 | .t => 2 | .w32 => 3 | .fu => 4 | .tfu => 6 | .is => 8 | .iss2 => 9
  | .ih => 11 | .iu => 12

/-- The accumulator operation of an op field (R543). -/
def MacOp.ofField : Nat → MacOp
  | 0 => .set | 1 => .add | 2 => .sub | _ => .none

/-- The op field of an accumulator operation. -/
def MacOp.num : MacOp → Nat
  | .set => 0 | .add => 1 | .sub => 2 | .none => 3

/-- The post-modification of an aop field (R538, R540); 3 has no meaning of this kind. -/
def PostMod.ofField : Nat → Option PostMod
  | 0 => some .inc | 1 => some .dec | 2 => some .keep | _ => none

/-- The aop field of a post-modification. -/
def PostMod.num : PostMod → Nat
  | .inc => 0 | .dec => 1 | .keep => 2

/-- The compare of an opc field (R528). -/
def CmpOp.ofField : Nat → Option CmpOp
  | 0 => some .eq | 1 => some .lt | 2 => some .le | 3 => some .ltu | 4 => some .leu | _ => none

/-- The opc field of a compare. -/
def CmpOp.num : CmpOp → Nat
  | .eq => 0 | .lt => 1 | .le => 2 | .ltu => 3 | .leu => 4

/-- The scaling of the aa field of a quad addition (R619). -/
def QuadScale.ofField : Nat → Option QuadScale
  | 0 => some .none | 2 => some .asr | 3 => some .asl | _ => Option.none

/-- The aa field of a quad scaling. -/
def QuadScale.num : QuadScale → Nat
  | .none => 0 | .asr => 2 | .asl => 3

/-- The number of the value operand of EXPADJ (R545: sop 0, 2, 3). -/
def ExpSel.num : ExpSel → Nat
  | .word => 0 | .lo => 2 | .hi => 3

/-! ### 16-bit formats -/

/-- ProgCtrl (R521). -/
def decodeProgCtrl (h : Nat) : Option Instr :=
  let o := bits h 0 4
  match bits h 4 4 with
  | 0 => if o = 0 then some .nop else none
  | 1 =>
    match o with
    | 0 => some .rts | 1 => some .rti | 2 => some .rtx | 3 => some .rtn | 4 => some .rte | _ => none
  | 2 =>
    match o with
    | 0 => some .idle | 3 => some .csync | 4 => some .ssync | 5 => some .emuexcpt | _ => none
  | 3 => if o < 8 then some (.cli (DReg.ofField o)) else none
  | 4 => if o < 8 then some (.sti (DReg.ofField o)) else none
  | 5 => if o < 8 then some (.jumpPreg (PReg.ofField o)) else none
  | 6 => if o < 8 then some (.callPreg (PReg.ofField o)) else none
  | 7 => if o < 8 then some (.callPcPreg (PReg.ofField o)) else none
  | 8 => if o < 8 then some (.jumpPcPreg (PReg.ofField o)) else none
  | 9 => some (.raiseInt (BitVec.ofNat 4 o))
  | 10 => some (.excpt (BitVec.ofNat 4 o))
  | 11 => if o < 8 then some (.testset (PReg.ofField o)) else none
  | _ => none

/-- PushPopReg (R522): bit 6 set is a push. -/
def decodePushPopReg (h : Nat) : Option Instr :=
  match AllReg.ofField (bits h 3 3) (bits h 0 3) with
  | some r => if bit h 6 then some (.pushReg r) else some (.popReg r)
  | none => none

/-- CC2dreg (R523). -/
def decodeCc2dreg (h : Nat) : Option Instr :=
  match bits h 3 2 with
  | 0 => some (.dregFromCc (DReg.ofField (bits h 0 3)))
  | 1 => some (.ccFromDreg (DReg.ofField (bits h 0 3)))
  | 3 => if bits h 0 3 = 0 then some .ccNot else none
  | _ => none

/-- CaCTRL (R524). -/
def decodeCaCtrl (h : Nat) : Option Instr :=
  let p := PReg.ofField (bits h 0 3)
  let a := bit h 5
  match bits h 3 2 with
  | 0 => some (.prefetch a p)
  | 1 => some (.flushinv a p)
  | 2 => some (.flush a p)
  | _ => some (.iflush a p)

/-- CC2stat (R525). -/
def decodeCc2stat (h : Nat) : Option Instr :=
  match Flag.ofField (bits h 0 5) with
  | none => none
  | some b =>
    match bits h 5 3 with
    | 0 => some (.ccFlagSet b)
    | 1 => some (.ccFlagOr b)
    | 2 => some (.ccFlagAnd b)
    | 3 => some (.ccFlagXor b)
    | 4 => some (.flagCcSet b)
    | 5 => some (.flagCcOr b)
    | 6 => some (.flagCcAnd b)
    | _ => some (.flagCcXor b)

/-- PushPopMultiple (R526): bit 8 includes `R7:dr`, bit 7 includes `P5:pr`; a range that is not included has no
operand (DEDUCED, log entry 3); with neither included the word names no register and moves none (DESIGN CHOICE, log
entry 3). -/
def decodePushPopMultiple (h : Nat) : Option Instr :=
  let regs : MultiRegs :=
    ⟨if bit h 8 then some (DReg.ofField (bits h 3 3)) else none,
     if bit h 7 then some (PReg.ofField (bits h 0 3)) else none⟩
  if bit h 7 && decide (5 < bits h 0 3) then none
  else if bit h 6 then some (.pushMulti regs)
  else some (.popMulti regs)

/-- CCmv (R527). -/
def decodeCcMv (h : Nat) : Option Instr :=
  let d := DPReg.ofField (bit h 7) (bits h 3 3)
  let s := DPReg.ofField (bit h 6) (bits h 0 3)
  if bit h 8 then some (.ifCcMove d s) else some (.ifNccMove d s)

/-- CCflag (R528). The accumulator compares have no instruction rule and no row (R504). -/
def decodeCcFlag (h : Nat) : Option Instr :=
  if bit h 6 then
    match CmpOp.ofField (bits h 7 3) with
    | none => none
    | some op =>
      some (.cmpPreg op (PReg.ofField (bits h 0 3))
        (if bit h 10 then .imm (BitVec.ofNat 3 (bits h 3 3)) else .reg (PReg.ofField (bits h 3 3))))
  else
    let x := DReg.ofField (bits h 0 3)
    let y : DRegImm3 :=
      if bit h 10 then .imm (BitVec.ofNat 3 (bits h 3 3)) else .reg (DReg.ofField (bits h 3 3))
    match bits h 7 3 with
    | 0 => some (.cmpEqDreg x y)
    | 1 => some (.cmpLtDreg x y)
    | 2 => some (.cmpLeDreg x y)
    | 3 => some (.cmpLtuDreg x y)
    | 4 => some (.cmpLeuDreg x y)
    | _ => none

/-- BRCC (R529). -/
def decodeBrcc (h : Nat) : Option Instr :=
  let o := BitVec.ofNat 10 (bits h 0 10)
  match bits h 10 2 with
  | 0 => some (.brncc o)
  | 1 => some (.brnccBp o)
  | 2 => some (.brcc o)
  | _ => some (.brccBp o)

/-- REGMV (R531). -/
def decodeRegMv (h : Nat) : Option Instr :=
  match AllReg.ofField (bits h 9 3) (bits h 3 3), AllReg.ofField (bits h 6 3) (bits h 0 3) with
  | some d, some s => some (.moveReg d s)
  | _, _ => none

/-- ALU2op (R532). -/
def decodeAlu2op (h : Nat) : Option Instr :=
  let s := DReg.ofField (bits h 3 3)
  let d := DReg.ofField (bits h 0 3)
  match bits h 6 4 with
  | 0 => some (.asrDregTo d s)
  | 1 => some (.lsrDregTo d s)
  | 2 => some (.lslDregTo d s)
  | 3 => some (.mulDreg d s)
  | 4 => some (.addShift1Dreg d s)
  | 5 => some (.addShift2Dreg d s)
  | 8 => some (.divq d s)
  | 9 => some (.divs d s)
  | 10 => some (.moveHalfX d s)
  | 11 => some (.moveHalfZ d s)
  | 12 => some (.moveByteX d s)
  | 13 => some (.moveByteZ d s)
  | 14 => some (.negDreg d s)
  | 15 => some (.notDreg d s)
  | _ => none

/-- PTR2op (R533). -/
def decodePtr2op (h : Nat) : Option Instr :=
  let s := PReg.ofField (bits h 3 3)
  let d := PReg.ofField (bits h 0 3)
  match bits h 6 3 with
  | 0 => some (.subPregFrom d s)
  | 1 => some (.shl2Preg d s)
  | 3 => some (.shr2Preg d s)
  | 4 => some (.shr1Preg d s)
  | 5 => some (.addPregBrev d s)
  | 6 => some (.addShift1Preg d s)
  | 7 => some (.addShift2Preg d s)
  | _ => none

/-- LOGI2op (R534). -/
def decodeLogi2op (h : Nat) : Option Instr :=
  let n := BitVec.ofNat 5 (bits h 3 5)
  let d := DReg.ofField (bits h 0 3)
  match bits h 8 3 with
  | 0 => some (.ccNotBittst d n)
  | 1 => some (.ccBittst d n)
  | 2 => some (.bitset d n)
  | 3 => some (.bittgl d n)
  | 4 => some (.bitclr d n)
  | 5 => some (.asrImmTo d n)
  | 6 => some (.lsrImmTo d n)
  | _ => some (.lslImmTo d n)

/-- The spelling of the word `Preg = Preg + Preg` (R507): doubling, `+=`, or the sum of two others. -/
def pregSum (d s t : PReg) : Instr :=
  if s = t then .shl1Preg d s else if s = d then .addPregTo d t else .addPreg d s t

/-- COMP3op (R535). -/
def decodeComp3op (h : Nat) : Option Instr :=
  let d := bits h 6 3
  let t := bits h 3 3
  let s := bits h 0 3
  match bits h 9 3 with
  | 0 => some (.addDreg (DReg.ofField d) (DReg.ofField s) (DReg.ofField t))
  | 1 => some (.subDreg (DReg.ofField d) (DReg.ofField s) (DReg.ofField t))
  | 2 => some (.andDreg (DReg.ofField d) (DReg.ofField s) (DReg.ofField t))
  | 3 => some (.orDreg (DReg.ofField d) (DReg.ofField s) (DReg.ofField t))
  | 4 => some (.xorDreg (DReg.ofField d) (DReg.ofField s) (DReg.ofField t))
  | 5 => some (pregSum (PReg.ofField d) (PReg.ofField s) (PReg.ofField t))
  | 6 => some (.addShifted1Preg (PReg.ofField d) (PReg.ofField s) (PReg.ofField t))
  | _ => some (.addShifted2Preg (PReg.ofField d) (PReg.ofField s) (PReg.ofField t))

/-- COMPI2opD and COMPI2opP (R536). -/
def decodeCompi2op (h : Nat) : Option Instr :=
  let n := BitVec.ofNat 7 (bits h 3 7)
  let d := bits h 0 3
  match bits h 10 2 with
  | 0 => some (.loadImm7D (DReg.ofField d) n)
  | 1 => some (.addDregImm7 (DReg.ofField d) n)
  | 2 => some (.loadImm7P (PReg.ofField d) n)
  | _ => some (.addPregImm7 (PReg.ofField d) n)

/-- LDSTpmod (R537). -/
def decodeLdstPmod (h : Nat) : Option Instr :=
  let r := DReg.ofField (bits h 6 3)
  let x := PReg.ofField (bits h 3 3)
  let p := PReg.ofField (bits h 0 3)
  match bits h 9 3 with
  | 0 => some (.loadDIdx r p x)
  | 1 => some (.loadLoIdx r p x)
  | 2 => some (.loadHiIdx r p x)
  | 3 => some (.loadWZIdx r p x)
  | 4 => some (.storeDIdx p x r)
  | 5 => some (.storeLoIdx p x r)
  | 6 => some (.storeHiIdx p x r)
  | _ => some (.loadWXIdx r p x)

/-- dagMODim (R539). The rule gives `op` = 1 as a subtraction without naming `br`, and BREV with `op` = 0 only: a word with
both bits set is taken as undefined (DESIGN CHOICE, log entry 89). -/
def decodeDagModIm (h : Nat) : Option Instr :=
  let m := DagN.ofField (bits h 2 2)
  let i := DagN.ofField (bits h 0 2)
  match bit h 7, bit h 4 with
  | false, false => some (.addIM i m)
  | false, true => some (.subIM i m)
  | true, false => some (.addIMBrev i m)
  | true, true => none

/-- dagMODik (R539). -/
def decodeDagModIk (h : Nat) : Option Instr :=
  let i := DagN.ofField (bits h 0 2)
  match bits h 2 2 with
  | 0 => some (.addI2 i)
  | 1 => some (.subI2 i)
  | 2 => some (.addI4 i)
  | _ => some (.subI4 i)

/-- dspLDST (R538). -/
def decodeDspLdst (h : Nat) : Option Instr :=
  let r := DReg.ofField (bits h 0 3)
  let i := DagN.ofField (bits h 3 2)
  match PostMod.ofField (bits h 7 2) with
  | none =>
    if bit h 9 then some (.storeDIM i (DagN.ofField (bits h 5 2)) r)
    else some (.loadDIM r i (DagN.ofField (bits h 5 2)))
  | some a =>
    match bits h 5 2, bit h 9 with
    | 0, false => some (.loadDI a r i)
    | 1, false => some (.loadLoI a r i)
    | 2, false => some (.loadHiI a r i)
    | 0, true => some (.storeDI a i r)
    | 1, true => some (.storeLoI a i r)
    | 2, true => some (.storeHiI a i r)
    | _, _ => none

/-- LDST (R540). -/
def decodeLdst (h : Nat) : Option Instr :=
  let p := PReg.ofField (bits h 3 3)
  let r := bits h 0 3
  match PostMod.ofField (bits h 7 2) with
  | none => none
  | some a =>
    match bits h 10 2, bit h 9, bit h 6 with
    | 0, false, false => some (.loadD a (DReg.ofField r) p)
    | 0, false, true => some (.loadP a (PReg.ofField r) p)
    | 0, true, false => some (.storeD a p (DReg.ofField r))
    | 0, true, true => some (.storeP a p (PReg.ofField r))
    | 1, false, false => some (.loadWZ a (DReg.ofField r) p)
    | 1, false, true => some (.loadWX a (DReg.ofField r) p)
    | 1, true, false => some (.storeW a p (DReg.ofField r))
    | 2, false, false => some (.loadBZ a (DReg.ofField r) p)
    | 2, false, true => some (.loadBX a (DReg.ofField r) p)
    | 2, true, false => some (.storeB a p (DReg.ofField r))
    | _, _, _ => none

/-- The data register of an FP-relative access: 0 to 7 a Dreg, 8 to 15 a Preg (R541). -/
def fpReg (n : Nat) : DPReg := DPReg.ofField (8 ≤ n) (n % 8)

/-- LDSTii and LDSTiiFP (R541). -/
def decodeLdstIi (h : Nat) : Option Instr :=
  let o := BitVec.ofNat 4 (bits h 6 4)
  let p := PReg.ofField (bits h 3 3)
  let r := bits h 0 3
  match bits h 10 3 with
  | 0 => some (.loadDOff (DReg.ofField r) p o)
  | 1 => some (.loadWZOff (DReg.ofField r) p o)
  | 2 => some (.loadWXOff (DReg.ofField r) p o)
  | 3 => some (.loadPOff (PReg.ofField r) p o)
  | 4 => some (.storeDOff p o (DReg.ofField r))
  | 5 => some (.storeWOff p o (DReg.ofField r))
  | 7 => some (.storePOff p o (PReg.ofField r))
  | _ =>
    if bit h 9 then some (.storeFp (BitVec.ofNat 5 (bits h 4 5)) (fpReg (bits h 0 4)))
    else some (.loadFp (fpReg (bits h 0 4)) (BitVec.ofNat 5 (bits h 4 5)))

/-- The units `0000 ....` (R520). -/
def decode0 (h : Nat) : Option Instr :=
  if 8 ≤ bits h 8 4 then decodeCcFlag h
  else
    match bits h 8 3 with
    | 0 => decodeProgCtrl h
    | 1 => if bit h 7 then none else decodePushPopReg h
    | 2 =>
      if bits h 5 3 = 0 then decodeCc2dreg h
      else if bits h 6 2 = 1 then decodeCaCtrl h
      else none
    | 3 => decodeCc2stat h
    | 4 => decodePushPopMultiple h
    | 5 => decodePushPopMultiple h
    | _ => decodeCcMv h

/-- The units `0100 ....` (R520). -/
def decode4 (h : Nat) : Option Instr :=
  match bits h 10 2 with
  | 0 => decodeAlu2op h
  | 1 => if bit h 9 then none else decodePtr2op h
  | _ => decodeLogi2op h

/-- The units `1001 ....` (R520): dagMODim and dagMODik are recognised before dspLDST. -/
def decode9 (h : Nat) : Option Instr :=
  if bits h 10 2 = 3 then
    if bits h 8 4 = 14 ∧ bits h 5 2 = 3 then decodeDagModIm h
    else if bits h 4 8 = 246 then decodeDagModIk h
    else decodeDspLdst h
  else decodeLdst h

/-- A 16-bit instruction (R520). The units `11.. ....` open longer instructions. -/
def decode16 (h : Nat) : Option Instr :=
  match bits h 12 4 with
  | 0 => decode0 h
  | 1 => decodeBrcc h
  | 2 => some (.jumpShort (BitVec.ofNat 12 (bits h 0 12)))
  | 3 => decodeRegMv h
  | 4 => decode4 h
  | 5 => decodeComp3op h
  | 6 => decodeCompi2op h
  | 8 => decodeLdstPmod h
  | 9 => decode9 h
  | 10 => decodeLdstIi h
  | 11 => decodeLdstIi h
  | _ => none

/-! ### 32-bit formats -/

/-- The spelling of a dsp32mac word (R543): the rows with one unit, the moves, MNOP, or the general dual form. A word with
MM = 1 in which MAC0 alone works is the dual form with an idle MAC1, on which (M) has no effect (DESIGN CHOICE, log entry
103). -/
def macInstr (m : MMod) (mm pair : Bool) (u1 u0 : MacUnit) (d s t : DReg) : Instr :=
  if macIsMnop m mm pair u1 u0 d s t then .mnop
  else if macIsMac0Only mm pair u1 u0 then
    let x : MulSrc := ⟨u0.sel.s, u0.sel.t, s, t⟩
    match u0.op, u0.write, pair with
    | .set, false, _ => .macA0Set m x
    | .set, true, false => .macA0SetLo m d x
    | .set, true, true => .macA0SetEven m d x
    | .add, false, _ => .macA0Add m x
    | .add, true, false => .macA0AddLo m d x
    | .add, true, true => .macA0AddEven m d x
    | _, false, _ => .macA0Sub m x
    | _, true, false => .macA0SubLo m d x
    | _, true, true => .macA0SubEven m d x
  else if macIsMac1Only pair u1 u0 then
    let x : MulSrc := ⟨u1.sel.s, u1.sel.t, s, t⟩
    match u1.op, u1.write, pair with
    | .set, false, _ => .macA1Set m mm x
    | .set, true, false => .macA1SetHi m mm d x
    | .set, true, true => .macA1SetOdd m mm d x
    | .add, false, _ => .macA1Add m mm x
    | .add, true, false => .macA1AddHi m mm d x
    | .add, true, true => .macA1AddOdd m mm d x
    | _, false, _ => .macA1Sub m mm x
    | _, true, false => .macA1SubHi m mm d x
    | _, true, true => .macA1SubOdd m mm d x
  else if macIsMove mm u1 u0 then
    match u1.write, u0.write, pair with
    | true, true, true => .moveDregPairAcc m mm d
    | true, true, false => .moveDregHalvesAcc m mm d
    | true, false, true => .moveDregOddA1 m mm d
    | true, false, false => .moveDregHiA1 m mm d
    | false, _, true => .moveDregEvenA0 m d
    | false, _, false => .moveDregLoA0 m d
  else .macDual m mm pair u1 u0 d s t

/-- dsp32mac (R543). Every option of R703 is taken with every form, (W32), (S2RND) and the rest included, because no rule
says which are legal where (91_not_in_source.md N-42-1; DESIGN CHOICE, log entry 21). -/
def decodeMac (hi lo : Nat) : Option Instr :=
  match MMod.ofField (bits hi 5 4) with
  | none => none
  | some m =>
    let pair := bit hi 3
    let w1 := bit hi 2
    let w0 := bit lo 13
    let d := DReg.ofField (bits lo 6 3)
    let u1 : MacUnit := ⟨MacOp.ofField (bits hi 0 2), w1, ⟨Half.ofBit (bit lo 15), Half.ofBit (bit lo 14)⟩⟩
    let u0 : MacUnit := ⟨MacOp.ofField (bits lo 11 2), w0, ⟨Half.ofBit (bit lo 10), Half.ofBit (bit lo 9)⟩⟩
    some
      (macInstr m (bit hi 4) pair u1 u0 d (DReg.ofField (bits lo 3 3)) (DReg.ofField (bits lo 0 3)))

/-- dsp32mult (R543): multiply without accumulate. Every option is taken with every form (DESIGN CHOICE, log entry
21). -/
def decodeMult (hi lo : Nat) : Option Instr :=
  match MMod.ofField (bits hi 5 4) with
  | none => none
  | some m =>
    let mm := bit hi 4
    let pair := bit hi 3
    let d := DReg.ofField (bits lo 6 3)
    let s := DReg.ofField (bits lo 3 3)
    let t := DReg.ofField (bits lo 0 3)
    let h1 : HalfSel := ⟨Half.ofBit (bit lo 15), Half.ofBit (bit lo 14)⟩
    let h0 : HalfSel := ⟨Half.ofBit (bit lo 10), Half.ofBit (bit lo 9)⟩
    if bits hi 0 2 ≠ 0 ∨ bits lo 11 2 ≠ 0 then none
    else
      match bit hi 2, bit lo 13 with
      | true, true => some (.mulDual m mm pair d h1 h0 s t)
      | true, false =>
        if pair then some (.mulOdd m mm d ⟨h1.s, h1.t, s, t⟩)
        else some (.mulHi m mm d ⟨h1.s, h1.t, s, t⟩)
      | false, true =>
        if mm then none
        else if pair then some (.mulEven m d ⟨h0.s, h0.t, s, t⟩)
        else some (.mulLo m d ⟨h0.s, h0.t, s, t⟩)
      | false, false => none

/-- dsp32alu (R544): by `aopcde`, then HL, aop, s, x. Field bits that no row fixes or names are ignored. -/
def decodeAlu (hi lo : Nat) : Option Instr :=
  let hl := bit hi 5
  let aop := bits lo 14 2
  let s := bit lo 13
  let x := bit lo 12
  let d0 := DReg.ofField (bits lo 9 3)
  let d1 := DReg.ofField (bits lo 6 3)
  let a := DReg.ofField (bits lo 3 3)
  let b := DReg.ofField (bits lo 0 3)
  let dh := Half.ofBit hl
  let ah := Half.ofBit (bit lo 15)
  let bh := Half.ofBit (bit lo 14)
  match bits hi 0 5 with
  | 0 =>
    if hl then none
    else
      match aop with
      | 0 => some (.vecAddAdd s x d0 a b)
      | 1 => some (.vecAddSub s x d0 a b)
      | 2 => some (.vecSubAdd s x d0 a b)
      | _ => some (.vecSubSub s x d0 a b)
  | 1 =>
    match QuadScale.ofField aop with
    | none => none
    | some q =>
      if hl then some (.quadAddSubCross q s x d1 d0 a b)
      else some (.quadAddSub q s x d1 d0 a b)
  | 2 => if x then none else some (.addHalf s dh d0 ah bh a b)
  | 3 => if x then none else some (.subHalf s dh d0 ah bh a b)
  | 4 =>
    if hl || x then none
    else
      match aop with
      | 0 => some (.addDregOpt s d0 a b)
      | 1 => some (.subDregOpt s d0 a b)
      | 2 => some (.addSubDreg s d1 d0 a b)
      | _ => none
  | 5 =>
    if s || x then none
    else
      match aop with
      | 0 => some (.addRnd12 dh d0 a b)
      | 1 => some (.subRnd12 dh d0 a b)
      | 2 => some (.addRnd20 dh d0 a b)
      | _ => some (.subRnd20 dh d0 a b)
  | 6 =>
    if hl || s || x then none
    else
      match aop with
      | 0 => some (.maxVec d0 a b)
      | 1 => some (.minVec d0 a b)
      | 2 => some (.absVec d0 a)
      | _ => none
  | 7 =>
    if hl || x then none
    else
      match aop, s with
      | 0, false => some (.maxDreg d0 a b)
      | 1, false => some (.minDreg d0 a b)
      | 2, false => some (.absDreg d0 a)
      | 3, _ => some (.negDregOpt s d0 a)
      | _, _ => none
  | 8 =>
    if hl || x then none
    else
      match aop, s with
      | 0, false => some .clearA0
      | 1, false => some .clearA1
      | 2, false => some .clearA1A0
      | 0, true => some (.satAcc .a0)
      | 1, true => some (.satAcc .a1)
      | 2, true => some .satAccBoth
      | _, _ => some (.moveAccAcc (AccN.ofBit s))
  | 9 =>
    if x then none
    else
      match hl, bit lo 14, s with
      | false, false, true => some (.moveAccDreg (AccN.ofBit (bit lo 15)) a)
      | false, true, false => some (.moveAccXDregLo (AccN.ofBit (bit lo 15)) a)
      | false, false, false => some (.moveAccLDregLo (AccN.ofBit (bit lo 15)) a)
      | true, false, false => some (.moveAccHDregHi (AccN.ofBit (bit lo 15)) a)
      | _, _, _ => none
  | 10 =>
    if hl || bit lo 15 || s || x then none
    else some (.moveDregLoAccX d0 (AccN.ofBit (bit lo 14)))
  | 11 =>
    match aop, hl, s, x with
    | 0, false, false, false => some (.dregAccAdd d0)
    | 1, _, false, false => some (.dregHalfAccAdd dh d0)
    | 2, false, _, false => some (.accAdd s)
    | 3, false, _, false => some (.accSub s)
    | _, _, _, _ => none
  | 12 =>
    if s || x then none
    else if aop = 3 then some (.roundHalf dh d0 a)
    else none
  | 14 =>
    if s || x then none
    else
      match aop with
      | 0 => some (.negAcc (AccN.ofBit hl) .a0)
      | 1 => some (.negAcc (AccN.ofBit hl) .a1)
      | 3 => if hl then none else some .negAccBoth
      | _ => none
  | 16 =>
    if s || x then none
    else
      match aop with
      | 0 => some (.absAcc (AccN.ofBit hl) .a0)
      | 1 => some (.absAcc (AccN.ofBit hl) .a1)
      | 3 => if hl then none else some .absAccBoth
      | _ => none
  | 17 =>
    if hl || bit lo 15 || x then none
    else some (.accSumDiff (bit lo 14) s d1 d0)
  | 18 =>
    match aop with
    | 0 => some (.saa hl s x d0 d1 a b)
    | 3 => if hl || s || x then none else some .disalgnexcpt
    | _ => none
  | 20 => some (.byteop1p hl (BitVec.ofNat 2 aop) s x d0 d1 a b)
  | 21 => some (.byteop16 hl (BitVec.ofNat 2 aop) s x d0 d1 a b)
  | 22 => some (.byteop2p hl (BitVec.ofNat 2 aop) s x d0 d1 a b)
  | 23 => some (.byteop3p hl (BitVec.ofNat 2 aop) s x d0 d1 a b)
  | 24 => some (.bytepack hl (BitVec.ofNat 2 aop) s x d0 d1 a b)
  | _ => none

/-- dsp32shift (R545). -/
def decodeShift (hi lo : Nat) : Option Instr :=
  let sop := bits lo 14 2
  let hls := bits lo 12 2
  let dh := Half.ofBit (bit lo 13)
  let vh := Half.ofBit (bit lo 12)
  let d := DReg.ofField (bits lo 9 3)
  let c := DReg.ofField (bits lo 3 3)
  let v := DReg.ofField (bits lo 0 3)
  match bits hi 0 5 with
  | 0 =>
    match sop with
    | 0 => some (.ashiftHalf dh d vh v c)
    | 1 => some (.ashiftHalfSat dh d vh v c)
    | 2 => some (.lshiftHalf dh d vh v c)
    | _ => none
  | 1 =>
    match sop, hls with
    | 0, 0 => some (.ashiftVec d v c)
    | 1, 0 => some (.ashiftVecSat d v c)
    | 2, 0 => some (.lshiftVec d v c)
    | _, _ => none
  | 2 =>
    match sop, hls with
    | 0, 0 => some (.ashift d v c)
    | 1, 0 => some (.ashiftSat d v c)
    | 2, 0 => some (.lshift d v c)
    | 3, 0 => some (.rotDreg d v c)
    | _, _ => none
  | 3 =>
    if bit lo 13 then none
    else
      match sop with
      | 0 => some (.ashiftAcc (AccN.ofBit (bit lo 12)) c)
      | 2 => some (.rotAcc (AccN.ofBit (bit lo 12)) c)
      | _ => none
  | 4 => if hls ≠ 0 then none else some (.pack d (Half.ofBit (bit lo 15)) (Half.ofBit (bit lo 14)) v c)
  | 5 =>
    match sop, hls with
    | 0, 0 => some (.signbitsDreg d v)
    | 1, 0 => some (.signbitsHalf d .lo v)
    | 2, 0 => some (.signbitsHalf d .hi v)
    | _, _ => none
  | 6 =>
    match sop, hls with
    | 0, 0 => some (.signbitsAcc d .a0)
    | 1, 0 => some (.signbitsAcc d .a1)
    | 3, 0 => some (.ones d v)
    | _, _ => none
  | 7 =>
    match sop, hls with
    | 0, 0 => some (.expadj .word d v c)
    | 1, 0 => some (.expadjVec d v c)
    | 2, 0 => some (.expadj .lo d v c)
    | 3, 0 => some (.expadj .hi d v c)
    | _, _ => none
  | 8 =>
    if bit lo 15 || bits lo 12 2 ≠ 0 then none
    else some (.bitmux (bit lo 14) c v)
  | 10 =>
    match sop, hls with
    | 0, 0 => some (.extract false d v c)
    | 1, 0 => some (.extract true d v c)
    | 2, 0 => some (.deposit false d v c)
    | 3, 0 => some (.deposit true d v c)
    | _, _ => none
  | 11 => some (.bxorShift (BitVec.ofNat 2 sop) (BitVec.ofNat 2 hls) d c v)
  | 12 => some (.bxorAcc (BitVec.ofNat 2 sop) (BitVec.ofNat 2 hls) d c v)
  | _ => none

/-- dsp32shiftimm (R546): the signed count is left where positive, right where negative; the sign tells the rows with
one pattern apart. -/
def decodeShiftImm (hi lo : Nat) : Option Instr :=
  let sop := bits lo 14 2
  let hls := bits lo 12 2
  let dh := Half.ofBit (bit lo 13)
  let vh := Half.ofBit (bit lo 12)
  let d := DReg.ofField (bits lo 9 3)
  let n := BitVec.ofNat 6 (bits lo 3 6)
  let neg := bit lo 8
  let v := DReg.ofField (bits lo 0 3)
  match bits hi 0 5 with
  | 0 =>
    match sop with
    | 0 => some (.asrImmHalf dh d vh v n)
    | 1 => some (.lslImmHalfSat dh d vh v n)
    | 2 => if neg then some (.lsrImmHalf dh d vh v n) else some (.lslImmHalf dh d vh v n)
    | _ => none
  | 1 =>
    match sop, hls with
    | 0, 0 => some (.asrImmVec d v n)
    | 1, 0 => some (.lslImmVecSat d v n)
    | 2, 0 => if neg then some (.lsrImmVec d v n) else some (.lslImmVec d v n)
    | _, _ => none
  | 2 =>
    match sop, hls with
    | 0, 0 => some (.asrImm d v n)
    | 1, 0 => some (.lslImmSat d v n)
    | 2, 0 => if neg then some (.lsrImm d v n) else some (.lslImm d v n)
    | 3, 0 => some (.rotImm d v n)
    | _, _ => none
  | 3 =>
    let acc := AccN.ofBit (bit lo 12)
    if bit lo 13 then none
    else
      match sop with
      | 0 => if neg then some (.asrAccImm acc n) else some (.lslAccImm acc n)
      | 1 => some (.lsrAccImm acc n)
      | 2 => some (.rotAccImm acc n)
      | _ => none
  | _ => none

/-- LoopSetup (R542). -/
def decodeLoopSetup (hi lo : Nat) : Option Instr :=
  let c := LoopN.ofBit (bit hi 4)
  let top := BitVec.ofNat 4 (bits hi 0 4)
  let bot := BitVec.ofNat 10 (bits lo 0 10)
  let p := bits lo 12 4
  if bits lo 10 2 ≠ 0 then none
  else
    match bits hi 5 2 with
    | 0 => some (.lsetup c top bot)
    | 1 => if p < 8 then some (.lsetupPreg c top (PReg.ofField p) bot) else none
    | 3 => if p < 8 then some (.lsetupPregHalf c top (PReg.ofField p) bot) else none
    | _ => none

/-- LDIMMhalf (R542). -/
def decodeLdImmHalf (hi lo : Nat) : Option Instr :=
  let r := ImmReg.ofField (bits hi 3 2) (bits hi 0 3)
  let n := BitVec.ofNat 16 lo
  match bits hi 5 3 with
  | 0 => some (.loadImm16Lo r n)
  | 1 => some (.loadImm16X r n)
  | 2 => some (.loadImm16Hi r n)
  | 4 => some (.loadImm16Z r n)
  | _ => none

/-- LDSTidxI (R542): offsets count units of the access size. -/
def decodeLdstIdx (hi lo : Nat) : Option Instr :=
  let p := PReg.ofField (bits hi 3 3)
  let r := bits hi 0 3
  let o := BitVec.ofNat 16 lo
  match bit hi 9, bit hi 8, bits hi 6 2 with
  | false, false, 0 => some (.loadDLong (DReg.ofField r) p o)
  | false, true, 0 => some (.loadPLong (PReg.ofField r) p o)
  | false, false, 1 => some (.loadWZLong (DReg.ofField r) p o)
  | false, true, 1 => some (.loadWXLong (DReg.ofField r) p o)
  | false, false, 2 => some (.loadBZLong (DReg.ofField r) p o)
  | false, true, 2 => some (.loadBXLong (DReg.ofField r) p o)
  | true, false, 0 => some (.storeDLong p o (DReg.ofField r))
  | true, true, 0 => some (.storePLong p o (PReg.ofField r))
  | true, false, 1 => some (.storeWLong p o (DReg.ofField r))
  | true, false, 2 => some (.storeBLong p o (DReg.ofField r))
  | _, _, _ => none

/-- The 32-bit formats opened by `1110 ....` (R520). -/
def decodeE (hi lo : Nat) : Option Instr :=
  match bits hi 8 4 with
  | 0 => if bit hi 7 then decodeLoopSetup hi lo else none
  | 1 => decodeLdImmHalf hi lo
  | 2 => some (.jumpLong (BitVec.ofNat 24 (bits hi 0 8 * 65536 + lo)))
  | 3 => some (.callOff (BitVec.ofNat 24 (bits hi 0 8 * 65536 + lo)))
  | 8 =>
    match bits hi 0 8 with
    | 0 => some (.link (BitVec.ofNat 16 lo))
    | 1 => if lo = 0 then some .unlink else none
    | _ => none
  | n => if 4 ≤ n ∧ n < 8 then decodeLdstIdx hi lo else none

/-- A 32-bit instruction from its two units (R520). The multi-issue bit (bit 11 of the first unit) is not part of
the instruction. -/
def decode32 (hi lo : Nat) : Option Instr :=
  match bits hi 12 4 with
  | 12 =>
    match bits hi 9 2 with
    | 0 => decodeMac hi lo
    | 1 => decodeMult hi lo
    | 2 => decodeAlu hi lo
    | _ =>
      match bits hi 7 2 with
      | 0 => decodeShift hi lo
      | 1 => decodeShiftImm hi lo
      | _ => none
  | 14 => decodeE hi lo
  | _ => none

/-! ### Lengths and bundles -/

/-- The length in bytes of the instruction that a first unit opens (R509). -/
def unitLen (h : Nat) : Nat :=
  if bits h 14 2 ≠ 3 then 2
  else if bits h 13 3 = 6 ∧ bit h 11 then 8
  else 4

/-- A 16-bit store. -/
def Instr.isStore16 : Instr → Bool
  | .storeP .. | .storeD .. | .storeW .. | .storeB .. | .storeDOff .. | .storeWOff .. | .storePOff ..
  | .storeFp .. | .storeDIdx .. | .storeLoIdx .. | .storeHiIdx .. | .storeDI .. | .storeLoI ..
  | .storeHiI .. | .storeDIM .. => true
  | _ => false

/-- What slot 2 of a bundle may hold: an access through an I register, an index modify, or NOP (R506 d). -/
def Instr.slot2Ok : Instr → Bool
  | .loadDI .. | .loadLoI .. | .loadHiI .. | .storeDI .. | .storeLoI .. | .storeHiI .. | .loadDIM ..
  | .storeDIM .. | .addIM .. | .subIM .. | .addI2 .. | .subI2 .. | .addI4 .. | .subI4 .. | .nop => true
  | _ => false

/-- What slot 1 of a bundle may hold: any 16-bit load or store, an index modify, or NOP (R506 c). -/
def Instr.slot1Ok (i : Instr) : Bool :=
  i.slot2Ok ||
  match i with
  | .loadP .. | .loadD .. | .loadWZ .. | .loadWX .. | .loadBZ .. | .loadBX .. | .storeP .. | .storeD ..
  | .storeW .. | .storeB .. | .loadDOff .. | .loadWZOff .. | .loadWXOff .. | .loadPOff .. | .storeDOff ..
  | .storeWOff .. | .storePOff .. | .loadFp .. | .storeFp .. | .loadDIdx .. | .loadLoIdx .. | .loadHiIdx ..
  | .loadWZIdx .. | .loadWXIdx .. | .storeDIdx .. | .storeLoIdx .. | .storeHiIdx .. => true
  | _ => false

/-- The words of instructions that the spec names and refuses, and that have no row in the table (log entry 64): 16-bit,
the three accumulator compares of R528 ("Not defined by the spec; refused", 91_not_in_source.md N-41-4). -/
def notDefined16 (h : Nat) : Bool := h == 0x0A80 || h == 0x0B00 || h == 0x0B80

/-- The same, 32-bit: VIT_MAX and ALIGN (R545, sopcde 9 and 13: "not in this spec"; R504: "a program using one is refused";
R811). Every other word without a row is an undefined instruction (R505), among them `dst0 = -src0 (V)` (R544, aopcde 15)
and `LSHIFT` of an accumulator by a register (R545, R799). -/
def notDefined32 (hi : Nat) : Bool :=
  bits hi 12 4 == 12 && bits hi 7 4 == 12 && (bits hi 0 5 == 9 || bits hi 0 5 == 13)

/-- What the bytes at an address are: one instruction with its length, a bundle of three, an undefined word (0x21), an
illegal combination (0x22), or a word that is named and not defined. -/
inductive Decoded where
  | single (i : Instr) (len : Nat)
  | bundle (i0 i1 i2 : Instr)
  | undefined
  | illegal
  | notDefined
  deriving DecidableEq, Repr

/-- The outcome of decoding an instruction of length `len`; `named`: the word is named and not defined. -/
def Decoded.ofOption (len : Nat) (named : Bool) : Option Instr → Decoded
  | some i => .single i len
  | none => if named then .notDefined else .undefined

/-- The unit holds no 16-bit instruction and opens no longer one. -/
def undefined16 (h : Nat) : Bool := unitLen h == 2 && (decode16 h).isNone && !notDefined16 h

/-- The three parts of a bundle (R506): an undefined part is the undefined-instruction exception, which ranks first
(R505); any other content that R506 (b) to (e) does not allow is an illegal combination, among it a slot that opens a
longer instruction or names an accumulator compare. -/
def decodeBundle (u0 u1 u2 u3 : Nat) : Decoded :=
  match decode32 u0 u1 with
  | none =>
    if !notDefined32 u0 || undefined16 u2 || undefined16 u3 then .undefined else .notDefined
  | some i0 =>
    if undefined16 u2 || undefined16 u3 then .undefined
    else
      match decode16 u2, decode16 u3 with
      | some i1, some i2 =>
        if i1.slot1Ok && i2.slot2Ok && !(i1.isStore16 && i2.isStore16) then .bundle i0 i1 i2 else .illegal
      | _, _ => .illegal

/-- Decoding from the four units that start at an address (the later ones are not looked at where the first unit
opens a shorter instruction). -/
def decodeUnits (u0 u1 u2 u3 : Nat) : Decoded :=
  if unitLen u0 = 2 then .ofOption 2 (notDefined16 u0) (decode16 u0)
  else if unitLen u0 = 4 then .ofOption 4 (notDefined32 u0) (decode32 u0 u1)
  else decodeBundle u0 u1 u2 u3

/-- A unit from its two bytes, little endian (R321). -/
def unitOf (b0 b1 : BitVec 8) : Nat := b0.toNat + 256 * b1.toNat

/-- Decoding of a list of bytes; bytes past the end read as 0. Total on any bytes. -/
def decode (bs : List (BitVec 8)) : Decoded :=
  let b := fun k => bs.getD k 0#8
  decodeUnits (unitOf (b 0) (b 1)) (unitOf (b 2) (b 3)) (unitOf (b 4) (b 5)) (unitOf (b 6) (b 7))

/-- The two bytes of a unit, little endian. -/
def unitBytes (u : Nat) : List (BitVec 8) := [BitVec.ofNat 8 u, BitVec.ofNat 8 (u / 256)]

/-- The bytes of the instruction whose opcode-table bits are `w` (log entry 2): a 16-bit row is one unit; in a 32-bit
row bits 31:16 are the first unit and 15:0 the second. Zero bytes follow up to the longest instruction. -/
def tableBytes (nbits w : Nat) : List (BitVec 8) :=
  if nbits ≤ 16 then unitBytes (w % 65536) ++ List.replicate 6 0#8
  else unitBytes (w / 65536 % 65536) ++ unitBytes (w % 65536) ++ List.replicate 4 0#8

/-- The instruction the decoder reads from the instruction whose opcode-table bits are `w`. Where the multi-issue bit
is set, the slots that follow are zeros, which are NOPs: the answer is the 32-bit part. -/
def decodeTableWord (nbits w : Nat) : Option Instr :=
  match decode (tableBytes nbits w) with
  | .single i _ => some i
  | .bundle i0 _ _ => some i0
  | _ => none

/-! ### The encoder -/

/-- The fields of a dsp32mac or dsp32mult word (R543), `base` holding the bits that tell the two apart. -/
def macUnits (base : Nat) (m : MMod) (mm pair w1 : Bool) (op1 : Nat) (h1 : HalfSel) (w0 : Bool) (op0 : Nat)
    (h0 : HalfSel) (d s t : Nat) : List Nat :=
  [base + m.num * 32 + b2n mm * 16 + b2n pair * 8 + b2n w1 * 4 + op1,
   h1.s.num * 32768 + h1.t.num * 16384 + b2n w0 * 8192 + op0 * 2048 + h0.s.num * 1024 + h0.t.num * 512
     + d * 64 + s * 8 + t]

/-- Both halves low. -/
def HalfSel.low : HalfSel := ⟨.lo, .lo⟩

/-- A dsp32mac word in which MAC0 alone works. -/
def mac0Units (m : MMod) (pair w0 : Bool) (op0 : Nat) (d : Nat) (x : MulSrc) : List Nat :=
  macUnits 0xC000 m false pair false 3 .low w0 op0 ⟨x.sh, x.th⟩ d x.s.num x.t.num

/-- A dsp32mac word in which MAC1 alone works. -/
def mac1Units (m : MMod) (mm pair w1 : Bool) (op1 : Nat) (d : Nat) (x : MulSrc) : List Nat :=
  macUnits 0xC000 m mm pair w1 op1 ⟨x.sh, x.th⟩ false 3 .low d x.s.num x.t.num

/-- A dsp32alu word (R544). -/
def aluUnits (hl : Nat) (code aop : Nat) (s x : Nat) (d0 d1 a b : Nat) : List Nat :=
  [0xC400 + hl * 32 + code, aop * 16384 + s * 8192 + x * 4096 + d0 * 512 + d1 * 64 + a * 8 + b]

/-- A dsp32shift word (R545). -/
def shiftUnits (code sop hls d c v : Nat) : List Nat :=
  [0xC600 + code, sop * 16384 + hls * 4096 + d * 512 + c * 8 + v]

/-- A dsp32shiftimm word (R546). -/
def shiftImmUnits (code sop hls d : Nat) (n : BitVec 6) (v : Nat) : List Nat :=
  [0xC680 + code, sop * 16384 + hls * 4096 + d * 512 + n.toNat * 8 + v]

/-- An LDSTpmod unit (R537). -/
def pmodUnit (op r x p : Nat) : List Nat := [0x8000 + op * 512 + r * 64 + x * 8 + p]

/-- An LDST unit (R540). -/
def ldstUnit (sz w a z p r : Nat) : List Nat :=
  [0x9000 + sz * 1024 + w * 512 + a * 128 + z * 64 + p * 8 + r]

/-- A dspLDST unit (R538). -/
def dspLdstUnit (w a m i r : Nat) : List Nat :=
  [0x9C00 + w * 512 + a * 128 + m * 32 + i * 8 + r]

/-- An LDSTii unit (R541). -/
def ldstIiUnit (op : Nat) (o : BitVec 4) (p r : Nat) : List Nat :=
  [0xA000 + op * 1024 + o.toNat * 64 + p * 8 + r]

/-- The units of an LDSTidxI word (R542). -/
def ldstIdxUnits (w z sz p r : Nat) (o : BitVec 16) : List Nat :=
  [0xE400 + w * 512 + z * 256 + sz * 64 + p * 8 + r, o.toNat]

/-- The second operand of a compare: immediate bit and field. -/
def DRegImm3.code : DRegImm3 → Nat
  | .reg r => r.num * 8
  | .imm n => 1024 + n.toNat * 8

/-- The second operand of a compare: immediate bit and field. -/
def PRegImm3.code : PRegImm3 → Nat
  | .reg r => r.num * 8
  | .imm n => 1024 + n.toNat * 8

/-- The ranges of a push or pop multiple. -/
def MultiRegs.code (r : MultiRegs) : Nat :=
  (match r.d with
   | some d => 256 + d.num * 8
   | none => 0)
  + (match r.p with
     | some p => 128 + p.num
     | none => 0)

/-- The 16-bit units of an instruction, the first one at the lower address, with the multi-issue bit 0 and unused bits
0. For `jumpAny` the units of the jump it stands for (R835). -/
def encode : Instr → List Nat
  | .moveReg d s =>
    [0x3000 + d.code / 8 * 512 + s.code / 8 * 64 + d.code % 8 * 8 + s.code % 8]
  | .moveAccAcc d => aluUnits 0 8 3 d.num 0 0 0 0 0
  | .moveAccDreg a s => aluUnits 0 9 (a.num * 2) 1 0 0 0 s.num 0
  | .moveDregEvenA0 m d => macUnits 0xC000 m false true false 3 .low true 3 .low d.num 0 0
  | .moveDregOddA1 m mm d => macUnits 0xC000 m mm true true 3 .low false 3 .low d.num 0 0
  | .moveDregPairAcc m mm d => macUnits 0xC000 m mm true true 3 .low true 3 .low d.num 0 0
  | .ifCcMove d s => [0x0700 + d.cls * 128 + s.cls * 64 + d.num * 8 + s.num]
  | .ifNccMove d s => [0x0600 + d.cls * 128 + s.cls * 64 + d.num * 8 + s.num]
  | .moveHalfZ d s => [0x42C0 + s.num * 8 + d.num]
  | .moveHalfX d s => [0x4280 + s.num * 8 + d.num]
  | .moveAccXDregLo a s => aluUnits 0 9 (a.num * 2 + 1) 0 0 0 0 s.num 0
  | .moveDregLoAccX d a => aluUnits 0 10 a.num 0 0 d.num 0 0 0
  | .moveAccLDregLo a s => aluUnits 0 9 (a.num * 2) 0 0 0 0 s.num 0
  | .moveAccHDregHi a s => aluUnits 1 9 (a.num * 2) 0 0 0 0 s.num 0
  | .moveDregLoA0 m d => macUnits 0xC000 m false false false 3 .low true 3 .low d.num 0 0
  | .moveDregHiA1 m mm d => macUnits 0xC000 m mm false true 3 .low false 3 .low d.num 0 0
  | .moveDregHalvesAcc m mm d => macUnits 0xC000 m mm false true 3 .low true 3 .low d.num 0 0
  | .moveByteZ d s => [0x4340 + s.num * 8 + d.num]
  | .moveByteX d s => [0x4300 + s.num * 8 + d.num]
  | .loadImm7D d n => [0x6000 + n.toNat * 8 + d.num]
  | .loadImm7P d n => [0x6800 + n.toNat * 8 + d.num]
  | .loadImm16X r n => [0xE120 + r.code, n.toNat]
  | .loadImm16Z r n => [0xE180 + r.code, n.toNat]
  | .loadImm16Lo r n => [0xE100 + r.code, n.toNat]
  | .loadImm16Hi r n => [0xE140 + r.code, n.toNat]
  | .clearA0 => aluUnits 0 8 0 0 0 0 0 0 0
  | .clearA1 => aluUnits 0 8 1 0 0 0 0 0 0
  | .clearA1A0 => aluUnits 0 8 2 0 0 0 0 0 0
  | .ccFromDreg s => [0x0208 + s.num]
  | .dregFromCc d => [0x0200 + d.num]
  | .ccFlagSet b => [0x0300 + b.num]
  | .ccFlagOr b => [0x0320 + b.num]
  | .ccFlagAnd b => [0x0340 + b.num]
  | .ccFlagXor b => [0x0360 + b.num]
  | .flagCcSet b => [0x0380 + b.num]
  | .flagCcOr b => [0x03A0 + b.num]
  | .flagCcAnd b => [0x03C0 + b.num]
  | .flagCcXor b => [0x03E0 + b.num]
  | .ccNot => [0x0218]
  | .addPreg d s t => [0x5A00 + d.num * 64 + t.num * 8 + s.num]
  | .addPregTo d s => [0x5A00 + d.num * 64 + s.num * 8 + d.num]
  | .subPregFrom d s => [0x4400 + s.num * 8 + d.num]
  | .addPregImm7 d n => [0x6C00 + n.toNat * 8 + d.num]
  | .addDreg d s t => [0x5000 + d.num * 64 + t.num * 8 + s.num]
  | .addDregOpt sat d s t => aluUnits 0 4 0 (b2n sat) 0 d.num 0 s.num t.num
  | .subDreg d s t => [0x5200 + d.num * 64 + t.num * 8 + s.num]
  | .subDregOpt sat d s t => aluUnits 0 4 1 (b2n sat) 0 d.num 0 s.num t.num
  | .addSubDreg sat d1 d0 s t => aluUnits 0 4 2 (b2n sat) 0 d0.num d1.num s.num t.num
  | .addDregImm7 d n => [0x6400 + n.toNat * 8 + d.num]
  | .negDreg d s => [0x4380 + s.num * 8 + d.num]
  | .negDregOpt sat d s => aluUnits 0 7 3 (b2n sat) 0 d.num 0 s.num 0
  | .accSumDiff f sat d1 d0 => aluUnits 0 17 (b2n f) (b2n sat) 0 d0.num d1.num 0 0
  | .addHalf sat dh d sh th s t =>
    aluUnits dh.num 2 (sh.num * 2 + th.num) (b2n sat) 0 d.num 0 s.num t.num
  | .subHalf sat dh d sh th s t =>
    aluUnits dh.num 3 (sh.num * 2 + th.num) (b2n sat) 0 d.num 0 s.num t.num
  | .vecAddAdd sat x d s t => aluUnits 0 0 0 (b2n sat) (b2n x) d.num 0 s.num t.num
  | .vecAddSub sat x d s t => aluUnits 0 0 1 (b2n sat) (b2n x) d.num 0 s.num t.num
  | .vecSubAdd sat x d s t => aluUnits 0 0 2 (b2n sat) (b2n x) d.num 0 s.num t.num
  | .vecSubSub sat x d s t => aluUnits 0 0 3 (b2n sat) (b2n x) d.num 0 s.num t.num
  | .quadAddSub q sat x d1 d0 s t => aluUnits 0 1 q.num (b2n sat) (b2n x) d0.num d1.num s.num t.num
  | .quadAddSubCross q sat x d1 d0 s t => aluUnits 1 1 q.num (b2n sat) (b2n x) d0.num d1.num s.num t.num
  | .accAdd w => aluUnits 0 11 2 (b2n w) 0 0 0 0 0
  | .accSub w => aluUnits 0 11 3 (b2n w) 0 0 0 0 0
  | .dregAccAdd d => aluUnits 0 11 0 0 0 d.num 0 0 0
  | .dregHalfAccAdd dh d => aluUnits dh.num 11 1 0 0 d.num 0 0 0
  | .negAcc d s => aluUnits d.num 14 s.num 0 0 0 0 0 0
  | .negAccBoth => aluUnits 0 14 3 0 0 0 0 0 0
  | .absAcc d s => aluUnits d.num 16 s.num 0 0 0 0 0 0
  | .absAccBoth => aluUnits 0 16 3 0 0 0 0 0 0
  | .satAcc a => aluUnits 0 8 a.num 1 0 0 0 0 0
  | .satAccBoth => aluUnits 0 8 2 1 0 0 0 0 0
  | .divs d s => [0x4240 + s.num * 8 + d.num]
  | .divq d s => [0x4200 + s.num * 8 + d.num]
  | .maxDreg d s t => aluUnits 0 7 0 0 0 d.num 0 s.num t.num
  | .maxVec d s t => aluUnits 0 6 0 0 0 d.num 0 s.num t.num
  | .minDreg d s t => aluUnits 0 7 1 0 0 d.num 0 s.num t.num
  | .minVec d s t => aluUnits 0 6 1 0 0 d.num 0 s.num t.num
  | .absDreg d s => aluUnits 0 7 2 0 0 d.num 0 s.num 0
  | .absVec d s => aluUnits 0 6 2 0 0 d.num 0 s.num 0
  | .roundHalf dh d s => aluUnits dh.num 12 3 0 0 d.num 0 s.num 0
  | .addRnd12 dh d s t => aluUnits dh.num 5 0 0 0 d.num 0 s.num t.num
  | .subRnd12 dh d s t => aluUnits dh.num 5 1 0 0 d.num 0 s.num t.num
  | .addRnd20 dh d s t => aluUnits dh.num 5 2 0 0 d.num 0 s.num t.num
  | .subRnd20 dh d s t => aluUnits dh.num 5 3 0 0 d.num 0 s.num t.num
  | .signbitsDreg d s => shiftUnits 5 0 0 d.num 0 s.num
  | .signbitsHalf d sh s => shiftUnits 5 (sh.num + 1) 0 d.num 0 s.num
  | .signbitsAcc d a => shiftUnits 6 a.num 0 d.num 0 0
  | .expadjVec d v c => shiftUnits 7 1 0 d.num c.num v.num
  | .expadj e d v c => shiftUnits 7 e.num 0 d.num c.num v.num
  | .andDreg d s t => [0x5400 + d.num * 64 + t.num * 8 + s.num]
  | .notDreg d s => [0x43C0 + s.num * 8 + d.num]
  | .orDreg d s t => [0x5600 + d.num * 64 + t.num * 8 + s.num]
  | .xorDreg d s t => [0x5800 + d.num * 64 + t.num * 8 + s.num]
  | .cmpEqDreg x y => [0x0800 + y.code + x.num]
  | .cmpLtDreg x y => [0x0880 + y.code + x.num]
  | .cmpLeDreg x y => [0x0900 + y.code + x.num]
  | .cmpLtuDreg x y => [0x0980 + y.code + x.num]
  | .cmpLeuDreg x y => [0x0A00 + y.code + x.num]
  | .cmpPreg op x y => [0x0840 + op.num * 128 + y.code + x.num]
  | .addShift1Dreg d s => [0x4100 + s.num * 8 + d.num]
  | .addShift2Dreg d s => [0x4140 + s.num * 8 + d.num]
  | .addShift1Preg d s => [0x4580 + s.num * 8 + d.num]
  | .addShift2Preg d s => [0x45C0 + s.num * 8 + d.num]
  | .addShifted1Preg d s t => [0x5C00 + d.num * 64 + t.num * 8 + s.num]
  | .addShifted2Preg d s t => [0x5E00 + d.num * 64 + t.num * 8 + s.num]
  | .shl1Preg d s => [0x5A00 + d.num * 64 + s.num * 8 + s.num]
  | .shl2Preg d s => [0x4440 + s.num * 8 + d.num]
  | .shr2Preg d s => [0x44C0 + s.num * 8 + d.num]
  | .shr1Preg d s => [0x4500 + s.num * 8 + d.num]
  | .mulLo m d x =>
    macUnits 0xC200 m false false false 0 .low true 0 ⟨x.sh, x.th⟩ d.num x.s.num x.t.num
  | .mulHi m mm d x =>
    macUnits 0xC200 m mm false true 0 ⟨x.sh, x.th⟩ false 0 .low d.num x.s.num x.t.num
  | .mulEven m d x =>
    macUnits 0xC200 m false true false 0 .low true 0 ⟨x.sh, x.th⟩ d.num x.s.num x.t.num
  | .mulOdd m mm d x =>
    macUnits 0xC200 m mm true true 0 ⟨x.sh, x.th⟩ false 0 .low d.num x.s.num x.t.num
  | .mulDual m mm pair d h1 h0 s t => macUnits 0xC200 m mm pair true 0 h1 true 0 h0 d.num s.num t.num
  | .macA0Set m x => mac0Units m false false 0 0 x
  | .macA1Set m mm x => mac1Units m mm false false 0 0 x
  | .macA0SetLo m d x => mac0Units m false true 0 d.num x
  | .macA1SetHi m mm d x => mac1Units m mm false true 0 d.num x
  | .macA0SetEven m d x => mac0Units m true true 0 d.num x
  | .macA1SetOdd m mm d x => mac1Units m mm true true 0 d.num x
  | .macA0Add m x => mac0Units m false false 1 0 x
  | .macA1Add m mm x => mac1Units m mm false false 1 0 x
  | .macA0AddLo m d x => mac0Units m false true 1 d.num x
  | .macA1AddHi m mm d x => mac1Units m mm false true 1 d.num x
  | .macA0AddEven m d x => mac0Units m true true 1 d.num x
  | .macA1AddOdd m mm d x => mac1Units m mm true true 1 d.num x
  | .macA0Sub m x => mac0Units m false false 2 0 x
  | .macA1Sub m mm x => mac1Units m mm false false 2 0 x
  | .macA0SubLo m d x => mac0Units m false true 2 d.num x
  | .macA1SubHi m mm d x => mac1Units m mm false true 2 d.num x
  | .macA0SubEven m d x => mac0Units m true true 2 d.num x
  | .macA1SubOdd m mm d x => mac1Units m mm true true 2 d.num x
  | .macDual m mm pair u1 u0 d s t =>
    macUnits 0xC000 m mm pair u1.write u1.op.num u1.sel u0.write u0.op.num u0.sel d.num s.num t.num
  | .mulDreg d s => [0x40C0 + s.num * 8 + d.num]
  | .bitclr d n => [0x4C00 + n.toNat * 8 + d.num]
  | .bitset d n => [0x4A00 + n.toNat * 8 + d.num]
  | .bittgl d n => [0x4B00 + n.toNat * 8 + d.num]
  | .ccBittst s n => [0x4900 + n.toNat * 8 + s.num]
  | .ccNotBittst s n => [0x4800 + n.toNat * 8 + s.num]
  | .asrImmTo d n => [0x4D00 + n.toNat * 8 + d.num]
  | .lsrImmTo d n => [0x4E00 + n.toNat * 8 + d.num]
  | .lslImmTo d n => [0x4F00 + n.toNat * 8 + d.num]
  | .deposit x d bg fg => shiftUnits 10 (2 + b2n x) 0 d.num fg.num bg.num
  | .extract x d sc pat => shiftUnits 10 (b2n x) 0 d.num pat.num sc.num
  | .bitmux asl s t => shiftUnits 8 (b2n asl) 0 0 s.num t.num
  | .ones d s => shiftUnits 6 3 0 d.num 0 s.num
  | .pack d sh th s t => shiftUnits 4 (sh.num * 2 + th.num) 0 d.num t.num s.num
  | .asrImm d s n => shiftImmUnits 2 0 0 d.num n s.num
  | .lsrImm d s n => shiftImmUnits 2 2 0 d.num n s.num
  | .lslImm d s n => shiftImmUnits 2 2 0 d.num n s.num
  | .lslImmSat d s n => shiftImmUnits 2 1 0 d.num n s.num
  | .asrImmVec d s n => shiftImmUnits 1 0 0 d.num n s.num
  | .lsrImmVec d s n => shiftImmUnits 1 2 0 d.num n s.num
  | .lslImmVec d s n => shiftImmUnits 1 2 0 d.num n s.num
  | .lslImmVecSat d s n => shiftImmUnits 1 1 0 d.num n s.num
  | .asrImmHalf dh d sh s n => shiftImmUnits 0 0 (dh.num * 2 + sh.num) d.num n s.num
  | .lsrImmHalf dh d sh s n => shiftImmUnits 0 2 (dh.num * 2 + sh.num) d.num n s.num
  | .lslImmHalf dh d sh s n => shiftImmUnits 0 2 (dh.num * 2 + sh.num) d.num n s.num
  | .lslImmHalfSat dh d sh s n => shiftImmUnits 0 1 (dh.num * 2 + sh.num) d.num n s.num
  | .asrDregTo d s => [0x4000 + s.num * 8 + d.num]
  | .lsrDregTo d s => [0x4040 + s.num * 8 + d.num]
  | .lslDregTo d s => [0x4080 + s.num * 8 + d.num]
  | .ashift d v c => shiftUnits 2 0 0 d.num c.num v.num
  | .ashiftSat d v c => shiftUnits 2 1 0 d.num c.num v.num
  | .lshift d v c => shiftUnits 2 2 0 d.num c.num v.num
  | .ashiftVec d v c => shiftUnits 1 0 0 d.num c.num v.num
  | .ashiftVecSat d v c => shiftUnits 1 1 0 d.num c.num v.num
  | .lshiftVec d v c => shiftUnits 1 2 0 d.num c.num v.num
  | .ashiftHalf dh d vh v c => shiftUnits 0 0 (dh.num * 2 + vh.num) d.num c.num v.num
  | .ashiftHalfSat dh d vh v c => shiftUnits 0 1 (dh.num * 2 + vh.num) d.num c.num v.num
  | .lshiftHalf dh d vh v c => shiftUnits 0 2 (dh.num * 2 + vh.num) d.num c.num v.num
  | .rotImm d s n => shiftImmUnits 2 3 0 d.num n s.num
  | .rotDreg d v c => shiftUnits 2 3 0 d.num c.num v.num
  | .rotAccImm a n => shiftImmUnits 3 2 a.num 0 n 0
  | .rotAcc a c => shiftUnits 3 2 a.num 0 c.num 0
  | .asrAccImm a n => shiftImmUnits 3 0 a.num 0 n 0
  | .lsrAccImm a n => shiftImmUnits 3 1 a.num 0 n 0
  | .lslAccImm a n => shiftImmUnits 3 0 a.num 0 n 0
  | .ashiftAcc a c => shiftUnits 3 0 a.num 0 c.num 0
  | .bxorShift aa hh d s t => shiftUnits 11 aa.toNat hh.toNat d.num s.num t.num
  | .bxorAcc aa hh d s t => shiftUnits 12 aa.toNat hh.toNat d.num s.num t.num
  | .saa hl s x d e p q => aluUnits (b2n hl) 18 0 (b2n s) (b2n x) d.num e.num p.num q.num
  | .byteop1p hl b s x d e p q => aluUnits (b2n hl) 20 b.toNat (b2n s) (b2n x) d.num e.num p.num q.num
  | .byteop16 hl b s x d e p q => aluUnits (b2n hl) 21 b.toNat (b2n s) (b2n x) d.num e.num p.num q.num
  | .byteop2p hl b s x d e p q => aluUnits (b2n hl) 22 b.toNat (b2n s) (b2n x) d.num e.num p.num q.num
  | .byteop3p hl b s x d e p q => aluUnits (b2n hl) 23 b.toNat (b2n s) (b2n x) d.num e.num p.num q.num
  | .bytepack hl b s x d e p q => aluUnits (b2n hl) 24 b.toNat (b2n s) (b2n x) d.num e.num p.num q.num
  | .jumpShort o => [0x2000 + o.toNat]
  | .jumpLong o => [0xE200 + o.toNat / 65536, o.toNat % 65536]
  | .jumpAny o =>
    if o.toInt < -2048 ∨ 2047 < o.toInt then [0xE200 + o.toNat / 65536, o.toNat % 65536]
    else [0x2000 + o.toNat % 4096]
  | .jumpPreg p => [0x0050 + p.num]
  | .jumpPcPreg p => [0x0080 + p.num]
  | .callOff o => [0xE300 + o.toNat / 65536, o.toNat % 65536]
  | .callPreg p => [0x0060 + p.num]
  | .callPcPreg p => [0x0070 + p.num]
  | .rts => [0x0010]
  | .rti => [0x0011]
  | .rtx => [0x0012]
  | .rtn => [0x0013]
  | .rte => [0x0014]
  | .brcc o => [0x1800 + o.toNat]
  | .brncc o => [0x1000 + o.toNat]
  | .brccBp o => [0x1C00 + o.toNat]
  | .brnccBp o => [0x1400 + o.toNat]
  | .lsetupPreg c top p bot => [0xE0A0 + c.num * 16 + top.toNat, p.num * 4096 + bot.toNat]
  | .lsetup c top bot => [0xE080 + c.num * 16 + top.toNat, bot.toNat]
  | .lsetupPregHalf c top p bot => [0xE0E0 + c.num * 16 + top.toNat, p.num * 4096 + bot.toNat]
  | .disalgnexcpt => aluUnits 0 18 3 0 0 0 0 0 0
  | .loadP a d p => ldstUnit 0 0 a.num 1 p.num d.num
  | .loadD a d p => ldstUnit 0 0 a.num 0 p.num d.num
  | .loadWZ a d p => ldstUnit 1 0 a.num 0 p.num d.num
  | .loadWX a d p => ldstUnit 1 0 a.num 1 p.num d.num
  | .loadBZ a d p => ldstUnit 2 0 a.num 0 p.num d.num
  | .loadBX a d p => ldstUnit 2 0 a.num 1 p.num d.num
  | .storeP a p s => ldstUnit 0 1 a.num 1 p.num s.num
  | .storeD a p s => ldstUnit 0 1 a.num 0 p.num s.num
  | .storeW a p s => ldstUnit 1 1 a.num 0 p.num s.num
  | .storeB a p s => ldstUnit 2 1 a.num 0 p.num s.num
  | .loadDOff d p o => ldstIiUnit 0 o p.num d.num
  | .loadWZOff d p o => ldstIiUnit 1 o p.num d.num
  | .loadWXOff d p o => ldstIiUnit 2 o p.num d.num
  | .loadPOff d p o => ldstIiUnit 3 o p.num d.num
  | .storeDOff p o s => ldstIiUnit 4 o p.num s.num
  | .storeWOff p o s => ldstIiUnit 5 o p.num s.num
  | .storePOff p o s => ldstIiUnit 7 o p.num s.num
  | .loadFp d o => [0xB800 + o.toNat * 16 + d.cls * 8 + d.num]
  | .storeFp o s => [0xBA00 + o.toNat * 16 + s.cls * 8 + s.num]
  | .loadDLong d p o => ldstIdxUnits 0 0 0 p.num d.num o
  | .loadPLong d p o => ldstIdxUnits 0 1 0 p.num d.num o
  | .loadWZLong d p o => ldstIdxUnits 0 0 1 p.num d.num o
  | .loadWXLong d p o => ldstIdxUnits 0 1 1 p.num d.num o
  | .loadBZLong d p o => ldstIdxUnits 0 0 2 p.num d.num o
  | .loadBXLong d p o => ldstIdxUnits 0 1 2 p.num d.num o
  | .storeDLong p o s => ldstIdxUnits 1 0 0 p.num s.num o
  | .storePLong p o s => ldstIdxUnits 1 1 0 p.num s.num o
  | .storeWLong p o s => ldstIdxUnits 1 0 1 p.num s.num o
  | .storeBLong p o s => ldstIdxUnits 1 0 2 p.num s.num o
  | .loadDIdx d p x => pmodUnit 0 d.num x.num p.num
  | .loadLoIdx d p x => pmodUnit 1 d.num x.num p.num
  | .loadHiIdx d p x => pmodUnit 2 d.num x.num p.num
  | .loadWZIdx d p x => pmodUnit 3 d.num x.num p.num
  | .loadWXIdx d p x => pmodUnit 7 d.num x.num p.num
  | .storeDIdx p x s => pmodUnit 4 s.num x.num p.num
  | .storeLoIdx p x s => pmodUnit 5 s.num x.num p.num
  | .storeHiIdx p x s => pmodUnit 6 s.num x.num p.num
  | .loadDI a d i => dspLdstUnit 0 a.num 0 i.num d.num
  | .loadLoI a d i => dspLdstUnit 0 a.num 1 i.num d.num
  | .loadHiI a d i => dspLdstUnit 0 a.num 2 i.num d.num
  | .storeDI a i s => dspLdstUnit 1 a.num 0 i.num s.num
  | .storeLoI a i s => dspLdstUnit 1 a.num 1 i.num s.num
  | .storeHiI a i s => dspLdstUnit 1 a.num 2 i.num s.num
  | .loadDIM d i m => dspLdstUnit 0 3 m.num i.num d.num
  | .storeDIM i m s => dspLdstUnit 1 3 m.num i.num s.num
  | .addIM i m => [0x9E60 + m.num * 4 + i.num]
  | .subIM i m => [0x9E70 + m.num * 4 + i.num]
  | .addIMBrev i m => [0x9EE0 + m.num * 4 + i.num]
  | .addPregBrev d s => [0x4540 + s.num * 8 + d.num]
  | .addI2 i => [0x9F60 + i.num]
  | .subI2 i => [0x9F64 + i.num]
  | .addI4 i => [0x9F68 + i.num]
  | .subI4 i => [0x9F6C + i.num]
  | .nop => [0x0000]
  | .mnop => [0xC003, 0x1800]
  | .cli d => [0x0030 + d.num]
  | .sti s => [0x0040 + s.num]
  | .raiseInt n => [0x0090 + n.toNat]
  | .excpt n => [0x00A0 + n.toNat]
  | .emuexcpt => [0x0025]
  | .idle => [0x0020]
  | .csync => [0x0023]
  | .ssync => [0x0024]
  | .testset p => [0x00B0 + p.num]
  | .prefetch a p => [0x0240 + b2n a * 32 + p.num]
  | .flush a p => [0x0250 + b2n a * 32 + p.num]
  | .flushinv a p => [0x0248 + b2n a * 32 + p.num]
  | .iflush a p => [0x0258 + b2n a * 32 + p.num]
  | .pushReg r => [0x0140 + r.code]
  | .popReg r => [0x0100 + r.code]
  | .pushMulti r => [0x0440 + r.code]
  | .popMulti r => [0x0400 + r.code]
  | .link n => [0xE800, n.toNat]
  | .unlink => [0xE801, 0x0000]

/-- The bytes of an instruction, as they lie in memory. -/
def encodeBytes (i : Instr) : List (BitVec 8) := (encode i).flatMap unitBytes

/-- The length in bytes of an instruction (R502). -/
def Instr.len (i : Instr) : Nat := 2 * (encode i).length

end

end Sys2Proof
end

