-- ==== Sys2Proof/Config.lean ====
section
/-!
DEFINITION. What the spec leaves to the implementation: the parameters of 92_eei_decisions.md section 2, and the free
values (the draws of 93_implementation_defined.md section 2.3). A free value is a constant with no body, so that no
proof can see which value it is; it is applied to a counter of the state that the step advances.
-/

namespace Sys2Proof.Config

/-! ## Addresses (20_memory.md R301, R305; 92_eei_decisions.md section 2) -/

/-- `SCRATCH_A`: Core A's L1 scratchpad. PRESUMED by the spec's own default (R301). -/
def scratchA : Nat := 0xFFB00000

/-- `SCRATCH_B`: Core B's L1 scratchpad. PRESUMED by the spec's own default (R301). -/
def scratchB : Nat := 0xFF700000

/-- `L2_BASE`: the shared on-chip L2 SRAM. PRESUMED by the spec's own default (R301). -/
def l2Base : Nat := 0xFEB00000

/-! ## Parameters of the part and of the board -/

/-- A silicon revision of the DSPID register (63_debug.md R1905). -/
inductive Revision where
  | r0_0 | r0_1 | r0_2 | r0_3 | r0_5
  deriving DecidableEq, Repr, Inhabited

/-- `SILICON_REV` (R1905, 92_eei_decisions.md D58): which revision this chip is. -/
opaque siliconRev : Revision

/-- `boot_image` (70_reset_and_hazards.md R1932, D49): the addresses and bytes that the boot kernel places. -/
opaque bootImage : List (Word × Byte)

/-- The board supplies the core voltage itself: the internal regulator is bypassed (64_power.md R1140). -/
opaque externalSupply : Bool

/-- `Compress_mu` of G.711 on its 14-bit linear range (68_sport.md R1366, D90). -/
opaque compressMu : BitVec 14 → BitVec 8

/-- `Expand_mu` of G.711: a value of its 14-bit linear range (68_sport.md R1366, D90). -/
opaque expandMu : BitVec 8 → BitVec 14

/-- `Compress_A` of G.711 on its 13-bit linear range (68_sport.md R1366, D90). -/
opaque compressA : BitVec 13 → BitVec 8

/-- `Expand_A` of G.711: a value of its 13-bit linear range (68_sport.md R1366, D90). -/
opaque expandA : BitVec 8 → BitVec 13

/-- Timer `x` of timers 0 to 7 is wired to PPI1_CLK, else to PPI0_CLK, for PWM_OUT with CLK_SEL = 1 and TIN_SEL = 1
(62_timers.md R1537, R1546: the rules do not say to which; log entry 45). -/
opaque timerPpi1 (x : Nat) : Bool

/-- Which of PF1 to PF15 the SPI slave boot uses as HWAIT, counted from 0 (67_pf.md R1496, 70_reset_and_hazards.md R1932: the
boot image selects it; log entry 42). -/
opaque hwaitPin : Nat

/-! ## Free values -/

/-- The byte that an address holds which nothing has written since the moment `stamp` (D50, U2). -/
opaque unwrittenByte (stamp addr : Nat) : Byte

/-- A free 32-bit value: the `n`-th draw. -/
opaque freeWord (n : Nat) : Word

/-- A free choice between two possibilities: the `n`-th draw. -/
opaque freeBit (n : Nat) : Bool

/-- The levels that the flag logic senses on the pins of block `i` that a peripheral owns, at the `n`-th draw (67_pf.md
R1494). -/
opaque freePins (n i : Nat) : HWord

/-- A free number, for example the choice among several agents that could act: the `n`-th draw. -/
opaque freeNat (n : Nat) : Nat

end Sys2Proof.Config
end

