-- ==== Sys2Proof/Machine/Mem.lean ====
section
/-!
DEFINITION. The memory of the chip (20_memory.md R300 to R310, 10_state.md R85): one flat, byte-addressed space of
2^32 addresses. It is a list of cells in one canonical form: addresses strictly rising, every address below 2^32. An
address that is not listed holds no value that the spec states: `read` gives none there, a load sees the free byte
`Config.unwrittenByte` (U2), an instruction fetch stops (log entry 12).
-/

namespace Sys2Proof.Machine

/-- A range of addresses whose contents were lost at the moment `stamp`: what was listed there is gone, and a byte
read there before the next store is a free value of that moment (20_memory.md R310; 66_ebiu_sdc.md R1659). -/
structure Scrub where
  lo : Nat
  hi : Nat
  stamp : Nat
  deriving DecidableEq, Repr

/-- Memory: the listed cells, and the ranges that lost their contents, the newest first. -/
structure Mem where
  cells : List Host.Cell
  scrubs : List Scrub
  deriving DecidableEq, Repr

/-- No cell is listed: memory right after power-up (R310, R1928). -/
def Mem.empty : Mem := ⟨[], []⟩

/-- The byte listed at an address. -/
def cellsRead : List Host.Cell → Nat → Option Byte
  | [], _ => none
  | (a, b) :: cs, x => if x = a then some b else cellsRead cs x

/-- The list with `b` at address `x`, in the canonical form. -/
def cellsWrite : List Host.Cell → Nat → Byte → List Host.Cell
  | [], x, b => [(x, b)]
  | (a, c) :: cs, x, b =>
    if x < a then (x, b) :: (a, c) :: cs else if x = a then (x, b) :: cs else (a, c) :: cellsWrite cs x b

/-- Addresses strictly rising from `lo` on, all below 2^32. -/
def cellsWf : Nat → List Host.Cell → Bool
  | _, [] => true
  | lo, (a, _) :: cs => decide (lo ≤ a) && decide (a < 2 ^ 32) && cellsWf (a + 1) cs

/-- The canonical form. -/
def Mem.wf (m : Mem) : Bool := cellsWf 0 m.cells

/-- The byte at an address; none where nothing has been written. -/
def Mem.read (m : Mem) (a : Nat) : Option Byte := cellsRead m.cells a

/-- The moment at which address `a` last lost its contents; 0 when it never did. -/
def scrubStamp : List Scrub → Nat → Nat
  | [], _ => 0
  | c :: cs, a => if c.lo ≤ a ∧ a < c.hi then c.stamp else scrubStamp cs a

/-- The byte that a data access reads: the byte written last, else a free value (U2). -/
def Mem.load (m : Mem) (a : Nat) : Byte :=
  match m.read a with
  | some b => b
  | none => Config.unwrittenByte (scrubStamp m.scrubs a) a

/-- Store one byte. An address of 2^32 or more does not exist: nothing is stored. -/
def Mem.store (m : Mem) (a : Nat) (b : Byte) : Mem :=
  if a < 2 ^ 32 then { m with cells := cellsWrite m.cells a b } else m

/-- Bytes stored from `a` up. -/
def Mem.placeBytes (m : Mem) (a : Nat) : List Byte → Mem
  | [] => m
  | b :: bs => Mem.placeBytes (m.store a b) (a + 1) bs

/-- Little-endian load of `n` bytes from `a` up (20_memory.md R330). -/
def Mem.loadN (m : Mem) (a : Nat) : Nat → Nat
  | 0 => 0
  | n + 1 => (m.load a).toNat + 256 * Mem.loadN m (a + 1) n

/-- Little-endian store of the low `n` bytes of `v` from `a` up (20_memory.md R330). -/
def Mem.storeN (m : Mem) (a : Nat) : Nat → Nat → Mem
  | 0, _ => m
  | n + 1, v => Mem.storeN (m.store a (BitVec.ofNat 8 v)) (a + 1) n (v / 256)

/-- The `n` bytes from `a` up as an instruction fetch reads them; none if one of them holds no stated value. -/
def Mem.fetchN (m : Mem) (a : Nat) : Nat → Option (List Byte)
  | 0 => some []
  | n + 1 =>
    match m.read a with
    | none => none
    | some b => (Mem.fetchN m (a + 1) n).map (b :: ·)

/-- The contents of the addresses `lo` to `hi - 1` are lost at the moment `stamp`. -/
def Mem.scrub (m : Mem) (lo hi stamp : Nat) : Mem :=
  { cells := m.cells.filter fun c => decide (c.1 < lo ∨ hi ≤ c.1), scrubs := ⟨lo, hi, stamp⟩ :: m.scrubs }

end Sys2Proof.Machine
end

