-- ==== Sys2Proof/Machine/CoreState.lean ====
section
/-!
DEFINITION. The state of one core (10_state.md R50): its registers, its event controller, its core MMRs
(11_core_mmrs.md), its caches and CPLBs (21_cache_cplb.md) and its debug units (63_debug.md), each with its value
after reset. Where the spec gives no reset value the field is 0: DESIGN CHOICE, log entry 10 (unsafe).
-/

namespace Sys2Proof.Machine

/-- The two cores of the chip (R1, R9). -/
inductive CoreId where
  | a | b
  deriving DecidableEq, Repr

/-- The data register file R0..R7 (R51). -/
structure DRegs where
  r0 : Word
  r1 : Word
  r2 : Word
  r3 : Word
  r4 : Word
  r5 : Word
  r6 : Word
  r7 : Word
  deriving DecidableEq, Repr

/-- The pointer register file P0..P5, FP and the two stack pointers (R53, R54): `ssp` is the supervisor stack pointer,
`usp` the user stack pointer; the name SP denotes one of them by the mode. -/
structure PRegs where
  p0 : Word
  p1 : Word
  p2 : Word
  p3 : Word
  p4 : Word
  p5 : Word
  fp : Word
  ssp : Word
  usp : Word
  deriving DecidableEq, Repr

/-- Four registers of one DAG class: I0..I3, M0..M3, B0..B3 or L0..L3 (R55). -/
structure Dag4 where
  n0 : Word
  n1 : Word
  n2 : Word
  n3 : Word
  deriving DecidableEq, Repr

/-- One hardware-loop unit: LCn, LTn, LBn (R58). -/
structure LoopUnit where
  lc : Word
  lt : Word
  lb : Word
  deriving DecidableEq, Repr

/-- ASTAT as its named flags (R70, 92_eei_decisions.md D1). AC0_COPY and V_COPY are no state (R72); the reserved bits
read 0 (93_implementation_defined.md U1). -/
structure Astat where
  az : Bool
  an : Bool
  cc : Bool
  aq : Bool
  rndMod : Bool
  ac0 : Bool
  ac1 : Bool
  av0 : Bool
  av0s : Bool
  av1 : Bool
  av1s : Bool
  v : Bool
  vs : Bool
  deriving DecidableEq, Repr

/-- SEQSTAT as its fields (R60): EXCAUSE in bits 5:0, SFTRESET in bit 13, HWERRCAUSE in bits 18:14. -/
structure Seqstat where
  excause : BitVec 6
  sftreset : Bool
  hwerrcause : BitVec 5
  deriving DecidableEq, Repr

/-- SYSCFG as its fields (R61): SSSTEP in bit 0, CCEN in bit 1; the reserved bits read 0x30. -/
structure Syscfg where
  ssstep : Bool
  ccen : Bool
  deriving DecidableEq, Repr

/-- The core event controller (R1711 to R1714): the sixteen vectors, IMASK, IPEND and ILAT, and IPRIO (R416).
`raised` marks the ILAT bits that this core's own RAISE set: those are taken at the first boundary (D45). -/
structure EventCtl where
  evt : Vector Word 16
  imask : HWord
  ipend : HWord
  ilat : HWord
  raised : HWord
  iprio : BitVec 4
  deriving DecidableEq, Repr

/-- The core timer (62_timers.md R1560 to R1564). `fresh`: nothing has stored TPERIOD or TCOUNT since reset (R1561). -/
structure CoreTimer where
  tmpwr : Bool
  tmren : Bool
  tautorld : Bool
  tint : Bool
  tperiod : Word
  tscale : BitVec 8
  tcount : Word
  fresh : Bool
  deriving DecidableEq, Repr

/-- One CPLB descriptor: its two MMRs with the defined bits only (R431 to R433). -/
structure Cplb where
  addr : Word
  data : Word
  deriving DecidableEq, Repr

/-- Where a cache line lives: the data bank (false for Bank A and for the instruction cache), the sub-bank, the set
and the way (R401, R411). -/
structure LineKey where
  bank : Bool
  sub : BitVec 2
  set : BitVec 6
  way : BitVec 2
  deriving DecidableEq, Repr

/-- A cache line: `tag` is the address tag as R401 or R411 build it, `lruprio` the stored CPLB_LRUPRIO of an
instruction line, `dirty` the Dirty bit of a data line, `data` its 32 bytes, byte 0 lowest, `holes` the bytes that hold
no value that the spec states (R1935), `placed` that a test access has written it: what it holds is then no copy of memory
(R406, R417). -/
structure Line where
  valid : Bool
  dirty : Bool
  lruprio : Bool
  tag : BitVec 20
  data : BitVec 256
  holes : BitVec 32
  placed : Bool
  deriving DecidableEq, Repr

/-! ## Accesses under way (20_memory.md R340 to R349; the model's own fields) -/

/-- A store that the core has executed and that has not been performed at its destination (R341): its address, the
number of bytes (32 for a cache line written back, R412), the value. -/
structure PendStore where
  addr : Nat
  size : Nat
  val : Nat
  deriving DecidableEq, Repr

/-- One 32-bit word of a line fill, with the mask of its bytes that hold no stated value. -/
structure FillWord where
  data : Word
  holes : BitVec 4
  deriving DecidableEq, Repr

/-- A line fill in progress (R402, R412): the address of the line, the double word fetched first, the page's
CPLB_LRUPRIO, the 32-bit words read so far in their order, the stores to the line that the core has executed meanwhile
(hit under a store miss), the oldest first, and whether one of them makes the line dirty. -/
structure Fill where
  base : Nat
  first : Nat
  prio : Bool
  got : List FillWord
  stores : List PendStore
  dirty : Bool
  deriving DecidableEq, Repr

/-- A load that the core has performed before an earlier one (R340): the addresses of the instructions from the one at
the pc to the load itself, the location and its size, the value read. -/
structure EarlyRead where
  path : List Word
  addr : Nat
  size : Nat
  val : Nat
  deriving DecidableEq, Repr

/-- What a stalled instruction waits for: an access to this address; `load`: an interrupt may cancel it (R344, R1660). -/
structure Wait where
  addr : Nat
  load : Bool
  deriving DecidableEq, Repr

/-- What a half word of instruction memory held before a write that the core has not synchronised with (R349). -/
structure OldHalf where
  addr : Nat
  lo : Option Byte
  hi : Option Byte
  deriving DecidableEq, Repr

/-- The L1 instruction memory controller: IMEM_CONTROL, the ICPLBs, the ITEST registers and the instruction cache
(R400 to R408, R431, R432, R441, R442). `lowPrio`: LRUPRIORST has been 1 since reset, so that a line of which nothing else is
known has CPLB_LRUPRIO = 0 (R400). -/
structure IMem where
  enicplb : Bool
  imc : Bool
  iloc : BitVec 4
  lrupriorst : Bool
  cplb : Vector Cplb 16
  status : Word
  faultAddr : Word
  testCommand : Word
  testData0 : Word
  testData1 : Word
  lines : List (LineKey × Line)
  lowPrio : Bool
  deriving DecidableEq, Repr

/-- The L1 data memory controller: DMEM_CONTROL, the DCPLBs, the DTEST registers and the data cache with the LRU bit of
each set, listed by the key of the set's way 0 where the spec states it: after reset no set is listed (R410 to R418, R431,
R433, R440, R442, R1935). -/
structure DMem where
  endcplb : Bool
  dmc : BitVec 2
  dcbs : Bool
  portPref0 : Bool
  portPref1 : Bool
  cplb : Vector Cplb 16
  status : Word
  faultAddr : Word
  testCommand : Word
  testData0 : Word
  testData1 : Word
  lines : List (LineKey × Line)
  lru : List (LineKey × Bool)
  deriving DecidableEq, Repr

/-- The watchpoint unit (R1851 to R1859), the registers with their defined bits only. -/
structure WatchUnit where
  iactl : Word
  ia : Vector Word 6
  iacnt : Vector HWord 6
  dactl : Word
  da : Vector Word 2
  dacnt : Vector HWord 2
  stat : BitVec 8
  deriving DecidableEq, Repr

/-- One entry of the trace buffer: the source and the target of a discontinuity (R1871). -/
structure TraceEntry where
  src : Word
  dst : Word
  deriving DecidableEq, Repr

/-- The trace unit (R1870 to R1874): TBUFCTL, the entries with the newest first, and whether the next load of TBUF
reads the newest entry's source (its target having been read). -/
structure TraceUnit where
  pwr : Bool
  en : Bool
  ovf : Bool
  cmplp : BitVec 2
  entries : List TraceEntry
  half : Bool
  deriving DecidableEq, Repr

/-- The performance monitor (R1880 to R1882): PFCTL with its defined bits, PFCNTR0, PFCNTR1. -/
structure PerfUnit where
  ctl : Word
  cntr0 : Word
  cntr1 : Word
  deriving DecidableEq, Repr

/-- One core (R50). `idle` is the Idle state (R80 (b)); `held` is the reset hold of Core B (70_reset R1925);
`dead`: a double fault has stopped the core until a reset (R1727, D44); `stepLate`: SSSTEP has been set and no CSYNC
has been executed since (R1725); `synced`: the last instruction was a CSYNC or an SSYNC (R1749). `stores`: the pending
stores, the oldest first (R341); `dfill`, `ifill`: the line fills of the data and the instruction cache; `waiting`: what
the instruction at the pc is stalled on; `progress`: the reads of memory behind L1, address and value, that the stalled
instruction has already had; `stale`: the instruction memory that may still execute as it was (R349); `early`: the loads
ahead that have been performed already (R340). -/
structure Core where
  id : CoreId
  r : DRegs
  p : PRegs
  i : Dag4
  m : Dag4
  b : Dag4
  l : Dag4
  a0 : Acc
  a1 : Acc
  pc : Word
  rets : Word
  reti : Word
  retx : Word
  retn : Word
  rete : Word
  loop0 : LoopUnit
  loop1 : LoopUnit
  astat : Astat
  seqstat : Seqstat
  syscfg : Syscfg
  cycles : BitVec 64
  idle : Bool
  held : Bool
  dead : Bool
  stepLate : Bool
  synced : Bool
  ev : EventCtl
  tmr : CoreTimer
  imem : IMem
  dmem : DMem
  wp : WatchUnit
  trace : TraceUnit
  perf : PerfUnit
  stores : List PendStore
  dfill : Option Fill
  ifill : Option Fill
  waiting : Option Wait
  progress : List (Nat × Nat)
  stale : List OldHalf
  early : List EarlyRead
  deriving DecidableEq, Repr

/-! ## Values after reset (R90, 70_reset_and_hazards.md R1928)

A register to which the spec gives no reset value takes one from `u`: right after the first reset, in `State.reset`,
every one is 0 (DESIGN CHOICE, log entry 10); a later reset draws them afresh (R1928). -/

/-- Data registers: no reset value in the spec. -/
def DRegs.reset (u : Nat → Word) : DRegs := ⟨u 0, u 1, u 2, u 3, u 4, u 5, u 6, u 7⟩

/-- Pointer registers: no reset value in the spec. -/
def PRegs.reset (u : Nat → Word) : PRegs := ⟨u 8, u 9, u 10, u 11, u 12, u 13, u 14, u 15, u 16⟩

/-- Four DAG registers: no reset value in the spec. -/
def Dag4.reset (u : Nat → Word) (k : Nat) : Dag4 := ⟨u k, u (k + 1), u (k + 2), u (k + 3)⟩

/-- An accumulator: no reset value in the spec. -/
def accReset (u : Nat → Word) (k : Nat) : Acc := (u k).extractLsb' 0 8 ++ u (k + 1)

/-- Loop registers: no reset value in the spec. -/
def LoopUnit.reset (u : Nat → Word) (k : Nat) : LoopUnit := ⟨u k, u (k + 1), u (k + 2)⟩

/-- ASTAT = 0 (R70). -/
def Astat.reset : Astat :=
  ⟨false, false, false, false, false, false, false, false, false, false, false, false, false⟩

/-- SEQSTAT = 0 but for SFTRESET (R60, R1928). -/
def Seqstat.reset (sft : Bool) : Seqstat := ⟨0, sft, 0⟩

/-- SYSCFG = 0x30: SSSTEP and CCEN are 0 (R61). -/
def Syscfg.reset : Syscfg := ⟨false, false⟩

/-- IMASK = 0x1F, ILAT = 0, IPRIO = 0, the reset event in service (R1713: IPEND[1] = 1; bit 4, which the spec leaves
open, is 1: log entry 11); the vectors have no reset value. -/
def EventCtl.reset (u : Nat → Word) : EventCtl :=
  { evt := Vector.ofFn fun n => u (50 + n.val), imask := 0x001F, ipend := 0x0012, ilat := 0, raised := 0, iprio := 0 }

/-- TCNTL = 0 (D56); the other registers have no reset value. -/
def CoreTimer.reset (u : Nat → Word) : CoreTimer :=
  ⟨false, false, false, false, u 66, (u 67).extractLsb' 0 8, u 68, true⟩

/-- IMEM_CONTROL with ENICPLB = 0 and IMC = 0, ITEST_COMMAND and every CPLB register 0, no valid line (R452). -/
def IMem.reset (u : Nat → Word) : IMem :=
  { enicplb := false, imc := false, iloc := 0, lrupriorst := false, cplb := Vector.replicate 16 ⟨0, 0⟩,
    status := u 69, faultAddr := u 70, testCommand := 0, testData0 := u 71, testData1 := u 72, lines := [],
    lowPrio := false }

/-- DMEM_CONTROL = 0x1001, every CPLB register 0, no valid line (R410, R452). -/
def DMem.reset (u : Nat → Word) : DMem :=
  { endcplb := false, dmc := 0, dcbs := false, portPref0 := true, portPref1 := false,
    cplb := Vector.replicate 16 ⟨0, 0⟩, status := u 73, faultAddr := u 74, testCommand := u 75, testData0 := u 76,
    testData1 := u 77, lines := [], lru := [] }

/-- The watchpoint unit is off (WPPWR = 0) and its status bits are 0 (R158, D58); the rest has no reset value. -/
def WatchUnit.reset (u : Nat → Word) : WatchUnit :=
  { iactl := u 96 &&& 0x03FFFFFE, ia := Vector.ofFn fun n => u (78 + n.val) &&& 0xFFFFFFFE,
    iacnt := Vector.ofFn fun n => (u (84 + n.val)).extractLsb' 0 16, dactl := u 97 &&& 0x00003FFF,
    da := Vector.ofFn fun n => u (90 + n.val), dacnt := Vector.ofFn fun n => (u (92 + n.val)).extractLsb' 0 16,
    stat := 0 }

/-- The trace unit is off and empty (D58); TBUFOVF and CMPLP have no reset value (R157). -/
def TraceUnit.reset (u : Nat → Word) : TraceUnit :=
  ⟨false, false, (u 98).getLsbD 2, (u 98).extractLsb' 3 2, [], false⟩

/-- The performance monitor is off (PFPWR = 0, D58); the rest has no reset value (R159). -/
def PerfUnit.reset (u : Nat → Word) : PerfUnit := ⟨u 99 &&& 0x03FFFFFC, u 94, u 95⟩

/-- A core right after a reset that resets the cores (R1928), starting at `pc`; `sft` is SEQSTAT.SFTRESET. Core B is
held (R1925). -/
def Core.reset (u : Nat → Word) (id : CoreId) (pc : Word) (sft : Bool) : Core :=
  { id := id, r := .reset u, p := .reset u, i := .reset u 17, m := .reset u 21, b := .reset u 25, l := .reset u 29,
    a0 := accReset u 33, a1 := accReset u 35, pc := pc, rets := u 37, reti := u 38, retx := u 39, retn := u 40,
    rete := u 41, loop0 := .reset u 42, loop1 := .reset u 45, astat := .reset, seqstat := .reset sft,
    syscfg := .reset, cycles := u 48 ++ u 49, idle := false, held := id = .b, dead := false, stepLate := false,
    synced := false, ev := .reset u, tmr := .reset u, imem := .reset u, dmem := .reset u, wp := .reset u,
    trace := .reset u, perf := .reset u, stores := [], dfill := none, ifill := none, waiting := none,
    progress := [], stale := [], early := [] }

end Sys2Proof.Machine
end

