-- ==== Sys2Proof/Machine/SysState.lean ====
section
/-!
DEFINITION. The state shared by the two cores: the system memory-mapped registers and the units behind them
(12_system_mmrs.md), each with its value after reset.
-/

namespace Sys2Proof.Machine

/-- The system interrupt controller of one core (R1800 to R1812): SIC_ISR0/1, the lines as it has sampled them (R1805),
SIC_IMASK0/1, SIC_IWR0/1, SIC_IAR0 to 7. -/
structure Sic where
  isr0 : Word
  isr1 : Word
  imask0 : Word
  imask1 : Word
  iwr0 : Word
  iwr1 : Word
  iar : Vector Word 8
  deriving DecidableEq, Repr

/-- The registers SICA_SWRST, SICA_SYSCR and SICB_SYSCR (70_reset_and_hazards.md R1922 to R1926; 61_sic_multicore.md
R1830). `swrst` is the SYSTEM_SOFTWARE_RESET field as stored; `dfA`, `dfB` the double-fault reset enables; `stat` the
reset status bits; `bmode` the boot mode pins as sampled at the last hardware reset; `prio` the four DMA priority bits;
`supp` the supplemental interrupts CA0, CB0, CA1, CB1. -/
structure SysCtl where
  swrst : BitVec 3
  dfA : Bool
  dfB : Bool
  stat : BitVec 5
  bmode : BitVec 2
  noBoot : Bool
  coreBInit : Bool
  prio : BitVec 4
  supp : BitVec 4
  deriving DecidableEq, Repr

/-- Who makes an access to external memory (R1621): a core's load, fetch, store or line fill, or a DMA channel. -/
inductive BusUser where
  | load (id : CoreId)
  | fetch (id : CoreId)
  | store (id : CoreId)
  | dataFill (id : CoreId)
  | instFill (id : CoreId)
  | dma (i : Nat)
  deriving DecidableEq, Repr

/-- An access that ARDY extends (R1636): whose it is, its address, and whether the device has released it. -/
structure BusAccess where
  user : BusUser
  addr : Nat
  ready : Bool
  deriving DecidableEq, Repr

/-- The external bus interface unit (66_ebiu.md R1624, R1627): the registers EBIU_AMGCTL, AMBCTL0/1, SDGCTL, SDBCTL and
SDRRC with their defined bits; `powered`, `selfRefresh`, `ease` and `granted` are EBIU_SDSTAT's SDRS (negated), SDSRA,
SDEASE and BGSTAT; `puaA`, `puaB`: that core may still see SDPUA = 1 from another agent's power-up (R1650); `busy`: the
access that ARDY extends (R1636). -/
structure Ebiu where
  amgctl : HWord
  ambctl0 : Word
  ambctl1 : Word
  sdgctl : Word
  sdbctl : Word
  sdrrc : HWord
  powered : Bool
  selfRefresh : Bool
  ease : Bool
  granted : Bool
  puaA : Bool
  puaB : Bool
  busy : Option BusAccess
  deriving DecidableEq, Repr

/-- The fields of PLL_CTL that decide clocks and mode (64_power.md R1110, R1111). -/
structure PllCfg where
  msel : BitVec 6
  df : Bool
  bypass : Bool
  pllOff : Bool
  stopck : Bool
  pdwn : Bool
  deriving DecidableEq, Repr

/-- Clocks and power (64_power.md R1108 to R1140): PLL_CTL, PLL_DIV, VR_CTL, PLL_LOCKCNT as stored; `applied`, the
configuration in force; `vrStored`: VR_CTL has been stored to since the last apply; PLL_LOCKED and VSTAT; `relock`: the
lock counter runs; the PLL Wakeup line at each core's controller, up until that core leaves the Idle state (R1133, D54);
`hibernate` (R1140). -/
structure Power where
  ctl : HWord
  div : HWord
  vr : HWord
  lockcnt : HWord
  applied : PllCfg
  vrStored : Bool
  locked : Bool
  vstat : Bool
  relock : Bool
  wakeA : Bool
  wakeB : Bool
  hibernate : Bool
  deriving DecidableEq, Repr

/-- A watchdog timer (62_timers.md R1570 to R1575): `wden` is the field WDEN, 0xAD when it is disabled; `gpi`: it has
expired into its general-purpose interrupt, and WDRO has not been cleared since (R1574). -/
structure Watchdog where
  wdro : Bool
  gpi : Bool
  wden : Byte
  wdev : BitVec 2
  cnt : Word
  stat : Word
  deriving DecidableEq, Repr

/-- A general-purpose timer (62_timers.md R1520 to R1547): TIMERx_CONFIG bits 9:0 and ERR_TYP, COUNTER, the active
PERIOD and WIDTH and their buffers, TIMEN, TRUN, TIMIL, TOVF_ERR, the level it drives on its pin, whether the current
period is an odd-numbered one (R1536), and whether WDTH_CAP has seen its first leading edge (R1540) or a single pulse of
PWM_OUT has gone through the counter's range (R1530). -/
structure GpTimer where
  cfg : BitVec 10
  errTyp : BitVec 2
  counter : Word
  period : Word
  width : Word
  periodBuf : Word
  widthBuf : Word
  timen : Bool
  trun : Bool
  timil : Bool
  tovf : Bool
  pin : Bool
  odd : Bool
  started : Bool
  deriving DecidableEq, Repr

/-- The SPI port (68_serial.md R1252, R1261): SPI_CTL, SPI_FLG, the seven bits of SPI_STAT, SPI_TDBR, SPI_RDBR, SPI_BAUD,
the shift register, whether a transfer is in progress, a pending transfer-initiate command, and the SPI DMA FIFO of at
most four words, the oldest first. -/
structure Spi where
  ctl : HWord
  flg : HWord
  spif : Bool
  modf : Bool
  txe : Bool
  txs : Bool
  rbsy : Bool
  rxs : Bool
  txcol : Bool
  tdbr : HWord
  rdbr : HWord
  baud : HWord
  sfdr : HWord
  busy : Bool
  kick : Bool
  fifo : List HWord
  deriving DecidableEq, Repr

/-- The UART (68_serial.md R1431 to R1442): its byte-wide registers, the status bits of UART_LSR, the transmit shift
register and whether it is full, and the UART_THR empty latch. -/
structure Uart where
  thr : Byte
  rbr : Byte
  dll : Byte
  dlh : Byte
  ier : BitVec 3
  lcr : Byte
  loop : Bool
  scr : Byte
  gctl : BitVec 6
  dr : Bool
  oe : Bool
  pe : Bool
  fe : Bool
  bi : Bool
  thre : Bool
  tsr : Byte
  tsrFull : Bool
  txreq : Bool
  deriving DecidableEq, Repr

/-- A serial port (68_sport.md R1354, R1370, R1380; 68_sport_mcm.md): its registers, the four sticky status bits, the
queue of written values (with true for a 32-bit one) and of received words, the two hold registers (primary, secondary),
what was sent last, what the last load of SPORTx_RX gave, whether the first frame sync has been seen and whether a word
is in progress on each side; in multichannel mode whether a frame is in progress, a next one is due, the channel being
serviced, whether its slot has started, whether it is received (R1410: the select register as it was when the slot
started), the values it has had since the last load of SPORTx_CHNL (R1409), and whether the transmitter was disabled alone
(R1368); in stereo mode whether the next word sent, and the next word received, is the right channel's (R1393); the two
clock dividers in force, and whether a frame sync that does not update it has come since it was stored to (R1360). -/
structure Sport where
  tcr1 : HWord
  tcr2 : HWord
  tclkdiv : HWord
  tfsdiv : HWord
  rcr1 : HWord
  rcr2 : HWord
  rclkdiv : HWord
  rfsdiv : HWord
  ruvf : Bool
  rovf : Bool
  tuvf : Bool
  tovf : Bool
  mcmc1 : HWord
  mcmc2 : HWord
  mtcs : Vector Word 4
  mrcs : Vector Word 4
  txq : List (Word × Bool)
  thold : Option (Word × Word)
  tshift : Word × Word
  txStarted : Bool
  txBusy : Bool
  rxq : List Word
  rhold : Option (Word × Word)
  lastRx : Word
  rxStarted : Bool
  rxBusy : Bool
  frame : Bool
  again : Bool
  chan : Nat
  slot : Bool
  rxSel : Bool
  chanFrom : Nat
  chanTo : Nat
  halfOff : Bool
  right : Bool
  rxRight : Bool
  tclk : HWord
  tclkNew : Bool
  rclk : HWord
  rclkNew : Bool
  deriving DecidableEq, Repr

/-- Where the line machine of a parallel port stands (69_ppi.md R1327): `delay d`, `data c`. -/
inductive PpiPhase where
  | idle
  | delay (d : Nat)
  | data (c : Nat)
  deriving DecidableEq, Repr

/-- A parallel port (69_ppi.md R1302, R1337, R1341): PPIx_CONTROL, bits 15:10 of PPIx_STATUS, COUNT, DELAY, FRAME; the
FIFO of DMA elements; `parts`, the samples of the element being put together or taken apart; the line machine; whether
it has synchronised, has seen PPIx_FS2, has been triggered; whether the samples it takes may still be invalid (R1326);
the lines of this frame; the PPIx_FS3 output; the frame syncs at the last clock (asserted, asserted, level); whether the
next element of the line is an odd-numbered one (R1308); the last elements of a 656 stream, oldest first, and F, V, H of
its last control code (R1320). -/
structure Ppi where
  ctl : HWord
  stat : BitVec 6
  count : HWord
  delay : HWord
  frame : HWord
  fifo : List Word
  parts : List HWord
  phase : PpiPhase
  synced : Bool
  fs2Seen : Bool
  running : Bool
  unsure : Bool
  lines : Nat
  fs3 : Bool
  last1 : Bool
  last2 : Bool
  last3 : Bool
  odd : Bool
  held : List HWord
  code : Option (Bool × Bool × Bool)
  deriving DecidableEq, Repr

/-- The phase of a DMA channel (65_buses_dma.md R1191): off; fetching a descriptor of `n` elements for FLOW `f`, the
`k`-th comes next; transferring elements; waiting for the last accesses of a work unit. -/
inductive DmaPhase where
  | off
  | fetch (f n k : Nat)
  | transfer
  | finish
  deriving DecidableEq, Repr

/-- A memory access that a channel has issued and not yet performed (R1241): its address, the element that a write
stores, whether its completion sets DMA_DONE, whether it is a write, its size in bytes, and whether the channel's chain
lies in external memory (R1231). It completes as issued, whatever DMA_CONFIG holds by then (R1193). -/
structure DmaAccess where
  addr : Word
  data : Word
  done : Bool
  write : Bool
  size : Nat
  ext : Bool
  deriving DecidableEq, Repr

/-- A DMA channel (R1153, R1191, R1195): its registers (PERIPHERAL_MAP by its field PMAP), its phase, its FIFO of
elements, each with the number of elements of its work unit (R1331), the accesses issued, and what a chain of work
units may not change: internal or external memory, WNR, WDSIZE (R1182). -/
structure DmaChan where
  next : Word
  start : Word
  cfg : HWord
  xcount : HWord
  xmod : HWord
  ycount : HWord
  ymod : HWord
  currDesc : Word
  currAddr : Word
  currX : HWord
  currY : HWord
  done : Bool
  err : Bool
  dfetch : Bool
  run : Bool
  pmap : BitVec 4
  phase : DmaPhase
  fifo : List (Word × Nat)
  pending : List DmaAccess
  chain : Option (Bool × Bool × BitVec 2)
  deriving DecidableEq, Repr

/-- The DMA controllers: the 36 channels (DMA1 0 to 15, DMA2 0 to 15, IMDMA 0 to 3), and DMA1_TC_PER, DMA2_TC_PER
(R1211). -/
structure Dma where
  chans : Vector DmaChan 36
  tcPer1 : HWord
  tcPer2 : HWord
  deriving DecidableEq, Repr

/-- One block of sixteen programmable flags (67_pf.md R1481): its eight registers, and the levels that the environment
puts on the pins. -/
structure FlagBlock where
  flag : HWord
  maska : HWord
  maskb : HWord
  dir : HWord
  polar : HWord
  edge : HWord
  both : HWord
  inen : HWord
  level : HWord
  deriving DecidableEq, Repr

/-- Everything the two cores share but memory. -/
structure Sys where
  spi : Spi
  uart : Uart
  sports : Vector Sport 2
  ppis : Vector Ppi 2
  dma : Dma
  fio : Vector FlagBlock 3
  wdogA : Watchdog
  wdogB : Watchdog
  timers : Vector GpTimer 12
  power : Power
  sic : Sic
  sicB : Sic
  ctl : SysCtl
  ebiu : Ebiu
  deriving DecidableEq, Repr

/-- SIC registers after reset (R1801): SIC_ISR0/1 and SIC_IMASK0/1 are 0, SIC_IWR0/1 are all ones, the IARs hold the
default map. -/
def Sic.reset : Sic :=
  { isr0 := 0, isr1 := 0, imask0 := 0, imask1 := 0, iwr0 := 0xFFFFFFFF, iwr1 := 0xFFFFFFFF,
    iar := #v[0x00000000, 0x11111000, 0x21111111, 0x22222222, 0x33333222, 0x43333333, 0x21144444, 0x00006552] }

/-- The control registers after a hardware reset with the BMODE pins at `bm` (R1922 to R1925). -/
def SysCtl.reset (bm : BitVec 2) : SysCtl :=
  { swrst := 0, dfA := false, dfB := false, stat := 0, bmode := bm, noBoot := false, coreBInit := true,
    prio := 0, supp := 0 }

/-- The EBIU after a reset that reaches it (R1665); EBIU_SDGCTL is `SDGCTL_RESET` (R1642): the documented 0xE0088849
with SCK1E = 1, which the rule and D67 ask for (log entry 66). -/
def Ebiu.reset : Ebiu :=
  { amgctl := 0x00F2, ambctl0 := 0xFFC2FFC2, ambctl1 := 0xFFC2FFC2, sdgctl := 0xE008884B, sdbctl := 0,
    sdrrc := 0x081A, powered := false, selfRefresh := false, ease := false, granted := false, puaA := false,
    puaB := false, busy := none }

/-- Clocks and power after a hardware reset with the Bypass pin at `pin` (R1108, R1122); `locked` and `vstat` have no
reset value (D51). -/
def Power.reset (pin locked vstat : Bool) : Power :=
  { ctl := 0x1400, div := 0x0005, vr := 0x00DB, lockcnt := 0x0200, applied := ⟨10, false, pin, false, false, false⟩,
    vrStored := false, locked := locked, vstat := vstat, relock := false, wakeA := false, wakeB := false,
    hibernate := false }

/-- A watchdog after reset: disabled (R1570, D57). -/
def Watchdog.reset : Watchdog := ⟨false, false, 0xAD, 0, 0, 0⟩

/-- A general-purpose timer after reset: COUNTER is 1, the rest 0 (R1520). -/
def GpTimer.reset : GpTimer := ⟨0, 0, 1, 0, 0, 0, 0, false, false, false, false, false, false, false⟩

/-- The SPI after reset (R1278). -/
def Spi.reset : Spi :=
  { ctl := 0x0400, flg := 0xFF00, spif := true, modf := false, txe := false, txs := false, rbsy := false, rxs := false,
    txcol := false, tdbr := 0, rdbr := 0, baud := 0, sfdr := 0, busy := false, kick := false, fifo := [] }

/-- The UART after reset (R1447). -/
def Uart.reset : Uart :=
  { thr := 0, rbr := 0, dll := 1, dlh := 0, ier := 0, lcr := 0, loop := false, scr := 0, gctl := 0, dr := false,
    oe := false, pe := false, fe := false, bi := false, thre := true, tsr := 0, tsrFull := false, txreq := true }

/-- A serial port after reset (R1415). -/
def Sport.reset : Sport :=
  { tcr1 := 0, tcr2 := 0, tclkdiv := 0, tfsdiv := 0, rcr1 := 0, rcr2 := 0, rclkdiv := 0, rfsdiv := 0, ruvf := false,
    rovf := false, tuvf := false, tovf := false, mcmc1 := 0, mcmc2 := 0, mtcs := Vector.replicate 4 0,
    mrcs := Vector.replicate 4 0, txq := [], thold := none, tshift := (0, 0), txStarted := false, txBusy := false,
    rxq := [], rhold := none, lastRx := 0, rxStarted := false, rxBusy := false, frame := false, again := false,
    chan := 0, slot := false, rxSel := false, chanFrom := 0, chanTo := 0, halfOff := false, right := false, rxRight := false,
    tclk := 0, tclkNew := false, rclk := 0, rclkNew := false }

/-- A parallel port after reset or a disable (R1341). -/
def Ppi.reset : Ppi :=
  { ctl := 0, stat := 0, count := 0, delay := 0, frame := 0, fifo := [], parts := [], phase := .idle, synced := false,
    fs2Seen := false, running := false, unsure := false, lines := 0, fs3 := false, last1 := false, last2 := false,
    last3 := false, odd := true, held := [], code := none }

/-- Channel `y` of its controller after reset (R1153, R1172): `u` gives the registers without a reset value. -/
def DmaChan.reset (u : Nat → Word) (y : Nat) : DmaChan :=
  { next := u 0, start := u 1, cfg := 0, xcount := (u 2).extractLsb' 0 16, xmod := (u 3).extractLsb' 0 16,
    ycount := (u 4).extractLsb' 0 16, ymod := (u 5).extractLsb' 0 16, currDesc := u 6, currAddr := u 7,
    currX := (u 8).extractLsb' 0 16, currY := (u 9).extractLsb' 0 16, done := false, err := false, dfetch := false,
    run := false, pmap := BitVec.ofNat 4 (if y < 12 then y else 0), phase := .off, fifo := [], pending := [],
    chain := none }

/-- The DMA controllers after reset: channel `i` takes its unspecified registers from `u i`. -/
def Dma.reset (u : Nat → Nat → Word) : Dma :=
  { chans := Vector.ofFn fun i : Fin 36 => .reset (u i.val) (if i.val < 32 then i.val % 16 else 12), tcPer1 := 0,
    tcPer2 := 0 }

/-- The values of Table 9-2, which the registers without a reset value take at first (log entry 10). -/
def dmaFirst (k : Nat) : Word := if k = 2 ∨ k = 4 then 1 else if k = 3 ∨ k = 5 then 2 else 0

/-- A flag block after reset (R1496); the pins are at `level`. -/
def FlagBlock.reset (level : HWord) : FlagBlock := ⟨0, 0, 0, 0, 0, 0, 0, 0, level⟩

/-- The levels that the environment puts on the flag pins at first: low, but for the UART's RX pin PF27, which idles high
(R1448; DESIGN CHOICE, log entry 30). -/
def FlagBlock.first : Vector FlagBlock 3 := #v[.reset 0, .reset 0x0800, .reset 0]

/-- The shared state after a hardware reset. -/
def Sys.reset : Sys := { spi := .reset, uart := .reset, sports := #v[.reset, .reset], ppis := #v[.reset, .reset],
                         dma := .reset fun _ => dmaFirst,
                         fio := FlagBlock.first,
                         wdogA := .reset, wdogB := .reset, timers := Vector.replicate 12 .reset,
                         power := .reset false false false, sic := .reset, sicB := .reset, ctl := .reset 0, ebiu := .reset }

end Sys2Proof.Machine
end

