-- ==== Sys2Proof/Machine/State.lean ====
section
/-!
DEFINITION. The state of the chip as plain data, the reasons a step can stop, and the state after reset.
-/

namespace Sys2Proof.Machine

/-- Why a step ends in a fault (93_implementation_defined.md section 2.1). -/
inductive Fault where
  /-- Raised by a step in which no agent can act and a core is stopped by a double fault whose reset is not enabled
  (R1727, D44). Safe: the spec gives no further step. -/
  | doubleFault
  /-- Raised by a fetch from memory that nothing has written, or whose access failed (R1935, R337, D50). Safe: the
  spec gives no instruction. -/
  | fetchUnspecified
  deriving DecidableEq, Repr

/-- Why a step is refused (93_implementation_defined.md section 2.2). Each is safe: the model says nothing of a run
that goes there. -/
inductive Refusal where
  /-- Raised by an arm of `exec` whose instruction has no meaning in this model yet. Safe. -/
  | notModelled (mnemonic : String)
  /-- Raised by a shift whose immediate count lies outside its range (R503, R761), and by LINK with a frame below 8 bytes
  (R503, R1020). Safe. -/
  | operandRange
  /-- Raised by a word of an instruction that the spec names and refuses: VIT_MAX and ALIGN (R504, R545, R811), the
  accumulator compares (R528, 91_not_in_source.md N-41-4; log entry 64). Safe. -/
  | notDefined
  /-- Raised by BXOR: the spec gives it no effect (R810). Safe. -/
  | bxorNotDescribed
  /-- Raised by the video instructions: the spec gives them no effect (R811). Safe. -/
  | videoNotDescribed
  /-- Raised by a post-modification of a pointer by itself (R906). Safe. -/
  | selfPostModify
  /-- Raised by a load into the pointer that it post-modifies (R915). Safe. -/
  | loadIntoOwnPointer
  /-- Raised by RAISE 0, RAISE 3 and RAISE 4 (R1004). Safe. -/
  | raiseReserved
  /-- Raised by EMUEXCPT and by what would enter Emulation mode (R1006, R1716, D14). Safe. -/
  | emulation
  /-- Raised by IDLE in User mode (R1007, D35). Safe. -/
  | idleInUser
  /-- Raised by TESTSET of an odd address, of L1 memory or of MMR space (R1010). Safe. -/
  | testsetTarget
  /-- Raised by a pop of SP (R1016). Safe. -/
  | popIntoSp
  /-- Raised by a move, push or pop of EMUDAT, the emulator's register (R62, D14). Safe. -/
  | emulatorRegister
  /-- Raised by a bundle two of whose parts write one register (R506). Safe. -/
  | bundleDoubleWrite
  /-- Raised by a store of a reserved setting to a core MMR (R410, R412, R436, R1853, R1856, R1563). Safe. -/
  | coreMmrSetting
  /-- Raised by a store of a reserved or forbidden setting to a system MMR, or by a use of a unit that its rules forbid
  (the rows of 93_implementation_defined.md section 2.2). Safe. -/
  | unitSetting
  deriving DecidableEq, Repr

/-- What an exception leaves in the fault-address and status registers (R440 to R442). -/
inductive Report where
  | none
  | data (addr status : Word)
  | fetch (addr status : Word)
  deriving DecidableEq, Repr

/-- An exception (R1721): its EXCAUSE code, its place in the priority order (R1722, 1 is the highest), and what it
reports. -/
structure Exc where
  code : BitVec 6
  prio : Nat
  report : Report
  deriving DecidableEq, Repr

/-- How the current instruction is issued: alone, or as part 0, 1 or 2 of a multi-issue bundle (R506). -/
inductive Slot where
  | single | slot0 | slot1 | slot2
  deriving DecidableEq, Repr

/-- The model's own bookkeeping of the step in progress (no state of the machine between steps): the slot in which the
current instruction is issued, whether DISALGNEXCPT stands in its bundle, the exception a part of the bundle has
raised, whether a part of it must wait for the bus, whether an event was entered, whether an emulation event was
triggered (it is refused), whether a discontinuity filled the trace buffer, whether a data watchpoint triggered,
whether an instruction watchpoint waits for that (WPAND) and whether for an emulation event, the addresses that the
other part of the bundle stores to, and how many reads of memory behind L1 the instruction has made. -/
structure Issue where
  slot : Slot
  noAlign : Bool
  raised : Option Exc
  stalled : Bool
  event : Bool
  emu : Bool
  full : Bool
  watch : Bool
  hit : Option Bool
  clash : Option (Nat × Nat)
  reads : Nat
  deriving DecidableEq, Repr

/-- No instruction is in progress. -/
def Issue.idle : Issue := ⟨.single, false, none, false, false, false, false, false, none, none, 0⟩

/-- What the outside world does to the chip (92_eei_decisions.md section 3; the host interface of each peripheral). -/
inductive Input where
  /-- RESET is asserted and released with these levels on the BMODE pins and the Bypass pin (R1922, R1122). -/
  | hardwareReset (bmode : BitVec 2) (bypass : Bool)
  /-- An edge on a core's NMI pin (R1717). -/
  | nmi (id : CoreId)
  /-- The level of flag pin PF`i` changes to `level` (R1487, R1497). -/
  | pin (i : Nat) (level : Bool)
  /-- An edge on the pin TMR`x` of one of the timers 8 to 11, whose pins are no flag pins. -/
  | timerPin (x : Nat) (rising : Bool)
  /-- One period of PPI`x`_CLK: the data pins and the frame syncs (R1340). -/
  | ppiClk (x : Nat) (d : HWord) (fs1 fs2 fs3 : Bool)
  /-- A master starts a transfer with the SPI as its slave (R1265). -/
  | spiBegin
  /-- That transfer ends; the SPI has received `w`. -/
  | spiEnd (w : HWord)
  /-- A frame arrives at the UART (R1438). -/
  | uartRecv (d : Byte) (parityBad stopBad brk : Bool)
  /-- An external transmit frame sync at SPORT`x` (R1419). -/
  | sportTfs (x : Nat)
  /-- An external receive frame sync at SPORT`x` (R1419). -/
  | sportRfs (x : Nat)
  /-- The external bus is granted to another master, or released by it (R1660). -/
  | busGrant (granted : Bool)
  /-- While it has the bus, the external master stores a byte (R1660 (b)). -/
  | masterStore (a : Word) (b : Byte)
  /-- The words that SPORT`x` samples on its primary and its secondary pin during the word time that ends next (R1419). -/
  | sportRxBits (x : Nat) (p q : Word)
  /-- The word that the SPI, as the master, receives in the transfer that ends next (R1263). -/
  | spiReceived (w : HWord)
  deriving DecidableEq, Repr

/-- What the board has at a range of external addresses (`EXT_MEM`, R306, R1639, R1657). -/
inductive ExtKind where
  | ram
  /-- Fixed contents: a store has no effect. -/
  | rom
  /-- A device: what a read gives is free, every access to a location is one access to the device. -/
  | device
  /-- Nothing: a read gives a free value, a store has no effect. -/
  | absent
  deriving DecidableEq, Repr

/-- A part of the board: the addresses `lo` to `hi - 1`; a memory of `size` bytes appears there again and again (R1639:
aliasing; `size = 0`: no aliasing). -/
structure ExtArea where
  lo : Nat
  hi : Nat
  kind : ExtKind
  size : Nat
  deriving DecidableEq, Repr

/-- What the chip does to the outside world (92_eei_decisions.md section 3). -/
inductive Output where
  /-- Flag pin PF`i` is driven to `level` (R1497). -/
  | pinDrive (i : Nat) (level : Bool)
  /-- The pin of timer `x` is driven to `level` (R1531, R1336). -/
  | timerPin (x : Nat) (level : Bool)
  /-- The SPI starts to send a word on the pin that it drives; the slave selects `owned` are then at these levels (R1280,
  R1282). -/
  | spiSent (w : HWord) (owned levels : Byte)
  /-- The slave selects that the SPI drives, PFx for bit x, and their levels (R1256, R1282). -/
  | spiSelect (owned levels : Byte)
  /-- The UART has sent a frame: the number of data bits, the data, the parity bit if there is one, whether the stop bit
  is valid, and whether SB holds the TX pin low meanwhile (R1437, R1448). -/
  | uartSent (bits : Nat) (d : Byte) (parity : Option Bool) (stopOk low : Bool)
  /-- SB forces the TX pin low, or no longer does (R1448). -/
  | uartBreak (low : Bool)
  /-- SPORT`x` sends a word: both data lines, its registers TCR1 and TCR2, the transmit clock divider in force and TFSDIV
  (the clock and frame-sync facts of R1419, R1360), whether it is the right channel's in stereo mode, and in multichannel
  mode the channel, MCMC2, RCR1, the receive clock divider in force and RFSDIV. -/
  | txWord (x : Nat) (pri sec : Word) (tcr1 tcr2 clkdiv fsdiv : HWord) (right : Bool) (chan : Option Nat)
      (mcmc2 rcr1 rclkdiv rfsdiv : HWord)
  /-- A disable cuts a word of SPORT`x` short (R1419). -/
  | txAbort (x : Nat)
  /-- SPORT`x` generates a receive frame sync: whether its word is the right channel's in stereo mode (R1393), RCR1 and
  RCR2, the receive clock divider in force and RFSDIV (R1360, R1419). -/
  | rfsOut (x : Nat) (right : Bool) (rcr1 rcr2 clkdiv fsdiv : HWord)
  /-- SPORT`x` takes an external receive frame sync, whether or not a word starts with it: the same facts (R1393, R1419). -/
  | rfsTaken (x : Nat) (right : Bool) (rcr1 rcr2 clkdiv : HWord)
  /-- What PPI`x` drives at a clock: the data, if it transmits, and the frame syncs that are outputs in its mode (R1330,
  R1340). -/
  | ppiOut (x : Nat) (d : Option HWord) (fs1 fs2 fs3 : Option Bool)
  /-- A device on the external bus is read: its location and size in bytes (R1639). -/
  | devRead (a n : Nat)
  /-- A device on the external bus is written: the location, its size in bytes, the bytes enabled, the value (R1638,
  R1639). -/
  | devWrite (a n : Nat) (enables : Nat) (v : Nat)
  deriving DecidableEq, Repr

/-- The chip (R1, R9): the core that takes the current step and the other one, what they share, memory. `board` is what
the board has on the external bus (R306: a parameter, no step changes it; what it does not list is RAM, log entry 14). The
model's own fields: `free`, the number of free values drawn so far (DESIGN CHOICE, log entry 13); `inputs`, what the
outside world is about to do, the next first (DESIGN CHOICE, log entry 31); `out`, what the chip has done to it, the newest
first (log entry 18); `issue`. -/
structure State where
  cur : Core
  oth : Core
  sys : Sys
  mem : Mem
  free : Nat
  inputs : List Input
  board : List ExtArea
  out : List Output
  issue : Issue
  deriving DecidableEq, Repr

/-- The machine right after a hardware reset with BMODE = 00 (R1922, R1928 to R1930): Core A at the reset vector,
Core B held at the start of its L1 instruction memory (R1925), memory with nothing listed (R1935). A register without a
reset value in the spec is 0 (log entry 10). -/
def State.reset : State :=
  { cur := .reset (fun _ => 0) .a 0x20000000 false, oth := .reset (fun _ => 0) .b 0xFF600000 false, sys := .reset,
    mem := .empty, free := 0, inputs := [], board := [], out := [], issue := .idle }

end Sys2Proof.Machine
end

