-- ==== Sys2Proof/Machine/Reset.lean ====
section
/-!
DEFINITION. The five kinds of reset (70_reset_and_hazards.md section 1): what each does to every part of the machine
(the matrix of R1921).
-/

namespace Sys2Proof.Machine

/-- The world sees something. -/
def State.emit (s : State) (o : Output) : State := { s with out := o :: s.out }

/-- The next draw of a free number. -/
def State.drawNat (s : State) : Nat × State := (Config.freeNat s.free, { s with free := s.free + 1 })

/-- The next draw of a free word. -/
def State.drawWord (s : State) : Word × State := (Config.freeWord s.free, { s with free := s.free + 1 })

/-- The next draw of a free bit. -/
def State.drawBit (s : State) : Bool × State := (Config.freeBit s.free, { s with free := s.free + 1 })

/-- The contents of the addresses `lo` to `hi - 1` become free values (R1659, R415). -/
def State.scrub (s : State) (lo hi : Nat) : State :=
  { s with mem := s.mem.scrub lo hi (s.free + 1), free := s.free + 1 }

/-- Where Core A starts (R1930, R1931): `again` when the No Boot bit counts, that is after any reset but a hardware
reset. -/
def SysCtl.resetVector (c : SysCtl) (again : Bool) : Word :=
  if c.bmode = 0 then (if again && c.noBoot then 0xFFA00000 else 0x20000000) else 0xEF000000

/-- Offset of a core's L1 memories: Core B's lie 0x400000 below Core A's (R305). -/
def CoreId.l1Shift : CoreId → Nat
  | .a => 0
  | .b => 0x400000

/-- The upper half of data bank A (false) or B (true) serves as cache (R410). -/
def DMem.bankCached (d : DMem) (bank : Bool) : Bool := d.dmc == 3 || (d.dmc == 2 && !bank)

/-- The L1 banks of core `c` that serve as cache are SRAM with unspecified contents from now on (R1935). -/
def State.scrubCaches (s : State) (c : Core) : State :=
  let at_ (on : Bool) (base : Nat) (s : State) : State :=
    if on then s.scrub (base - c.id.l1Shift) (base - c.id.l1Shift + 0x4000) else s
  at_ c.imem.imc 0xFFA10000 (at_ (c.dmem.bankCached true) 0xFF904000 (at_ (c.dmem.bankCached false) 0xFF804000 s))

/-- An access that ARDY extends is a DMA channel's. -/
def BusAccess.byDma (a : BusAccess) : Bool := match a.user with | .dma _ => true | _ => false

/-- Both cores in the state of R1928, Core A at its start address, Core B held (R1925); the registers without a reset
value are drawn afresh. A store still pending is lost: it may as well have been performed just before (R1924). An access
that a core has under way on the external bus is abandoned (R1921). The cores are in Idle no longer: the PLL Wakeup line
falls, and neither controller shows it (R1133). -/
def State.resetCores (s : State) (again : Bool) : State :=
  let s := (s.scrubCaches s.cur).scrubCaches s.oth
  let e := s.sys.ebiu
  let low (k : Sic) : Sic := { k with isr0 := k.isr0 &&& 0xFFFFFFFE }
  { s with
    cur := .reset (fun k => Config.freeWord (s.free + k)) .a (s.sys.ctl.resetVector again) again
    oth := .reset (fun k => Config.freeWord (s.free + 100 + k)) .b 0xFF600000 again
    sys := { s.sys with ctl := { s.sys.ctl with coreBInit := true },
                        ebiu := { e with busy := e.busy.filter BusAccess.byDma }
                        power := { s.sys.power with wakeA := false, wakeB := false }
                        sic := low s.sys.sic, sicB := low s.sys.sicB }
    free := s.free + 200
    issue := .idle }

/-- The SDRAM loses its contents in a reset that reaches the EBIU, unless it is in self-refresh with SCKELOW = 1 (R1659
(d)). -/
def State.loseSdram (s : State) : State :=
  if s.sys.ebiu.selfRefresh && s.sys.power.vr.getLsbD 15 then s else s.scrub 0 0x20000000

/-- The flag blocks after a reset: the outside world keeps its levels on the pins (R1496). -/
def Sys.resetFlags (y : Sys) : Vector FlagBlock 3 := y.fio.map fun f => .reset f.level

/-- The DMA controllers after a reset, with free values in the registers that have none (R1245). -/
def State.resetDma (s : State) : Dma := .reset fun i k => Config.freeWord (s.free + 10 * i + k)

/-! ## The SPI's slave selects (68_serial.md R1254, R1256, R1282) -/

/-- MSTR. -/
def Spi.mstr (p : Spi) : Bool := p.ctl.getLsbD 12
/-- SPE. -/
def Spi.spe (p : Spi) : Bool := p.ctl.getLsbD 14
/-- The SPI is enabled as a master. -/
def Spi.master (p : Spi) : Bool := p.spe && p.mstr

/-- CPHA. -/
def Spi.cpha (p : Spi) : Bool := p.ctl.getLsbD 10

/-- The slave selects that the SPI drives: PFx for bit x (R1256). -/
def Spi.selects (p : Spi) : Byte := if p.master then p.flg.extractLsb' 0 8 &&& 0xFE else 0

/-- `SelLevel` (R1256), 0 for a pin that the SPI does not drive. -/
def Spi.selLevels (p : Spi) : Byte :=
  p.selects &&& (if p.cpha then p.flg.extractLsb' 8 8 else if p.busy then 0 else 0xFF)

/-- The state with another SPI; the world sees the slave selects that change (R1282). -/
def State.setSpi (s : State) (p : Spi) : State :=
  let q := s.sys.spi
  let t := { s with sys := { s.sys with spi := p } }
  if q.selects = p.selects ∧ q.selLevels = p.selLevels then t else t.emit (.spiSelect p.selects p.selLevels)

/-! ## The resets -/

/-- A reset ends the break that SB forces on the UART's TX pin (R1448). -/
def State.endBreak (s : State) : State := if s.sys.uart.lcr.getLsbD 6 then s.emit (.uartBreak false) else s

/-- Hardware reset with these levels on the BMODE and Bypass pins (R1922, R1122): everything but memory, the cores'
identity and what is outside the chip; the world sees the slave selects that the SPI lets go (R1282). -/
def State.hardwareReset (s : State) (bm : BitVec 2) (pin : Bool) : State :=
  let s := s.loseSdram.endBreak.setSpi .reset
  let d := s.resetDma
  let s := { s with free := s.free + 360 }
  let (l, s) := s.drawBit
  let (v, s) := s.drawBit
  { s with sys := { Sys.reset with ctl := .reset bm, fio := s.sys.resetFlags, dma := d, power := .reset pin l v } }.resetCores false

/-- PLL_CTL, PLL_DIV, VR_CTL and PLL_LOCKCNT after another reset of the peripherals: each is kept or reset, which is free
(R1921, 91_not_in_source.md N-70-1). The cores run afterwards: STOPCK is no longer in force (DESIGN CHOICE, log entry
32). -/
def State.resetPower (s : State) : State :=
  let p := s.sys.power
  let r := Power.reset false p.locked p.vstat
  let (c, s) := s.drawBit
  let (d, s) := s.drawBit
  let (v, s) := s.drawBit
  let (l, s) := s.drawBit
  let q := { p with ctl := if c then p.ctl else r.ctl, div := if d then p.div else r.div,
                    vr := if v then p.vr else r.vr, lockcnt := if l then p.lockcnt else r.lockcnt }
  { s with sys := { s.sys with power := { q with applied := { p.applied with stopck := false } } } }

/-- The peripherals and their system MMRs at their reset values; SICA_SYSCR, SICA_SWRST and memory as they are, but for
SDRAM (R1921). -/
def State.resetPeripherals (s : State) : State :=
  let s := (s.loseSdram.endBreak.setSpi .reset).resetPower
  { s with
    free := s.free + 360
    sys := { s.sys with uart := .reset, sports := #v[.reset, .reset], ppis := #v[.reset, .reset],
                        dma := s.resetDma, fio := s.sys.resetFlags, wdogA := .reset, wdogB := .reset,
                        timers := Vector.replicate 12 .reset, sic := .reset, sicB := .reset, ebiu := .reset,
                        ctl := { s.sys.ctl with dfA := false, dfB := false, supp := 0 } } }

/-- Watchdog or double-fault reset (R1926, R1927): cores and peripherals, of SICA_SYSCR all but its boot mode fields
(R265); `bit` is the status bit of the cause in
SICA_SWRST bits 15:11, set beside bit 15; a cause bit that nothing has read since an earlier reset stays (R1923: only a
load or a hardware reset clears it; DEDUCED, log entry 68). -/
def State.softReset (s : State) (bit : BitVec 5) : State :=
  let s := s.resetPeripherals
  let ctl := { s.sys.ctl with swrst := 0, stat := s.sys.ctl.stat ||| bit ||| 0x10, prio := 0 }
  { s with sys := { s.sys with ctl := ctl } }.resetCores true

/-- Core-only reset, by RAISE 1 (R1924): both cores; SICA_SWRST bit 15 is free afterwards (R1923 (c)). -/
def State.coreOnlyReset (s : State) : State :=
  let (b, s) := s.drawBit
  let st := s.sys.ctl.stat
  let st := if b then st ||| 0x10 else st &&& 0x0F
  { s with sys := { s.sys with ctl := { s.sys.ctl with stat := st } } }.resetCores true

/-- System Software reset, started by a store of 7 to SICA_SWRST[2:0] (R1920, R1923 (a)): the peripherals and their
system MMRs; of SICA_SYSCR it clears the No Boot bit alone (R1921), and it sets bit 15 of SICA_SWRST. The cores and their
core MMRs stay: the model follows the reset matrix of R1921 where R161 says otherwise (log entry 68). -/
def State.systemSoftwareReset (s : State) : State :=
  let s := s.resetPeripherals
  { s with sys := { s.sys with ctl := { s.sys.ctl with noBoot := false, stat := s.sys.ctl.stat ||| 0x10 } } }

end Sys2Proof.Machine
end

