-- ==== Sys2Proof/Machine/Operands.lean ====
section
/-!
DEFINITION. Operands: how an instruction reads and writes the registers it names (00_scope.md R10 to R14, 10_state.md
R51 to R58). Every access to a register goes through these operations.
-/

namespace Sys2Proof.Machine

/-! ## Modes (60_exceptions.md R1702) -/

/-- IPEND without bit 4: the events in service. -/
def Core.evbits (c : Core) : HWord := c.ev.ipend &&& 0xFFEF

/-- User mode: no event is in service (R1702). The model never enters Emulation mode (D14): a core that is not in User
mode is in Supervisor mode. -/
def Core.user (c : Core) : Bool := c.evbits == 0

/-- The current core is in User mode. -/
def State.user (s : State) : Bool := s.cur.user

/-! ## Register files -/

/-- The value of a data register. -/
def DRegs.get (f : DRegs) : DReg → Word
  | .r0 => f.r0 | .r1 => f.r1 | .r2 => f.r2 | .r3 => f.r3
  | .r4 => f.r4 | .r5 => f.r5 | .r6 => f.r6 | .r7 => f.r7

/-- The register file with `v` in a data register. -/
def DRegs.set (f : DRegs) (r : DReg) (v : Word) : DRegs :=
  match r with
  | .r0 => { f with r0 := v } | .r1 => { f with r1 := v } | .r2 => { f with r2 := v } | .r3 => { f with r3 := v }
  | .r4 => { f with r4 := v } | .r5 => { f with r5 := v } | .r6 => { f with r6 := v } | .r7 => { f with r7 := v }

/-- The value of a pointer register; SP is the user or the supervisor stack pointer (R54). -/
def PRegs.get (f : PRegs) (user : Bool) : PReg → Word
  | .p0 => f.p0 | .p1 => f.p1 | .p2 => f.p2 | .p3 => f.p3 | .p4 => f.p4 | .p5 => f.p5
  | .sp => if user then f.usp else f.ssp
  | .fp => f.fp

/-- The register file with `v` in a pointer register. -/
def PRegs.set (f : PRegs) (user : Bool) (r : PReg) (v : Word) : PRegs :=
  match r with
  | .p0 => { f with p0 := v } | .p1 => { f with p1 := v } | .p2 => { f with p2 := v } | .p3 => { f with p3 := v }
  | .p4 => { f with p4 := v } | .p5 => { f with p5 := v }
  | .sp => if user then { f with usp := v } else { f with ssp := v }
  | .fp => { f with fp := v }

/-- The value of a DAG register. -/
def Dag4.get (f : Dag4) : DagN → Word
  | .n0 => f.n0 | .n1 => f.n1 | .n2 => f.n2 | .n3 => f.n3

/-- The DAG registers with `v` in one of them. -/
def Dag4.set (f : Dag4) (n : DagN) (v : Word) : Dag4 :=
  match n with
  | .n0 => { f with n0 := v } | .n1 => { f with n1 := v } | .n2 => { f with n2 := v } | .n3 => { f with n3 := v }

/-! ## Registers of the current core -/

/-- The state with the current core replaced. -/
def State.setCur (s : State) (c : Core) : State := { s with cur := c }

/-- `Rn` (R51). -/
def State.d (s : State) (r : DReg) : Word := s.cur.r.get r

/-- `Rn <- v` (R51). -/
def State.setD (s : State) (r : DReg) (v : Word) : State := s.setCur { s.cur with r := s.cur.r.set r v }

/-- `Pn`, SP, FP (R53, R54). -/
def State.p (s : State) (r : PReg) : Word := s.cur.p.get s.user r

/-- `Pn <- v` (R53, R54). -/
def State.setP (s : State) (r : PReg) (v : Word) : State := s.setCur { s.cur with p := s.cur.p.set s.user r v }

/-- `In` (R55). -/
def State.i (s : State) (n : DagN) : Word := s.cur.i.get n

/-- `In <- v` (R55). -/
def State.setI (s : State) (n : DagN) (v : Word) : State := s.setCur { s.cur with i := s.cur.i.set n v }

/-- `Mn` (R55). -/
def State.m (s : State) (n : DagN) : Word := s.cur.m.get n

/-- `Mn <- v` (R55). -/
def State.setM (s : State) (n : DagN) (v : Word) : State := s.setCur { s.cur with m := s.cur.m.set n v }

/-- `Bn` (R55). -/
def State.b (s : State) (n : DagN) : Word := s.cur.b.get n

/-- `Bn <- v` (R55). -/
def State.setB (s : State) (n : DagN) (v : Word) : State := s.setCur { s.cur with b := s.cur.b.set n v }

/-- `Ln` (R55). -/
def State.l (s : State) (n : DagN) : Word := s.cur.l.get n

/-- `Ln <- v` (R55). -/
def State.setL (s : State) (n : DagN) (v : Word) : State := s.setCur { s.cur with l := s.cur.l.set n v }

/-- `An` (R52). -/
def State.acc (s : State) : AccN → Acc
  | .a0 => s.cur.a0
  | .a1 => s.cur.a1

/-- `An <- v` (R52). -/
def State.setAcc (s : State) (a : AccN) (v : Acc) : State :=
  match a with
  | .a0 => s.setCur { s.cur with a0 := v }
  | .a1 => s.setCur { s.cur with a1 := v }

/-- The state with the flags of the current core replaced. -/
def State.setAstat (s : State) (f : Astat) : State := s.setCur { s.cur with astat := f }

/-- CC (R74). -/
def State.cc (s : State) : Bool := s.cur.astat.cc

/-- `CC <- b` (R74). -/
def State.setCc (s : State) (b : Bool) : State := s.setAstat { s.cur.astat with cc := b }

/-- A data or pointer register. -/
def State.dp (s : State) : DPReg → Word
  | .d r => s.d r
  | .p r => s.p r

/-- Write a data or pointer register. -/
def State.setDp (s : State) (x : DPReg) (v : Word) : State :=
  match x with
  | .d r => s.setD r v
  | .p r => s.setP r v

/-- A loop unit (R58). -/
def State.loopUnit (s : State) : LoopN → LoopUnit
  | .l0 => s.cur.loop0
  | .l1 => s.cur.loop1

/-- Write a loop unit (R58). -/
def State.setLoop (s : State) (n : LoopN) (u : LoopUnit) : State :=
  match n with
  | .l0 => s.setCur { s.cur with loop0 := u }
  | .l1 => s.setCur { s.cur with loop1 := u }

/-- `pc <- a` (R56). -/
def State.setPc (s : State) (a : Word) : State := s.setCur { s.cur with pc := a }

/-! ## Halves and parts (R10, R51, R52) -/

/-- One half of a 32-bit value. -/
def half (h : Half) (w : Word) : HWord :=
  match h with
  | .lo => w.extractLsb' 0 16
  | .hi => w.extractLsb' 16 16

/-- A 32-bit value of two halves, the high one first. -/
def word (hi lo : HWord) : Word := hi ++ lo

/-- `w` with one half replaced; the other half is unchanged (R51). -/
def withHalf (h : Half) (w : Word) (v : HWord) : Word :=
  match h with
  | .lo => word (half .hi w) v
  | .hi => word v (half .lo w)

/-- `Rn.L` or `Rn.H`. -/
def State.dh (s : State) (r : DReg) (h : Half) : HWord := half h (s.d r)

/-- `Rn.L <- v` or `Rn.H <- v` (R51). -/
def State.setDh (s : State) (r : DReg) (h : Half) (v : HWord) : State := s.setD r (withHalf h (s.d r) v)

/-- The register after an even one in its pair: R1 of R1:0 (R14). -/
def DReg.pairHi : DReg → DReg
  | .r0 | .r1 => .r1
  | .r2 | .r3 => .r3
  | .r4 | .r5 => .r5
  | .r6 | .r7 => .r7

/-- `An.X`, the top eight bits (R52). -/
def accX (a : Acc) : Byte := a.extractLsb' 32 8

/-- `An.W`, the low 32 bits (R52). -/
def accW (a : Acc) : Word := a.extractLsb' 0 32

/-- An accumulator of its parts X and W (R52). -/
def accOf (x : Byte) (w : Word) : Acc := x ++ w

/-! ## The registers of a move, a push or a pop (R550, R57 to R63, R70) -/

/-- ASTAT as a word (R70): AC0_COPY and V_COPY read as AC0 and V (R72), the reserved bits as 0. -/
def Astat.toWord (f : Astat) : Word :=
  let b (x : Bool) (n : Nat) : Nat := x.toNat * 2 ^ n
  BitVec.ofNat 32 (b f.az 0 + b f.an 1 + b f.ac0 2 + b f.v 3 + b f.cc 5 + b f.aq 6 + b f.rndMod 8 + b f.ac0 12
    + b f.ac1 13 + b f.av0 16 + b f.av0s 17 + b f.av1 18 + b f.av1s 19 + b f.v 24 + b f.vs 25)

/-- The flags that a write of a word to ASTAT leaves (R70); bits 2 and 3 are ignored (R72, D23). -/
def Astat.ofWord (w : Word) : Astat :=
  { az := w.getLsbD 0, an := w.getLsbD 1, cc := w.getLsbD 5, aq := w.getLsbD 6, rndMod := w.getLsbD 8,
    ac0 := w.getLsbD 12, ac1 := w.getLsbD 13, av0 := w.getLsbD 16, av0s := w.getLsbD 17, av1 := w.getLsbD 18,
    av1s := w.getLsbD 19, v := w.getLsbD 24, vs := w.getLsbD 25 }

/-- SEQSTAT as a word (R60). -/
def Seqstat.toWord (q : Seqstat) : Word :=
  BitVec.ofNat 32 (q.excause.toNat + q.sftreset.toNat * 2 ^ 13 + q.hwerrcause.toNat * 2 ^ 14)

/-- SYSCFG as a word (R61). -/
def Syscfg.toWord (g : Syscfg) : Word := BitVec.ofNat 32 (0x30 + g.ccen.toNat * 2 + g.ssstep.toNat)

/-- One executed instruction lasts one cycle and a free number of further ones: the cycle counter, while it is enabled,
goes up by that (R59, R1900, D21). -/
def State.passCycles (s : State) : State :=
  if s.cur.syscfg.ccen then
    let (n, s) := s.drawNat
    let k := if s.cur.cycles.toNat + 1 + n < 2 ^ 64 then 1 + n else 1
    s.setCur { s.cur with cycles := s.cur.cycles + BitVec.ofNat 64 k }
  else s

/-- The 32-bit view of a register that a move to a data register delivers (R550). EMUDAT is no state (R62). -/
def State.readReg (s : State) : AllReg → Word
  | .d n => s.d n
  | .p n => s.p n
  | .i n => s.i n
  | .m n => s.m n
  | .b n => s.b n
  | .l n => s.l n
  | .ax a => (accX (s.acc a)).signExtend 32
  | .aw a => accW (s.acc a)
  | .astat => s.cur.astat.toWord
  | .rets => s.cur.rets
  | .lc n => (s.loopUnit n).lc
  | .lt n => (s.loopUnit n).lt
  | .lb n => (s.loopUnit n).lb
  | .cycles => s.cur.cycles.extractLsb' 0 32
  | .cycles2 => s.cur.cycles.extractLsb' 32 32
  | .usp => s.cur.p.usp
  | .seqstat => s.cur.seqstat.toWord
  | .syscfg => s.cur.syscfg.toWord
  | .reti => s.cur.reti
  | .retx => s.cur.retx
  | .retn => s.cur.retn
  | .rete => s.cur.rete
  | .emudat => 0

/-- A register takes a 32-bit value (R550). SEQSTAT keeps its value (R60; log entry 20); EMUDAT is no state (R62). -/
def State.writeReg (s : State) (r : AllReg) (v : Word) : State :=
  match r with
  | .d n => s.setD n v
  | .p n => s.setP n v
  | .i n => s.setI n v
  | .m n => s.setM n v
  | .b n => s.setB n v
  | .l n => s.setL n v
  | .ax a => s.setAcc a (accOf (v.extractLsb' 0 8) (accW (s.acc a)))
  | .aw a => s.setAcc a (accOf (accX (s.acc a)) v)
  | .astat => s.setAstat (Astat.ofWord v)
  | .rets => s.setCur { s.cur with rets := v }
  | .lc n => s.setLoop n { s.loopUnit n with lc := v }
  | .lt n => s.setLoop n { s.loopUnit n with lt := v }
  | .lb n => s.setLoop n { s.loopUnit n with lb := v }
  | .cycles => s.setCur { s.cur with cycles := s.cur.cycles.extractLsb' 32 32 ++ v }
  | .cycles2 => s.setCur { s.cur with cycles := v ++ s.cur.cycles.extractLsb' 0 32 }
  | .usp => s.setCur { s.cur with p := { s.cur.p with usp := v } }
  | .seqstat => s
  | .syscfg =>
    let late := s.cur.stepLate || (v.getLsbD 0 && !s.cur.syscfg.ssstep)
    s.setCur { s.cur with syscfg := ⟨v.getLsbD 0, v.getLsbD 1⟩, stepLate := late }
  | .reti => s.setCur { s.cur with reti := v }
  | .retx => s.setCur { s.cur with retx := v }
  | .retn => s.setCur { s.cur with retn := v }
  | .rete => s.setCur { s.cur with rete := v }
  | .emudat => s

/-- A register that User mode may not name at all (R63). -/
def supervisorReg : AllReg → Bool
  | .usp | .seqstat | .syscfg | .reti | .retx | .retn | .rete | .emudat => true
  | _ => false

/-- A register that User mode may not write (R63, R59). -/
def supervisorDest (r : AllReg) : Bool :=
  match r with
  | .cycles | .cycles2 => true
  | _ => supervisorReg r

/-- A data or pointer register. -/
def isDPreg : AllReg → Bool
  | .d _ | .p _ => true
  | _ => false

/-- A data, pointer or DAG register or an accumulator part: the group in which any move is legal (R550). -/
def isGeneral : AllReg → Bool
  | .d _ | .p _ | .i _ | .m _ | .b _ | .l _ | .ax _ | .aw _ => true
  | _ => false

/-- A system register of R14: neither a general register nor USP. -/
def isSysreg (r : AllReg) : Bool := !isGeneral r && !decide (r = .usp)

/-- The register pairs a move may name (R550): not two system registers, nor a system register and a DAG register or an
accumulator part. USP is no system register (R14), and a pair that R550 does not exclude is accepted
(91_not_in_source.md N-40-1). A system register moved to itself is a move between two system registers, which R550 does not
allow, although it also calls the same register twice a no-op (DESIGN CHOICE, log entry 90). -/
def moveLegal (d s : AllReg) : Bool :=
  !(isSysreg d && isSysreg s) && !(isSysreg d && isGeneral s && !isDPreg s) && !(isSysreg s && isGeneral d && !isDPreg d)

end Sys2Proof.Machine
end

