-- ==== Sys2Proof/Machine/Ops.lean ====
section
/-!
DEFINITION. The operations every instruction shares: the sequencer's next address with the hardware loops
(44_flow.md R830, R860), taking an exception or an interrupt and returning from one (60_exceptions.md section 4), the
trace buffer and the performance counters (63_debug.md), and how an instruction ends.
-/

namespace Sys2Proof.Machine

/-- The outcome of a step of this machine. -/
abbrev Outcome := Host.Outcome State Fault Refusal

/-! ## Hardware errors and the performance monitor (R1728, R1880 to R1882) -/

/-- A hardware error: HWERRCAUSE and the latch of event 5 (R1728). -/
def Core.hwError (c : Core) (code : BitVec 5) : Core :=
  { c with seqstat := { c.seqstat with hwerrcause := code }, ev := { c.ev with ilat := c.ev.ilat ||| 0x20 } }

/-- A hardware error of the current core (R1728). -/
def State.hwError (s : State) (code : BitVec 5) : State := s.setCur (s.cur.hwError code)

/-- Monitor `n` counts in the current mode (R1880: PFPWR, PFCENn). -/
def Core.perfOn (c : Core) (n : Bool) : Bool :=
  let en : BitVec 2 := if n then c.perf.ctl.extractLsb' 14 2 else c.perf.ctl.extractLsb' 3 2
  c.perf.ctl.getLsbD 0 && (if c.user then en.getLsbD 0 else en.getLsbD 1)

/-- The event selector of monitor `n`: PFMONn (R1880). -/
def Core.perfMon (c : Core) (n : Bool) : Byte :=
  if n then c.perf.ctl.extractLsb' 16 8 else c.perf.ctl.extractLsb' 5 8

/-- Add `k` to counter `n`; a wrap raises the hardware error 0x12, or with PEMUSWn = 1 an emulation event, which is
refused (R1881). -/
def State.perfAdd (s : State) (n : Bool) (k : Nat) : State :=
  let old := if n then s.cur.perf.cntr1 else s.cur.perf.cntr0
  let v := old + BitVec.ofNat 32 k
  let emu := s.cur.perf.ctl.getLsbD (if n then 13 else 2)
  let perf := if n then { s.cur.perf with cntr1 := v } else { s.cur.perf with cntr0 := v }
  let s := s.setCur { s.cur with perf := perf }
  if v.toNat < old.toNat then
    (if emu then { s with issue := { s.issue with emu := true } } else s.hwError 0x12)
  else s

/-- One occurrence of the event `e` of Table 18-8 (R1882). -/
def State.count (s : State) (e : Byte) : State :=
  let s := if s.cur.perfOn false && s.cur.perfMon false == e then s.perfAdd false 1 else s
  if s.cur.perfOn true && s.cur.perfMon true == e then s.perfAdd true 1 else s

/-! ## The trace buffer (R1870 to R1874) -/

/-- Two discontinuities are the same, their compression marks in bit 0 left out (R1872). -/
def TraceEntry.same (x y : TraceEntry) : Bool := (x.src ||| 1) == (y.src ||| 1) && (x.dst ||| 1) == (y.dst ||| 1)

/-- The entries after the discontinuity `e`, and whether it was recorded as a new entry (R1872): CMPLP = 01 marks the
target of a repeated newest entry, CMPLP = 10 also the source of a repeated second newest one. That CMPLP = 10 marks the
target of a repeated newest entry too, and that CMPLP = 11 compresses nothing, are choices (DESIGN CHOICE, log entry 95). -/
def traceAdd (cmplp : BitVec 2) (e : TraceEntry) (es : List TraceEntry) : List TraceEntry × Bool :=
  match es with
  | [] => ([e], true)
  | n :: rest =>
    if (cmplp == 1 || cmplp == 2) && n.same e then ({ n with dst := n.dst ||| 1 } :: rest, false)
    else
      match rest with
      | n2 :: rest2 =>
        if cmplp == 2 && n2.same e then (n :: { n2 with src := n2.src ||| 1 } :: rest2, false)
        else ((e :: es).take 16, true)
      | [] => (e :: es, true)

/-- Record a change of flow from `src` to `dst` (R1871). With TBUFOVF = 1 nothing is recorded in an exception, NMI or
reset routine, which is what IPEND `ip` says, and filling the sixteenth entry asks for the trace exception (R1874). -/
def State.recordFlow (s : State) (ip : HWord) (src dst : Word) : State :=
  let t := s.cur.trace
  if t.pwr && t.en && !(t.ovf && ip &&& 0xE != 0) then
    let (es, new) := traceAdd t.cmplp ⟨src, dst⟩ t.entries
    let s := s.setCur { s.cur with trace := { t with entries := es } }
    if t.ovf && new && 16 ≤ es.length then { s with issue := { s.issue with full := true } } else s
  else s

/-- Event 9 of the performance monitor counts branches while the trace buffer is enabled (R1882): the transfers that are
taken, no others (R1881 fixes no count; DESIGN CHOICE, log entry 106). -/
def State.countBranch (s : State) : State :=
  if s.cur.trace.pwr && s.cur.trace.en then s.count 0x09 else s

/-! ## The next instruction address (R830, R860) -/

/-- The loop unit after one match at its bottom: LC goes down by one. -/
def LoopUnit.down (u : LoopUnit) : LoopUnit := { u with lc := u.lc - 1 }

/-- The hardware-loop rule R860 applied after the instruction at `pc` of length `len`: the state with the loop counters
updated, and the address that follows. -/
def State.loopStep (s : State) (len : Nat) : State × Word :=
  let pc := s.cur.pc
  let u1 := s.cur.loop1
  if pc = u1.lb ∧ 2 ≤ u1.lc.toNat then ((s.setLoop .l1 u1.down).count 0x01, u1.lt)
  else
    let s := if pc = u1.lb ∧ u1.lc = 1 then (s.setLoop .l1 u1.down).count 0x01 else s
    let u0 := s.cur.loop0
    if pc = u0.lb ∧ 2 ≤ u0.lc.toNat then ((s.setLoop .l0 u0.down).count 0x00, u0.lt)
    else
      let s := if pc = u0.lb ∧ u0.lc = 1 then (s.setLoop .l0 u0.down).count 0x00 else s
      (s, pc + BitVec.ofNat 32 len)

/-- The instruction of length `len` has committed: the pc moves on by R860. A part of a bundle leaves that to the
bundle (R506). -/
def State.finish (s : State) (len : Nat) : State :=
  if s.issue.slot = .single then
    let (s, next) := s.loopStep len
    s.setPc next
  else s

/-- An instruction of length `len` that has had all its effects. -/
def done (len : Nat) (s : State) : Outcome := .next (s.finish len)

/-! ## Events in service (R1702, R1741) -/

/-- The index of the least significant 1 bit; 16 if there is none. -/
def lowestBit (x : HWord) : Nat := ((List.range 16).find? fun i => x.getLsbD i).getD 16

/-- The priority level of the core: the number of the event in service, 16 if there is none (R1741). -/
def Core.level (c : Core) : Nat := lowestBit c.evbits

/-- The events that meet the conditions (1), (2) and (4) of R1741. -/
def Core.requests (c : Core) : HWord :=
  c.ev.ilat &&& c.ev.imask &&& (if c.ev.ipend.getLsbD 4 then 0x001F else 0xFFFF)

/-- The event that R1741 lets the core take: the smallest takeable one. -/
def Core.takeable (c : Core) : Option Nat :=
  let n := lowestBit c.requests
  if n < c.level then some n else none

/-- EVTn (R1714). -/
def Core.vector (c : Core) (n : Nat) : Word := c.ev.evt.toList.getD n 0

/-- The return register of event `n` takes the address `ret` (R1740 step 1). -/
def Core.setReturn (c : Core) (n : Nat) (ret : Word) : Core :=
  match n with
  | 0 => { c with rete := ret }
  | 1 => c
  | 2 => { c with retn := ret }
  | 3 => { c with retx := ret }
  | _ => { c with reti := ret }

/-- Bit `n` of a halfword. -/
def bitOf (n : Nat) : HWord := BitVec.ofNat 16 (2 ^ n)

/-- Event entry, R1740 steps 1, 3, 4 and 5: the return address `ret` is saved, ILAT[n] cleared, IPEND[n] set, for an
interrupt IPEND[4] too, and the core goes on at EVTn. -/
def Core.enterEvent (c : Core) (n : Nat) (ret : Word) : Core :=
  let c := c.setReturn n ret
  let dis : HWord := if 5 ≤ n then 0x10 else 0
  { c with
    ev := { c.ev with ilat := c.ev.ilat &&& ~~~ (bitOf n), raised := c.ev.raised &&& ~~~ (bitOf n),
                      ipend := c.ev.ipend ||| bitOf n ||| dis }
    pc := c.vector n, idle := false }

/-- The core goes on elsewhere: it fetches instruction memory as it is now (R349), what it was stalled on is no longer
waited for, and loads that it has made ahead are made again (R344). -/
def Core.refetch (c : Core) : Core := { c with stale := [], waiting := none, progress := [], early := [] }

/-- Event entry with the discontinuity from `src` recorded (R1740, R1871): IPEND[n] is set before the core goes on at
EVTn, so the entry counts as part of the routine. -/
def State.enterEvent (s : State) (n : Nat) (src ret : Word) : State :=
  let s := s.recordFlow (s.cur.ev.ipend ||| bitOf n) src (s.cur.vector n)
  let s := s.setCur (s.cur.enterEvent n ret).refetch
  { s with issue := { s.issue with event := true } }

/-- The core takes the interrupt or NMI `n` before the instruction at its pc (R1740); event 0x0E of the performance
monitor. The source of its trace entry is the address of that instruction (R1871; DESIGN CHOICE, log entry 104). -/
def State.interrupt (s : State) (n : Nat) : State := (s.count 0x0E).enterEvent n s.cur.pc s.cur.pc

/-! ## Taking an exception (R1720 to R1727, R1740) -/

/-- An error exception without a report. -/
def Exc.plain (code : BitVec 6) (prio : Nat) : Exc := ⟨code, prio, .none⟩

/-- 0x21 (R1724 (a)). -/
def Exc.undefinedInstruction : Exc := .plain 0x21 8
/-- 0x22 (R1724 (b)). -/
def Exc.illegalCombination : Exc := .plain 0x22 9
/-- 0x2E (R1724 (c)). -/
def Exc.illegalSupervisorUse : Exc := .plain 0x2E 10
/-- 0x28 (R1858). -/
def Exc.watchpoint : Exc := .plain 0x28 7
/-- 0x2A for an indirect transfer (R1724 (h)). -/
def Exc.fetchMisaligned : Exc := .plain 0x2A 3
/-- The code of EXCPT m (R1005). -/
def Exc.excpt (m : BitVec 4) : Exc := .plain (m.zeroExtend 6) 19
/-- 0x10 (R1725). -/
def Exc.singleStep : Exc := .plain 0x10 20
/-- 0x11 (R1726). -/
def Exc.traceFull : Exc := .plain 0x11 21

/-- The fault-address and status registers take what the exception reports (R1740 step 2, R440 to R442). -/
def Core.report (c : Core) : Report → Core
  | .none => c
  | .data a st => { c with dmem := { c.dmem with faultAddr := a, status := st } }
  | .fetch a st => { c with imem := { c.imem with faultAddr := a, status := st } }

/-- Exceptions are not taken: an exception, an NMI or the reset event is in service (R1727). -/
def Core.inException (c : Core) : Bool := c.ev.ipend &&& 0xF != 0

/-- The reset of this core's double fault is enabled (R1923, R1927). -/
def SysCtl.dfEnabled (c : SysCtl) : CoreId → Bool
  | .a => c.dfA
  | .b => c.dfB

/-- The status bit of SICA_SWRST for this core's double fault, in bits 15:11 (R1923). -/
def CoreId.dfBit : CoreId → BitVec 5
  | .a => 0x02
  | .b => 0x01

/-- Double fault (R1727): EXCAUSE becomes 0x25, RETX the address of the instruction, nothing else; then the reset of
R1927 if it is enabled, else the core stands still until a reset (D44). -/
def State.doubleFault (s : State) : State :=
  if s.sys.ctl.dfEnabled s.cur.id then s.softReset s.cur.id.dfBit
  else
    let c := s.cur
    { s.setCur { c with seqstat := { c.seqstat with excause := 0x25 }, retx := c.pc, dead := true } with
      issue := { s.issue with event := true } }

/-- Taking the exception `e` with return address `ret` (R1740): a double fault where one is in service, else EXCAUSE and
the fault registers are written and event 3 is entered. `s` is the state in which the exception is found. A misaligned
address, of data or of a fetch, is event 0x0F of the performance monitor (R1882). -/
def State.takeException (s : State) (e : Exc) (ret : Word) : State :=
  if s.cur.inException then s.doubleFault
  else
    let s := if e.code = 0x24 ∨ e.code = 0x2A then s.count 0x0F else s
    let c := s.cur.report e.report
    let s := s.setCur { c with seqstat := { c.seqstat with excause := e.code } }
    s.enterEvent 3 s.cur.pc ret

/-- Of two exceptions of one instruction the one to take (R1722). -/
def Exc.higher (e : Exc) : Option Exc → Exc
  | none => e
  | some f => if f.prio ≤ e.prio then f else e

/-- An error exception of the instruction that `s` is about to execute: nothing of it is committed, RETX is its own
address (R1720). A part of a bundle leaves the entry to the bundle. -/
def raise (e : Exc) (s : State) : Outcome :=
  if s.issue.slot = .single then .next (s.takeException e s.cur.pc)
  else .next { s with issue := { s.issue with raised := some (e.higher s.issue.raised) } }

/-- A service exception of an instruction of length `len` whose effects are those of `s`: it commits, RETX is the
address that follows; with an exception in service nothing of it is written (R1720, R1727). -/
def raiseService (e : Exc) (len : Nat) (s : State) : Outcome :=
  if s.cur.inException then .next s.doubleFault
  else
    let src := s.cur.pc
    let s' := (s.count 0x0D).finish len
    let s' := s'.setCur { s'.cur with seqstat := { s'.cur.seqstat with excause := e.code } }
    .next (s'.enterEvent 3 src s'.cur.pc)

/-- The instruction must wait for the bus (R1626): the step takes back what it has done and tries it again. -/
def waitBus (s : State) : Outcome := .next { s with issue := { s.issue with stalled := true } }

/-- A Supervisor instruction: in User mode it raises 0x2E and does not execute (R1703). -/
def supervisor (s : State) (k : Outcome) : Outcome :=
  if s.user then raise .illegalSupervisorUse s else k

/-- An operand combination that the words allow and the instruction does not: 0x22 (R1724 (b)). -/
def legal (ok : Bool) (s : State) (k : Outcome) : Outcome :=
  if ok then k else raise .illegalCombination s

/-! ## Control transfers and returns (R836, R842) -/

/-- The transfer to `t` recorded in the trace buffer and counted. -/
def State.flow (s : State) (t : Word) : State := s.countBranch.recordFlow s.cur.ev.ipend s.cur.pc t

/-- The core goes on at `t`: an odd target is a misaligned fetch there, with RETX = the target (R836). -/
def goTo (t : Word) (s : State) : Outcome :=
  let s := s.setPc t
  if t.getLsbD 0 then .next ((s.count 0x0D).takeException .fetchMisaligned t) else .next s

/-- A taken transfer to `t` (R836). -/
def transfer (t : Word) (s : State) : Outcome := goTo t (s.flow t)

/-- IPEND with the bit of the event in service cleared (R842): the lowest set bit, bit 4 left out. -/
def Core.leaveEvent (c : Core) : HWord :=
  c.ev.ipend &&& ~~~ (bitOf c.level)

/-- The return from an event to the address `t` (R842): the event's IPEND bit is cleared; `enable`: IPEND[4] too
(R843). The return itself belongs to the routine (R1870), and instruction memory is fetched as it is now (R349). -/
def returnTo (t : Word) (enable : Bool) (s : State) : Outcome :=
  let s := s.flow t
  let ip := s.cur.leaveEvent
  let ip := if enable then ip &&& 0xFFEF else ip
  goTo t (s.setCur { s.cur.refetch with ev := { s.cur.ev with ipend := ip } })

end Sys2Proof.Machine
end

