-- ==== Sys2Proof/Machine/Flags.lean ====
section
/-!
DEFINITION. Arithmetic with its flags: saturation (00_scope.md R11), the sums of 41_alu.md R600 and R601, the shifts of
43_shifter_video.md R760 to R762, the multiplier of 42_mac.md R704 to R714, and the writes of the flags of ASTAT
(10_state.md R70 to R72).
-/

namespace Sys2Proof.Machine

/-! ## Saturation (R11) -/

/-- The integer of `lo` to `hi` nearest to `x`. -/
def clamp (lo hi x : Int) : Int := if x < lo then lo else if hi < x then hi else x

/-- `x` as a signed number of `w` bits, saturated. -/
def clampS (w : Nat) (x : Int) : Int := clamp (-(2 ^ (w - 1))) (2 ^ (w - 1) - 1) x

/-- `x` as an unsigned number of `w` bits, saturated. -/
def clampU (w : Nat) (x : Int) : Int := clamp 0 (2 ^ w - 1) x

/-- `x` does not fit `w` signed bits. -/
def overS (w : Nat) (x : Int) : Bool := decide (clampS w x ≠ x)

/-- `x` does not fit `w` unsigned bits. -/
def overU (w : Nat) (x : Int) : Bool := decide (clampU w x ≠ x)

/-- `sat_sw(x)`. -/
def satS (w : Nat) (x : Int) : BitVec w := BitVec.ofInt w (clampS w x)

/-- `sat_uw(x)`. -/
def satU (w : Nat) (x : Int) : BitVec w := BitVec.ofInt w (clampU w x)

/-! ## Results with their flags (R600, R601) -/

/-- A result of `w` bits with the carry and the overflow of its operation. -/
structure Result (w : Nat) where
  val : BitVec w
  carry : Bool
  ovf : Bool
  deriving DecidableEq, Repr

/-- The exact value `x` written as `w` signed bits, truncated or saturated (R600). -/
def Result.of (w : Nat) (sat : Bool) (x : Int) (carry : Bool) : Result w :=
  ⟨if sat then satS w x else BitVec.ofInt w x, carry, overS w x⟩

/-- The carry of `a + b` (R601). -/
def carryAdd {w : Nat} (a b : BitVec w) : Bool := decide (2 ^ w ≤ a.toNat + b.toNat)

/-- The carry of `a - b`: no borrow (R601). -/
def carrySub {w : Nat} (a b : BitVec w) : Bool := decide (b.toNat ≤ a.toNat)

/-- `a + b` at width `w` (R600, R601). -/
def addR {w : Nat} (sat : Bool) (a b : BitVec w) : Result w := .of w sat (a.toInt + b.toInt) (carryAdd a b)

/-- `a - b` at width `w` (R600, R601). -/
def subR {w : Nat} (sat : Bool) (a b : BitVec w) : Result w := .of w sat (a.toInt - b.toInt) (carrySub a b)

/-- `-a` at width `w`; its carry is that of `0 - a` (R611). -/
def negR {w : Nat} (sat : Bool) (a : BitVec w) : Result w := .of w sat (-a.toInt) (decide (a = 0))

/-- `|a|` at width `w`, saturated (R627, R637). -/
def absR {w : Nat} (a : BitVec w) : Result w := .of w true a.toInt.natAbs false

/-- The greater of two signed numbers (R633). -/
def maxS {w : Nat} (a b : BitVec w) : BitVec w := if b.toInt ≤ a.toInt then a else b

/-- The smaller of two signed numbers (R635). -/
def minS {w : Nat} (a b : BitVec w) : BitVec w := if a.toInt ≤ b.toInt then a else b

/-! ## Shifts (R760 to R762) -/

/-- The arithmetic shift of `a` by the signed count `n`: left where it is not negative, with the overflow of R762;
else right, the sign filled in. -/
def shiftA {w : Nat} (sat : Bool) (a : BitVec w) (n : Int) : Result w :=
  if 0 ≤ n then .of w sat (a.toInt * 2 ^ n.toNat) false else ⟨a.sshiftRight (-n).toNat, false, false⟩

/-- The logical shift of `a` by the signed count `n`. -/
def shiftL {w : Nat} (a : BitVec w) (n : Int) : BitVec w := if 0 ≤ n then a <<< n.toNat else a >>> (-n).toNat

/-- Rotation of the ring `CC ++ a` by the signed count `n`, left where it is positive: the value and the new CC
(R794, R795). -/
def rotateCc {w : Nat} (cc : Bool) (a : BitVec w) (n : Int) : BitVec w × Bool :=
  let ring := BitVec.cons cc a
  let r := if 0 ≤ n then ring.rotateLeft n.toNat else ring.rotateRight (-n).toNat
  (r.extractLsb' 0 w, r.msb)

/-- The shift count of a register: the signed number in the low six bits of its low half (R761). -/
def shiftCount (w : Word) : Int := (w.extractLsb' 0 6).toInt

/-- The number of leading bits of `a` equal to its sign bit (R644). -/
def signRun {w : Nat} (a : BitVec w) : Nat :=
  ((List.range w).takeWhile fun k => a.getLsbD (w - 1 - k) == a.msb).length

/-- The number of 1 bits (R771). -/
def onesCount (a : Word) : Nat := ((List.range 32).filter fun k => a.getLsbD k).length

/-- The bits of a word in reverse order (R933). -/
def rev32 (a : Word) : Word := BitVec.ofNat 32 ((List.range 32).foldl (fun r k => 2 * r + (a.getLsbD k).toNat) 0)

/-! ## The multiplier (R704 to R713) -/

/-- The options that read unsigned operands (R704). -/
def optUnsigned : MMod → Bool
  | .fu | .tfu | .iu => true
  | _ => false

/-- The options whose product is shifted left by one place (R704). -/
def optShifts : MMod → Bool
  | .fr | .t | .s2rnd | .w32 => true
  | _ => false

/-- The extraction family under option (M): the signed variant (R704). -/
def optSigned : MMod → MMod
  | .fu => .fr
  | .tfu => .t
  | .iu => .is
  | m => m

/-- The option that an extraction follows: `mm` is option (M) (R704). -/
def optExtract (m : MMod) (mm : Bool) : MMod := if mm then optSigned m else m

/-- The product of two halves (R705). -/
def product (m : MMod) (mm : Bool) (a b : HWord) : Int :=
  if mm then a.toInt * (b.toNat : Int)
  else if optUnsigned m then (a.toNat : Int) * (b.toNat : Int)
  else if m = MMod.w32 ∧ a = 0x8000 ∧ b = 0x8000 then 0x7FFFFFFF
  else if optShifts m then 2 * (a.toInt * b.toInt)
  else a.toInt * b.toInt

/-- The integer that an accumulator holds under an option (R706). -/
def accInt (m : MMod) (mm : Bool) (x : Acc) : Int := if optUnsigned m && !mm then (x.toNat : Int) else x.toInt

/-- The saturation of an accumulator under an option (R704, R706). -/
def accClamp (m : MMod) (mm : Bool) (x : Int) : Int :=
  if mm then clampS 40 x
  else if optUnsigned m then clampU 40 x
  else if m = MMod.w32 ∨ m = MMod.ih then clampS 32 x
  else clampS 40 x

/-- `rnd(x)` (R710, R73): rounding at bit 16, half to even unless `biased`. -/
def rnd (biased : Bool) (x : Int) : Int :=
  let y := x + 0x8000
  if !biased && decide (x % 0x10000 = 0x8000) && decide (y / 0x10000 % 2 = 1) then y - 0x10000 else y

/-- `extract16(x, o)` (R712): the half and its overflow. -/
def extract16 (biased : Bool) (o : MMod) (x : Int) : HWord × Bool :=
  let s (y : Int) : HWord × Bool := (satS 16 y, overS 16 y)
  let u (y : Int) : HWord × Bool := (satU 16 y, overU 16 y)
  match o with
  | .fr | .w32 => s (rnd biased x / 0x10000)
  | .fu => u (rnd biased x / 0x10000)
  | .t => s (x / 0x10000)
  | .tfu => u (x / 0x10000)
  | .s2rnd => s (rnd biased (2 * x) / 0x10000)
  | .is => s x
  | .iu => u x
  | .iss2 => s (2 * x)
  | .ih => (BitVec.ofInt 16 (clampS 32 (x + 0x8000) / 0x10000), overS 32 (x + 0x8000))

/-- `extract32(x, o)` (R713): the word and its overflow; none for the options that R713 leaves without a value. -/
def extract32 (o : MMod) (x : Int) : Option (Word × Bool) :=
  match o with
  | .fr | .is => some (satS 32 x, overS 32 x)
  | .fu | .iu => some (satU 32 x, overU 32 x)
  | .s2rnd | .iss2 => some (satS 32 (2 * x), overS 32 (2 * x))
  | .t | .tfu | .ih | .w32 => none

/-! ## Writing the flags (R70 to R72) -/

/-- AZ and AN. -/
def Astat.zn (f : Astat) (z n : Bool) : Astat := { f with az := z, an := n }

/-- `V <- o`, VS sticky (R72). -/
def Astat.setV (f : Astat) (o : Bool) : Astat := { f with v := o, vs := f.vs || o }

/-- `V <- 0`, VS unchanged (R72). -/
def Astat.clearV (f : Astat) : Astat := { f with v := false }

/-- `AVn <- o` of one accumulator, AVnS sticky (R72). -/
def Astat.setAv (f : Astat) (a : AccN) (o : Bool) : Astat :=
  match a with
  | .a0 => { f with av0 := o, av0s := f.av0s || o }
  | .a1 => { f with av1 := o, av1s := f.av1s || o }

/-- AC0 and AC1 cleared (the group `**` of the flag tables). -/
def Astat.clearAc (f : Astat) : Astat := { f with ac0 := false, ac1 := false }

/-- The state with its flags changed. -/
def State.flags (s : State) (f : Astat → Astat) : State := s.setAstat (f s.cur.astat)

/-- The row with AC and V cleared of the flag tables for a result `r`: AZ, AN from it, AC0, AC1, V cleared (R649, R763). -/
def State.logicFlags (s : State) (r : Word) : State := s.flags fun f => ((f.zn (r == 0) r.msb).clearAc).clearV

/-- The row `* * * - - *` for one operation on ALU0 (R601). -/
def State.sumFlags {w : Nat} (s : State) (r : Result w) : State :=
  s.flags fun f => { (f.zn (r.val == 0) r.val.msb).setV r.ovf with ac0 := r.carry }

/-- The row `* * * - - *` for two operations at once, the first of them on ALU0 (R601, R609, R615, D22). -/
def State.sumFlags2 {w : Nat} (s : State) (r0 r1 : Result w) : State :=
  s.flags fun f =>
    { (f.zn (r0.val == 0 || r1.val == 0) (r0.val.msb || r1.val.msb)).setV (r0.ovf || r1.ovf) with
      ac0 := r0.carry, ac1 := r1.carry }

/-- AZ, AN from several results, V from their overflows, the OR over all of them (D22). -/
def State.znvFlags {w : Nat} (s : State) (rs : List (BitVec w × Bool)) : State :=
  s.flags fun f => (f.zn (rs.any fun r => r.1 == 0) (rs.any fun r => r.1.msb)).setV (rs.any fun r => r.2)

/-- AZ, AN from several results, V cleared (R762). -/
def State.znFlags {w : Nat} (s : State) (rs : List (BitVec w)) : State :=
  s.flags fun f => (f.zn (rs.any fun r => r == 0) (rs.any fun r => r.msb)).clearV

/-- AZ, AN from a result in an accumulator, and its overflow flag (R621 to R630, R798). -/
def State.accFlags (s : State) (a : AccN) (r : Result 40) : State :=
  s.flags fun f => (f.zn (r.val == 0) r.val.msb).setAv a r.ovf

end Sys2Proof.Machine
end

