-- ==== Sys2Proof/Machine/RegMove.lean ====
section
/-!
DEFINITION. Register moves, loads of constants and moves to and from CC (40_regmove.md).
-/

namespace Sys2Proof.Machine

/-! ## Taking a value out of an accumulator into a data register (R712 to R714) -/

/-- A data-register half takes `extract16(x, o)`: the state, the half, the overflow (R712). -/
def State.putHalf (s : State) (o : MMod) (x : Int) (d : DReg) (h : Half) : State × HWord × Bool :=
  let (v, ovf) := extract16 s.cur.astat.rndMod o x
  (s.setDh d h v, v, ovf)

/-- A data register takes `extract32(x, o)`: the state, the word, the overflow (R713). For the options that R713
leaves without a value the word and the overflow are free (log entry 21). -/
def State.putWord (s : State) (o : MMod) (x : Int) (d : DReg) : State × Word × Bool :=
  match extract32 o x with
  | some (v, ovf) => (s.setD d v, v, ovf)
  | none =>
    let (v, s) := s.drawWord
    let (ovf, s) := s.drawBit
    (s.setD d v, v, ovf)

/-- The integer in an accumulator as the option `m` reads it (R706). -/
def State.accValue (s : State) (m : MMod) (mm : Bool) (a : AccN) : Int := accInt m mm (s.acc a)

/-! ## Moves -/

/-- `allreg = allreg` (R550). -/
def execMoveReg (d r : AllReg) (s : State) : Outcome :=
  legal (moveLegal d r) s <|
    if s.user && (supervisorDest d || supervisorReg r) then raise .illegalSupervisorUse s
    else if d = .emudat ∨ r = .emudat then .refused .emulatorRegister
    else done 2 (s.writeReg d (s.readReg r))

/-- The other accumulator. -/
def otherAcc : AccN → AccN
  | .a0 => .a1
  | .a1 => .a0

/-- `A0 = A1`, `A1 = A0` (R551). -/
def execMoveAccAcc (d : AccN) (s : State) : Outcome := done 4 (s.setAcc d (s.acc (otherAcc d)))

/-- `An = Dreg` (R552). -/
def execMoveAccDreg (a : AccN) (r : DReg) (s : State) : Outcome := done 4 (s.setAcc a ((s.d r).signExtend 40))

/-- `Dreg_even = A0` (R553). -/
def execMoveDregEvenA0 (m : MMod) (d : DReg) (s : State) : Outcome :=
  legal d.even s <|
    let (s, v, o) := s.putWord m (s.accValue m false .a0) d
    done 4 (s.znvFlags [(v, o)])

/-- `Dreg_odd = A1` (R554): the word names the even register of the pair. -/
def execMoveDregOddA1 (m : MMod) (mm : Bool) (d : DReg) (s : State) : Outcome :=
  legal d.even s <|
    let (s, v, o) := s.putWord (optExtract m mm) (s.accValue m mm .a1) (DReg.pairHi d)
    done 4 (s.znvFlags [(v, o)])

/-- `Dreg_odd = A1, Dreg_even = A0` (R555). -/
def execMoveDregPairAcc (m : MMod) (mm : Bool) (d : DReg) (s : State) : Outcome :=
  legal d.even s <|
    let (s, v0, o0) := s.putWord m (s.accValue m false .a0) d
    let (s, v1, o1) := s.putWord (optExtract m mm) (s.accValue m mm .a1) (DReg.pairHi d)
    done 4 (s.znvFlags [(v0, o0), (v1, o1)])

/-- `IF CC DPreg = DPreg` (R556). -/
def execIfCcMove (d r : DPReg) (s : State) : Outcome := done 2 (if s.cc then s.setDp d (s.dp r) else s)

/-- `IF !CC DPreg = DPreg` (R557). -/
def execIfNccMove (d r : DPReg) (s : State) : Outcome := done 2 (if s.cc then s else s.setDp d (s.dp r))

/-- A data register takes a result with the row of `logicFlags`. -/
def State.logicResult (s : State) (d : DReg) (v : Word) : State := (s.setD d v).logicFlags v

/-- `Dreg = Dreg_lo (Z)` (R558). -/
def execMoveHalfZ (d r : DReg) (s : State) : Outcome := done 2 (s.logicResult d ((s.dh r .lo).zeroExtend 32))

/-- `Dreg = Dreg_lo (X)` (R559). -/
def execMoveHalfX (d r : DReg) (s : State) : Outcome := done 2 (s.logicResult d ((s.dh r .lo).signExtend 32))

/-- `An.X = Dreg_lo` (R560). -/
def execMoveAccXDregLo (a : AccN) (r : DReg) (s : State) : Outcome :=
  done 4 (s.setAcc a (accOf ((s.d r).extractLsb' 0 8) (accW (s.acc a))))

/-- `Dreg_lo = An.X` (R561). -/
def execMoveDregLoAccX (d : DReg) (a : AccN) (s : State) : Outcome :=
  done 4 (s.setDh d .lo ((accX (s.acc a)).signExtend 16))

/-- `An.L = Dreg_lo` (R562). -/
def execMoveAccLDregLo (a : AccN) (r : DReg) (s : State) : Outcome :=
  done 4 (s.setAcc a (accOf (accX (s.acc a)) (withHalf .lo (accW (s.acc a)) (s.dh r .lo))))

/-- `An.H = Dreg_hi` (R563). -/
def execMoveAccHDregHi (a : AccN) (r : DReg) (s : State) : Outcome :=
  done 4 (s.setAcc a (accOf (accX (s.acc a)) (withHalf .hi (accW (s.acc a)) (s.dh r .hi))))

/-- `Dreg_lo = A0` (R564). -/
def execMoveDregLoA0 (m : MMod) (d : DReg) (s : State) : Outcome :=
  let (s, v, o) := s.putHalf m (s.accValue m false .a0) d .lo
  done 4 (s.znvFlags [(v, o)])

/-- `Dreg_hi = A1` (R565). -/
def execMoveDregHiA1 (m : MMod) (mm : Bool) (d : DReg) (s : State) : Outcome :=
  let (s, v, o) := s.putHalf (optExtract m mm) (s.accValue m mm .a1) d .hi
  done 4 (s.znvFlags [(v, o)])

/-- `Dreg_hi = A1, Dreg_lo = A0` (R566). -/
def execMoveDregHalvesAcc (m : MMod) (mm : Bool) (d : DReg) (s : State) : Outcome :=
  let (s, v0, o0) := s.putHalf m (s.accValue m false .a0) d .lo
  let (s, v1, o1) := s.putHalf (optExtract m mm) (s.accValue m mm .a1) d .hi
  done 4 (s.znvFlags [(v0, o0), (v1, o1)])

/-- `Dreg = Dreg_byte (Z)` (R567). -/
def execMoveByteZ (d r : DReg) (s : State) : Outcome :=
  done 2 (s.logicResult d (((s.d r).extractLsb' 0 8).zeroExtend 32))

/-- `Dreg = Dreg_byte (X)` (R568). -/
def execMoveByteX (d r : DReg) (s : State) : Outcome :=
  done 2 (s.logicResult d (((s.d r).extractLsb' 0 8).signExtend 32))

/-! ## Load immediate -/

/-- `Dreg = imm7 (X)` (R570). -/
def execLoadImm7D (d : DReg) (n : BitVec 7) (s : State) : Outcome := done 2 (s.setD d (n.signExtend 32))

/-- `Preg = imm7 (X)` (R570). -/
def execLoadImm7P (d : PReg) (n : BitVec 7) (s : State) : Outcome := done 2 (s.setP d (n.signExtend 32))

/-- The register that a load of a constant names. -/
def immTarget : ImmReg → AllReg
  | .d n => .d n
  | .p n => .p n
  | .i n => .i n
  | .m n => .m n
  | .b n => .b n
  | .l n => .l n

/-- `reg = imm16 (X)` (R571). -/
def execLoadImm16X (r : ImmReg) (n : BitVec 16) (s : State) : Outcome :=
  done 4 (s.writeReg (immTarget r) (n.signExtend 32))

/-- `reg = uimm16 (Z)` (R572). -/
def execLoadImm16Z (r : ImmReg) (n : BitVec 16) (s : State) : Outcome :=
  done 4 (s.writeReg (immTarget r) (n.zeroExtend 32))

/-- `reg_lo = uimm16` (R573). -/
def execLoadImm16Lo (r : ImmReg) (n : BitVec 16) (s : State) : Outcome :=
  done 4 (s.writeReg (immTarget r) (withHalf .lo (s.readReg (immTarget r)) n))

/-- `reg_hi = uimm16` (R574). -/
def execLoadImm16Hi (r : ImmReg) (n : BitVec 16) (s : State) : Outcome :=
  done 4 (s.writeReg (immTarget r) (withHalf .hi (s.readReg (immTarget r)) n))

/-- `A0 = 0` (R575). -/
def execClearA0 (s : State) : Outcome := done 4 (s.setAcc .a0 0)

/-- `A1 = 0` (R575). -/
def execClearA1 (s : State) : Outcome := done 4 (s.setAcc .a1 0)

/-- `A1 = A0 = 0` (R575). -/
def execClearA1A0 (s : State) : Outcome := done 4 ((s.setAcc .a0 0).setAcc .a1 0)

/-! ## Moves to and from CC -/

/-- `CC = Dreg` (R580). -/
def execCcFromDreg (r : DReg) (s : State) : Outcome := done 2 (s.setCc (s.d r != 0))

/-- `Dreg = CC` (R581). -/
def execDregFromCc (d : DReg) (s : State) : Outcome :=
  done 2 ((s.setD d (if s.cc then 1 else 0)).flags fun f => ({ f with ac0 := false }).clearV)

/-- The value of a flag. -/
def Astat.getFlag (f : Astat) : Flag → Bool
  | .az => f.az
  | .an => f.an
  | .aq => f.aq
  | .ac0 => f.ac0
  | .ac1 => f.ac1
  | .av0 => f.av0
  | .av0s => f.av0s
  | .av1 => f.av1
  | .av1s => f.av1s
  | .v => f.v
  | .vs => f.vs

/-- The flags with one of them replaced; sticky flags only where they are named (R583). -/
def Astat.putFlag (f : Astat) (b : Flag) (x : Bool) : Astat :=
  match b with
  | .az => { f with az := x }
  | .an => { f with an := x }
  | .aq => { f with aq := x }
  | .ac0 => { f with ac0 := x }
  | .ac1 => { f with ac1 := x }
  | .av0 => { f with av0 := x }
  | .av0s => { f with av0s := x }
  | .av1 => { f with av1 := x }
  | .av1s => { f with av1s := x }
  | .v => { f with v := x }
  | .vs => { f with vs := x }

/-- `CC <- op(CC, flag)` (R582). -/
def State.ccOp (s : State) (op : Bool → Bool → Bool) (b : Flag) : State :=
  s.setCc (op s.cc (s.cur.astat.getFlag b))

/-- `flag <- op(flag, CC)` (R583). -/
def State.flagOp (s : State) (op : Bool → Bool → Bool) (b : Flag) : State :=
  s.flags fun f => f.putFlag b (op (f.getFlag b) f.cc)

/-- `CC = flag` (R582). -/
def execCcFlagSet (b : Flag) (s : State) : Outcome := done 2 (s.ccOp (fun _ y => y) b)

/-- `CC |= flag` (R582). -/
def execCcFlagOr (b : Flag) (s : State) : Outcome := done 2 (s.ccOp (· || ·) b)

/-- `CC &= flag` (R582). -/
def execCcFlagAnd (b : Flag) (s : State) : Outcome := done 2 (s.ccOp (· && ·) b)

/-- `CC ^= flag` (R582). -/
def execCcFlagXor (b : Flag) (s : State) : Outcome := done 2 (s.ccOp (· ^^ ·) b)

/-- `flag = CC` (R583). -/
def execFlagCcSet (b : Flag) (s : State) : Outcome := done 2 (s.flagOp (fun _ y => y) b)

/-- `flag |= CC` (R583). -/
def execFlagCcOr (b : Flag) (s : State) : Outcome := done 2 (s.flagOp (· || ·) b)

/-- `flag &= CC` (R583). -/
def execFlagCcAnd (b : Flag) (s : State) : Outcome := done 2 (s.flagOp (· && ·) b)

/-- `flag ^= CC` (R583). -/
def execFlagCcXor (b : Flag) (s : State) : Outcome := done 2 (s.flagOp (· ^^ ·) b)

/-- `CC = !CC` (R584). -/
def execCcNot (s : State) : Outcome := done 2 (s.setCc (!s.cc))

end Sys2Proof.Machine
end

