-- ==== Sys2Proof/Machine/Alu.lean ====
section
/-!
DEFINITION. ALU instructions: pointer arithmetic, sums, packed sums, accumulator arithmetic, the divide primitives,
rounding, exponents, logic and compares (41_alu.md).
-/

namespace Sys2Proof.Machine

/-! ## Pointer arithmetic (no flags) -/

/-- `Preg = Preg + Preg` (R603). -/
def execAddPreg (d a b : PReg) (s : State) : Outcome := done 2 (s.setP d (s.p a + s.p b))

/-- `Preg += Preg` (R604). -/
def execAddPregTo (d r : PReg) (s : State) : Outcome := done 2 (s.setP d (s.p d + s.p r))

/-- `Preg -= Preg` (R605). -/
def execSubPregFrom (d r : PReg) (s : State) : Outcome := done 2 (s.setP d (s.p d - s.p r))

/-- `Preg += imm7` (R606). -/
def execAddPregImm7 (d : PReg) (n : BitVec 7) (s : State) : Outcome := done 2 (s.setP d (s.p d + n.signExtend 32))

/-! ## 32-bit data arithmetic -/

/-- A data register takes the result of one operation on ALU0, with the flags of R601. -/
def State.sumResult (s : State) (d : DReg) (r : Result 32) : State := (s.setD d r.val).sumFlags r

/-- `Dreg = Dreg + Dreg` (R607). -/
def execAddDreg (d a b : DReg) (s : State) : Outcome := done 2 (s.sumResult d (addR false (s.d a) (s.d b)))

/-- `Dreg = Dreg + Dreg (NS|S)` (R607). -/
def execAddDregOpt (sat : Bool) (d a b : DReg) (s : State) : Outcome :=
  done 4 (s.sumResult d (addR sat (s.d a) (s.d b)))

/-- `Dreg = Dreg - Dreg` (R608). -/
def execSubDreg (d a b : DReg) (s : State) : Outcome := done 2 (s.sumResult d (subR false (s.d a) (s.d b)))

/-- `Dreg = Dreg - Dreg (NS|S)` (R608). -/
def execSubDregOpt (sat : Bool) (d a b : DReg) (s : State) : Outcome :=
  done 4 (s.sumResult d (subR sat (s.d a) (s.d b)))

/-- `Dreg = Dreg + Dreg, Dreg = Dreg - Dreg` (R609). -/
def execAddSubDreg (sat : Bool) (dSum dDiff a b : DReg) (s : State) : Outcome :=
  legal (decide (dSum ≠ dDiff)) s <|
    let r0 := addR sat (s.d a) (s.d b)
    let r1 := subR sat (s.d a) (s.d b)
    done 4 (((s.setD dSum r0.val).setD dDiff r1.val).sumFlags2 r0 r1)

/-- `Dreg += imm7` (R610). -/
def execAddDregImm7 (d : DReg) (n : BitVec 7) (s : State) : Outcome :=
  done 2 (s.sumResult d (addR false (s.d d) (n.signExtend 32)))

/-- `Dreg = -Dreg` (R611). -/
def execNegDreg (d r : DReg) (s : State) : Outcome := done 2 (s.sumResult d (negR false (s.d r)))

/-- `Dreg = -Dreg (NS|S)` (R611). -/
def execNegDregOpt (sat : Bool) (d r : DReg) (s : State) : Outcome := done 4 (s.sumResult d (negR sat (s.d r)))

/-- `Dreg = A0 + A1, Dreg = A0 - A1` (R612); without `sumIsA0First` the difference is `A1 - A0`. R612 leaves open at which
width AC0 and AC1 are taken and what one register for both results does: here they are the carries of the 40-bit sum and
difference, and one register raises 0x22, as in R609 and R619 (DESIGN CHOICE, log entry 73). -/
def execAccSumDiff (sumIsA0First sat : Bool) (dSum dDiff : DReg) (s : State) : Outcome :=
  legal (decide (dSum ≠ dDiff)) s <|
    let x := s.cur.a0
    let y := s.cur.a1
    let (a, b) := if sumIsA0First then (x, y) else (y, x)
    let r0 := Result.of 32 sat (x.toInt + y.toInt) (carryAdd x y)
    let r1 := Result.of 32 sat (a.toInt - b.toInt) (carrySub a b)
    done 4 (((s.setD dSum r0.val).setD dDiff r1.val).sumFlags2 r0 r1)

/-! ## 16-bit and packed 16-bit arithmetic -/

/-- `Dreg_lo_hi = Dreg_lo_hi + Dreg_lo_hi` (R613). -/
def execAddHalf (sat : Bool) (dh : Half) (d : DReg) (ah bh : Half) (a b : DReg) (s : State) : Outcome :=
  let r := addR sat (s.dh a ah) (s.dh b bh)
  done 4 ((s.setDh d dh r.val).sumFlags r)

/-- `Dreg_lo_hi = Dreg_lo_hi - Dreg_lo_hi` (R614). -/
def execSubHalf (sat : Bool) (dh : Half) (d : DReg) (ah bh : Half) (a b : DReg) (s : State) : Outcome :=
  let r := subR sat (s.dh a ah) (s.dh b bh)
  done 4 ((s.setDh d dh r.val).sumFlags r)

/-- Two lane results in a data register, crossed or not (R615). -/
def packLanes (cross : Bool) (h l : HWord) : Word := if cross then word l h else word h l

/-- A dual 16-bit operation, `opH` on the high lanes and `opL` on the low ones (R615 to R618). -/
def State.vecResult (s : State) (opH opL : Bool → HWord → HWord → Result 16) (sat cross : Bool) (d a b : DReg) :
    State :=
  let h := opH sat (s.dh a .hi) (s.dh b .hi)
  let l := opL sat (s.dh a .lo) (s.dh b .lo)
  (s.setD d (packLanes cross h.val l.val)).sumFlags2 l h

/-- `Dreg = Dreg +|+ Dreg` (R615). -/
def execVecAddAdd (sat cross : Bool) (d a b : DReg) (s : State) : Outcome :=
  done 4 (s.vecResult addR addR sat cross d a b)

/-- `Dreg = Dreg +|- Dreg` (R616). -/
def execVecAddSub (sat cross : Bool) (d a b : DReg) (s : State) : Outcome :=
  done 4 (s.vecResult addR subR sat cross d a b)

/-- `Dreg = Dreg -|+ Dreg` (R617). -/
def execVecSubAdd (sat cross : Bool) (d a b : DReg) (s : State) : Outcome :=
  done 4 (s.vecResult subR addR sat cross d a b)

/-- `Dreg = Dreg -|- Dreg` (R618). -/
def execVecSubSub (sat cross : Bool) (d a b : DReg) (s : State) : Outcome :=
  done 4 (s.vecResult subR subR sat cross d a b)

/-- The exact lane result `x` scaled (R619). -/
def quadScale (c : QuadScale) (x : Int) : Int :=
  match c with
  | .none => x
  | .asr => x / 2
  | .asl => 2 * x

/-- The quad operations (R619, R620): in each of the two results the high lane adds or subtracts by `h0`, `h1` and the
low lane by `l0`, `l1` (true: subtract). The cross option applies to the first (D25); AC0, AC1 are unchanged. With (ASR) or
(ASL) it is the scaled sum that saturates and that V judges (DESIGN CHOICE, log entry 100). -/
def State.quadResult (s : State) (c : QuadScale) (sat cross h0 l0 h1 l1 : Bool) (d0 d1 a b : DReg) : State :=
  let lane (sub : Bool) (h : Half) : Result 16 :=
    let x := (s.dh a h).toInt
    let y := (s.dh b h).toInt
    .of 16 sat (quadScale c (if sub then x - y else x + y)) false
  let r0h := lane h0 .hi
  let r0l := lane l0 .lo
  let r1h := lane h1 .hi
  let r1l := lane l1 .lo
  ((s.setD d0 (packLanes cross r0h.val r0l.val)).setD d1 (word r1h.val r1l.val)).znvFlags
    [(r0h.val, r0h.ovf), (r0l.val, r0l.ovf), (r1h.val, r1h.ovf), (r1l.val, r1l.ovf)]

/-- `Dreg = Dreg +|+ Dreg, Dreg = Dreg -|- Dreg` (R619). -/
def execQuadAddSub (c : QuadScale) (sat cross : Bool) (dSum dDiff a b : DReg) (s : State) : Outcome :=
  legal (decide (dSum ≠ dDiff)) s <|
    done 4 (s.quadResult c sat cross false false true true dSum dDiff a b)

/-- `Dreg = Dreg +|- Dreg, Dreg = Dreg -|+ Dreg` (R620). -/
def execQuadAddSubCross (c : QuadScale) (sat cross : Bool) (d0 d1 a b : DReg) (s : State) : Outcome :=
  legal (decide (d0 ≠ d1)) s <| done 4 (s.quadResult c sat cross false true true false d0 d1 a b)

/-! ## Accumulator arithmetic -/

/-- The exact sum or difference `x` in an accumulator, saturated at 40 bits, or with W32 at 32 (R621). -/
def accResult (w32 : Bool) (x : Int) (carry : Bool) : Result 40 :=
  let v := if w32 then clampS 32 x else clampS 40 x
  ⟨BitVec.ofInt 40 v, carry, decide (v ≠ x)⟩

/-- `A0 + A1` (R621). -/
def State.accSum (s : State) (w32 : Bool) : Result 40 :=
  accResult w32 (s.cur.a0.toInt + s.cur.a1.toInt) (carryAdd s.cur.a0 s.cur.a1)

/-- A0 takes a result, with AC0, AV0 and AV0S (R621). -/
def State.setA0 (s : State) (r : Result 40) : State :=
  (s.setAcc .a0 r.val).flags fun f => { f.setAv .a0 r.ovf with ac0 := r.carry }

/-- `A0 += A1` (R621). -/
def execAccAdd (w32 : Bool) (s : State) : Outcome :=
  let r := s.accSum w32
  done 4 ((s.setA0 r).flags fun f => f.zn (r.val == 0) r.val.msb)

/-- `A0 -= A1` (R622). -/
def execAccSub (w32 : Bool) (s : State) : Outcome :=
  let r := accResult w32 (s.cur.a0.toInt - s.cur.a1.toInt) (carrySub s.cur.a0 s.cur.a1)
  done 4 ((s.setA0 r).flags fun f => f.zn (r.val == 0) r.val.msb)

/-- `Dreg = (A0 += A1)` (R623). -/
def execDregAccAdd (d : DReg) (s : State) : Outcome :=
  let s := s.setA0 (s.accSum false)
  let x := s.cur.a0.toInt
  done 4 ((s.setD d (satS 32 x)).znvFlags [(satS 32 x, overS 32 x)])

/-- `Dreg_lo_hi = (A0 += A1)` (R624). -/
def execDregHalfAccAdd (dh : Half) (d : DReg) (s : State) : Outcome :=
  let s := s.setA0 (s.accSum false)
  let (s, v, o) := s.putHalf .fr s.cur.a0.toInt d dh
  done 4 (s.znvFlags [(v, o)])

/-- `An = -An` (R625, D26). -/
def execNegAcc (d r : AccN) (s : State) : Outcome :=
  let v := negR true (s.acc r)
  done 4 (((s.setAcc d v.val).accFlags d v).flags fun f => { f with ac0 := v.carry })

/-- Both accumulators take results; AZ, AN are combined (R626, R628, R630, D22). -/
def State.setAccs (s : State) (r1 r0 : Result 40) : State :=
  ((s.setAcc .a1 r1.val).setAcc .a0 r0.val).flags fun f =>
    ((f.zn (r1.val == 0 || r0.val == 0) (r1.val.msb || r0.val.msb)).setAv .a1 r1.ovf).setAv .a0 r0.ovf

/-- `A1 = -A1, A0 = -A0` (R626). -/
def execNegAccBoth (s : State) : Outcome :=
  let r1 := negR true s.cur.a1
  let r0 := negR true s.cur.a0
  done 4 ((s.setAccs r1 r0).flags fun f => { f with ac0 := r0.carry, ac1 := r1.carry })

/-- `An = ABS An` (R627). -/
def execAbsAcc (d r : AccN) (s : State) : Outcome :=
  let v := absR (s.acc r)
  done 4 ((s.setAcc d v.val).accFlags d v)

/-- `A1 = ABS A1, A0 = ABS A0` (R628). -/
def execAbsAccBoth (s : State) : Outcome := done 4 (s.setAccs (absR s.cur.a1) (absR s.cur.a0))

/-- An accumulator saturated to 32 bits (R629). -/
def satAccR (a : Acc) : Result 40 := ⟨BitVec.ofInt 40 (clampS 32 a.toInt), false, overS 32 a.toInt⟩

/-- `An = An (S)` (R629). -/
def execSatAcc (a : AccN) (s : State) : Outcome :=
  let v := satAccR (s.acc a)
  done 4 ((s.setAcc a v.val).accFlags a v)

/-- `A1 = A1 (S), A0 = A0 (S)` (R630). -/
def execSatAccBoth (s : State) : Outcome := done 4 (s.setAccs (satAccR s.cur.a1) (satAccR s.cur.a0))

/-! ## Divide primitives -/

/-- AZ, AN, AC0, AC1, AV0 and AV0S hold free values after a divide primitive (R631, D24). -/
def State.freeDivFlags (s : State) : State :=
  let (z, s) := s.drawBit
  let (n, s) := s.drawBit
  let (c0, s) := s.drawBit
  let (c1, s) := s.drawBit
  let (v0, s) := s.drawBit
  let (v0s, s) := s.drawBit
  s.flags fun f => { f with az := z, an := n, ac0 := c0, ac1 := c1, av0 := v0, av0s := v0s }

/-- The state with AQ replaced. -/
def State.setAq (s : State) (q : Bool) : State := s.flags fun f => { f with aq := q }

/-- `DIVS (Dreg, Dreg)` (R631). -/
def execDivs (d r : DReg) (s : State) : Outcome :=
  let x := s.d d
  let q := x.msb ^^ (s.d r).getLsbD 15
  done 2 (((s.setD d (x.extractLsb' 0 31 ++ BitVec.ofBool q)).setAq q).freeDivFlags)

/-- `DIVQ (Dreg, Dreg)` (R632). -/
def execDivq (d r : DReg) (s : State) : Outcome :=
  let af := s.dh d .hi
  let dv := s.dh r .lo
  let t := if s.cur.astat.aq then af + dv else af - dv
  let q := t.msb ^^ dv.msb
  done 2 (((s.setD d (t.extractLsb' 0 15 ++ s.dh d .lo ++ BitVec.ofBool (!q))).setAq q).freeDivFlags)

/-! ## MAX, MIN, ABS -/

/-- Two lane results in a data register, with AZ, AN over both and V cleared (R634). -/
def State.vecZn (s : State) (d : DReg) (h l : HWord) : State := (s.setD d (word h l)).znFlags [h, l]

/-- `Dreg = MAX (Dreg, Dreg)` (R633). -/
def execMaxDreg (d a b : DReg) (s : State) : Outcome :=
  let v := maxS (s.d a) (s.d b)
  done 4 ((s.setD d v).znFlags [v])

/-- `Dreg = MAX (Dreg, Dreg) (V)` (R634). -/
def execMaxVec (d a b : DReg) (s : State) : Outcome :=
  done 4 (s.vecZn d (maxS (s.dh a .hi) (s.dh b .hi)) (maxS (s.dh a .lo) (s.dh b .lo)))

/-- `Dreg = MIN (Dreg, Dreg)` (R635). -/
def execMinDreg (d a b : DReg) (s : State) : Outcome :=
  let v := minS (s.d a) (s.d b)
  done 4 ((s.setD d v).znFlags [v])

/-- `Dreg = MIN (Dreg, Dreg) (V)` (R636). -/
def execMinVec (d a b : DReg) (s : State) : Outcome :=
  done 4 (s.vecZn d (minS (s.dh a .hi) (s.dh b .hi)) (minS (s.dh a .lo) (s.dh b .lo)))

/-- `Dreg = ABS Dreg` (R637). -/
def execAbsDreg (d r : DReg) (s : State) : Outcome :=
  let v := absR (s.d r)
  done 4 ((s.setD d v.val).znvFlags [(v.val, v.ovf)])

/-- `Dreg = ABS Dreg (V)` (R638). -/
def execAbsVec (d r : DReg) (s : State) : Outcome :=
  let h := absR (s.dh r .hi)
  let l := absR (s.dh r .lo)
  done 4 ((s.setD d (word h.val l.val)).znvFlags [(h.val, h.ovf), (l.val, l.ovf)])

/-! ## Rounding to a half register -/

/-- A half takes the exact value `x` saturated to 16 bits, with AZ, AN, V (R639 to R643). -/
def State.roundResult (s : State) (dh : Half) (d : DReg) (x : Int) : State :=
  (s.setDh d dh (satS 16 x)).znvFlags [(satS 16 x, overS 16 x)]

/-- `Dreg_lo_hi = Dreg (RND)` (R639). -/
def execRoundHalf (dh : Half) (d r : DReg) (s : State) : Outcome :=
  done 4 (s.roundResult dh d (((s.d r).toInt + 0x8000) / 0x10000))

/-- `Dreg_lo_hi = Dreg + Dreg (RND12)` (R640). -/
def execAddRnd12 (dh : Half) (d a b : DReg) (s : State) : Outcome :=
  done 4 (s.roundResult dh d (((s.d a).toInt + (s.d b).toInt + 0x800) / 0x1000))

/-- `Dreg_lo_hi = Dreg - Dreg (RND12)` (R641). -/
def execSubRnd12 (dh : Half) (d a b : DReg) (s : State) : Outcome :=
  done 4 (s.roundResult dh d (((s.d a).toInt - (s.d b).toInt + 0x800) / 0x1000))

/-- `Dreg_lo_hi = Dreg + Dreg (RND20)` (R642). -/
def execAddRnd20 (dh : Half) (d a b : DReg) (s : State) : Outcome :=
  done 4 (s.roundResult dh d (((s.d a).toInt + (s.d b).toInt + 0x80000) / 0x100000))

/-- `Dreg_lo_hi = Dreg - Dreg (RND20)` (R643). -/
def execSubRnd20 (dh : Half) (d a b : DReg) (s : State) : Outcome :=
  done 4 (s.roundResult dh d (((s.d a).toInt - (s.d b).toInt + 0x80000) / 0x100000))

/-! ## Exponent detection (no flags) -/

/-- `Dreg_lo = SIGNBITS Dreg` (R644). -/
def execSignbitsDreg (d r : DReg) (s : State) : Outcome :=
  done 4 (s.setDh d .lo (BitVec.ofNat 16 (signRun (s.d r) - 1)))

/-- `Dreg_lo = SIGNBITS Dreg_lo_hi` (R645). -/
def execSignbitsHalf (d : DReg) (rh : Half) (r : DReg) (s : State) : Outcome :=
  done 4 (s.setDh d .lo (BitVec.ofNat 16 (signRun (s.dh r rh) - 1)))

/-- `Dreg_lo = SIGNBITS An` (R646). -/
def execSignbitsAcc (d : DReg) (a : AccN) (s : State) : Outcome :=
  done 4 (s.setDh d .lo (BitVec.ofInt 16 ((signRun (s.acc a) : Int) - 9)))

/-- `Dreg_lo = EXPADJ (Dreg, Dreg_lo) (V)` (R647). -/
def execExpadjVec (d v c : DReg) (s : State) : Outcome :=
  let e := min (signRun (s.dh v .hi) - 1) (signRun (s.dh v .lo) - 1)
  done 4 (s.setDh d .lo (BitVec.ofNat 16 (min e (s.dh c .lo).toNat)))

/-- The exponent of the operand of EXPADJ (R648). -/
def State.expOf (s : State) (k : ExpSel) (v : DReg) : Nat :=
  match k with
  | .word => signRun (s.d v) - 1
  | .lo => signRun (s.dh v .lo) - 1
  | .hi => signRun (s.dh v .hi) - 1

/-- `Dreg_lo = EXPADJ (Dreg | Dreg_lo_hi, Dreg_lo)` (R648). -/
def execExpadj (k : ExpSel) (d v c : DReg) (s : State) : Outcome :=
  done 4 (s.setDh d .lo (BitVec.ofNat 16 (min (s.expOf k v) (s.dh c .lo).toNat)))

/-! ## Logical operations -/

/-- `Dreg = Dreg & Dreg` (R649). -/
def execAndDreg (d a b : DReg) (s : State) : Outcome := done 2 (s.logicResult d (s.d a &&& s.d b))

/-- `Dreg = ~Dreg` (R650). -/
def execNotDreg (d r : DReg) (s : State) : Outcome := done 2 (s.logicResult d (~~~ s.d r))

/-- `Dreg = Dreg | Dreg` (R651). -/
def execOrDreg (d a b : DReg) (s : State) : Outcome := done 2 (s.logicResult d (s.d a ||| s.d b))

/-- `Dreg = Dreg ^ Dreg` (R652). -/
def execXorDreg (d a b : DReg) (s : State) : Outcome := done 2 (s.logicResult d (s.d a ^^^ s.d b))

/-! ## Compares -/

/-- The second operand of a data-register compare; an immediate is signed, or unsigned in the (IU) forms (R660). -/
def State.cmpValue (s : State) (unsigned : Bool) : DRegImm3 → Word
  | .reg r => s.d r
  | .imm n => if unsigned then n.zeroExtend 32 else n.signExtend 32

/-- CC takes the answer of a data-register compare; AZ, AN and AC0 hold free values (R665, D27). -/
def State.cmpResult (s : State) (c : Bool) : State :=
  let (z, s) := s.drawBit
  let (n, s) := s.drawBit
  let (c0, s) := s.drawBit
  s.flags fun f => { f with cc := c, az := z, an := n, ac0 := c0 }

/-- `CC = Dreg == Dreg|imm3` (R660). -/
def execCmpEqDreg (x : DReg) (y : DRegImm3) (s : State) : Outcome :=
  done 2 (s.cmpResult (decide (s.d x = s.cmpValue false y)))

/-- `CC = Dreg < Dreg|imm3` (R661). -/
def execCmpLtDreg (x : DReg) (y : DRegImm3) (s : State) : Outcome :=
  done 2 (s.cmpResult (decide ((s.d x).toInt < (s.cmpValue false y).toInt)))

/-- `CC = Dreg <= Dreg|imm3` (R662). -/
def execCmpLeDreg (x : DReg) (y : DRegImm3) (s : State) : Outcome :=
  done 2 (s.cmpResult (decide ((s.d x).toInt ≤ (s.cmpValue false y).toInt)))

/-- `CC = Dreg < Dreg|imm3 (IU)` (R663). -/
def execCmpLtuDreg (x : DReg) (y : DRegImm3) (s : State) : Outcome :=
  done 2 (s.cmpResult (decide ((s.d x).toNat < (s.cmpValue true y).toNat)))

/-- `CC = Dreg <= Dreg|imm3 (IU)` (R664). -/
def execCmpLeuDreg (x : DReg) (y : DRegImm3) (s : State) : Outcome :=
  done 2 (s.cmpResult (decide ((s.d x).toNat ≤ (s.cmpValue true y).toNat)))

/-- The second operand of a pointer-register compare (R666). -/
def State.cmpPtr (s : State) (unsigned : Bool) : PRegImm3 → Word
  | .reg r => s.p r
  | .imm n => if unsigned then n.zeroExtend 32 else n.signExtend 32

/-- `CC = Preg cmp Preg|imm3` (R666): CC only. -/
def execCmpPreg (op : CmpOp) (x : PReg) (y : PRegImm3) (s : State) : Outcome :=
  done 2 (s.setCc (match op with
    | .eq => decide (s.p x = s.cmpPtr false y)
    | .lt => decide ((s.p x).toInt < (s.cmpPtr false y).toInt)
    | .le => decide ((s.p x).toInt ≤ (s.cmpPtr false y).toInt)
    | .ltu => decide ((s.p x).toNat < (s.cmpPtr true y).toNat)
    | .leu => decide ((s.p x).toNat ≤ (s.cmpPtr true y).toNat)))

/-! ## Add with shift -/

/-- `(a + b) << k` (R670). -/
def addShiftR (k : Nat) (a b : Word) : Result 32 := .of 32 false ((a.toInt + b.toInt) * 2 ^ k) (carryAdd a b)

/-- `Dreg = (Dreg + Dreg) << 1` (R670). -/
def execAddShift1Dreg (d r : DReg) (s : State) : Outcome := done 2 (s.sumResult d (addShiftR 1 (s.d d) (s.d r)))

/-- `Dreg = (Dreg + Dreg) << 2` (R670). -/
def execAddShift2Dreg (d r : DReg) (s : State) : Outcome := done 2 (s.sumResult d (addShiftR 2 (s.d d) (s.d r)))

/-- `Preg = (Preg + Preg) << 1` (R671). -/
def execAddShift1Preg (d r : PReg) (s : State) : Outcome := done 2 (s.setP d ((s.p d + s.p r) <<< 1))

/-- `Preg = (Preg + Preg) << 2` (R671). -/
def execAddShift2Preg (d r : PReg) (s : State) : Outcome := done 2 (s.setP d ((s.p d + s.p r) <<< 2))

/-- `Preg = Preg + (Preg << 1)` (R672). -/
def execAddShifted1Preg (d a b : PReg) (s : State) : Outcome := done 2 (s.setP d (s.p a + s.p b <<< 1))

/-- `Preg = Preg + (Preg << 2)` (R672). -/
def execAddShifted2Preg (d a b : PReg) (s : State) : Outcome := done 2 (s.setP d (s.p a + s.p b <<< 2))

/-- `Preg = Preg << 1` (R673). -/
def execShl1Preg (d r : PReg) (s : State) : Outcome := done 2 (s.setP d (s.p r <<< 1))

/-- `Preg = Preg << 2` (R673). -/
def execShl2Preg (d r : PReg) (s : State) : Outcome := done 2 (s.setP d (s.p r <<< 2))

/-- `Preg = Preg >> 2` (R673). -/
def execShr2Preg (d r : PReg) (s : State) : Outcome := done 2 (s.setP d (s.p r >>> 2))

/-- `Preg = Preg >> 1` (R673). -/
def execShr1Preg (d r : PReg) (s : State) : Outcome := done 2 (s.setP d (s.p r >>> 1))

end Sys2Proof.Machine
end

