-- ==== Sys2Proof/Machine/Flow.lean ====
section
/-!
DEFINITION. Program flow: jumps, calls, returns, conditional branches and the setup of hardware loops (44_flow.md).
-/

namespace Sys2Proof.Machine

/-! ## Shared operations -/

/-- A PC-relative target: the offset field counts halfwords (R832, R530). -/
def State.relTarget {w : Nat} (s : State) (o : BitVec w) : Word := s.cur.pc + (o.signExtend 32) <<< 1

/-- RETS takes the address that would have executed next, the loop counters going with it (R838, D31). -/
def State.saveRets (s : State) (len : Nat) : State :=
  let (s, r) := s.loopStep len
  s.setCur { s.cur with rets := r }

/-- A conditional branch: the transfer if it is taken, else the next instruction by R830 (R847). -/
def State.branch (s : State) (taken : Bool) (o : BitVec 10) : Outcome :=
  let s := s.count 0x06
  if taken then transfer (s.relTarget o) s else done 2 s

/-- The setup of loop unit `n` (R851): the offset fields count halfwords. -/
def State.loopSetup (s : State) (n : LoopN) (top : BitVec 4) (bot : BitVec 10) (lc : Word) : State :=
  s.setLoop n ⟨lc, s.cur.pc + BitVec.ofNat 32 (2 * top.toNat), s.cur.pc + BitVec.ofNat 32 (2 * bot.toNat)⟩

/-! ## Jumps -/

/-- `JUMP.S off` (R833). -/
def execJumpShort (o : BitVec 12) (s : State) : Outcome := transfer (s.relTarget o) s

/-- `JUMP.L off` (R834). -/
def execJumpLong (o : BitVec 24) (s : State) : Outcome := transfer (s.relTarget o) s

/-- `JUMP off` without suffix (R835): the jump to `pc + off` that JUMP.S or JUMP.L makes. -/
def execJumpAny (o : BitVec 24) (s : State) : Outcome := transfer (s.relTarget o) s

/-- `JUMP (Preg)` (R836). -/
def execJumpPreg (p : PReg) (s : State) : Outcome := transfer (s.p p) s

/-- `JUMP (PC + Preg)` (R837). -/
def execJumpPcPreg (p : PReg) (s : State) : Outcome := transfer (s.cur.pc + s.p p) s

/-! ## Calls and returns -/

/-- `CALL off` (R838). -/
def execCallOff (o : BitVec 24) (s : State) : Outcome := transfer (s.relTarget o) (s.saveRets 4)

/-- `CALL (Preg)` (R839). -/
def execCallPreg (p : PReg) (s : State) : Outcome := transfer (s.p p) (s.saveRets 2)

/-- `CALL (PC + Preg)` (R840). -/
def execCallPcPreg (p : PReg) (s : State) : Outcome := transfer (s.cur.pc + s.p p) (s.saveRets 2)

/-- `RTS` (R841). -/
def execRts (s : State) : Outcome := transfer s.cur.rets s

/-- `RTI` (R843). -/
def execRti (s : State) : Outcome := supervisor s <| returnTo s.cur.reti true s

/-- `RTX` (R844). -/
def execRtx (s : State) : Outcome := supervisor s <| returnTo s.cur.retx false s

/-- `RTN` (R845). -/
def execRtn (s : State) : Outcome := supervisor s <| returnTo s.cur.retn false s

/-- `RTE` (R846, D33): the core is never in Emulation mode, so it raises 0x2E in every mode. -/
def execRte (s : State) : Outcome := raise .illegalSupervisorUse s

/-! ## Conditional branches -/

/-- `IF CC JUMP off` (R847). -/
def execBrcc (o : BitVec 10) (s : State) : Outcome := s.branch s.cc o

/-- `IF !CC JUMP off` (R848). -/
def execBrncc (o : BitVec 10) (s : State) : Outcome := s.branch (!s.cc) o

/-- `IF CC JUMP off (bp)` (R849). -/
def execBrccBp (o : BitVec 10) (s : State) : Outcome := s.branch s.cc o

/-- `IF !CC JUMP off (bp)` (R849). -/
def execBrnccBp (o : BitVec 10) (s : State) : Outcome := s.branch (!s.cc) o

/-! ## Hardware loops -/

/-- `LSETUP (top, bot) LCn = Preg` (R851). -/
def execLsetupPreg (n : LoopN) (top : BitVec 4) (p : PReg) (bot : BitVec 10) (s : State) : Outcome :=
  done 4 (s.loopSetup n top bot (s.p p))

/-- `LSETUP (top, bot) LCn` (R851): LCn keeps its value. -/
def execLsetup (n : LoopN) (top : BitVec 4) (bot : BitVec 10) (s : State) : Outcome :=
  done 4 (s.loopSetup n top bot (s.loopUnit n).lc)

/-- `LSETUP (top, bot) LCn = Preg >> 1` (R852). -/
def execLsetupPregHalf (n : LoopN) (top : BitVec 4) (p : PReg) (bot : BitVec 10) (s : State) : Outcome :=
  done 4 (s.loopSetup n top bot (s.p p >>> 1))

end Sys2Proof.Machine
end

