-- ==== Sys2Proof/Machine/Ebiu.lean ====
section
/-!
DEFINITION. The external bus interface unit (66_ebiu.md, 66_ebiu_sdc.md): which external addresses answer, what the board
has there (`EXT_MEM`, `State.board`), the accesses themselves, the power-up and self-refresh of the SDRAM, and the EBIU
registers.
-/

namespace Sys2Proof.Machine

/-- What a load or store of a memory-mapped register does: a value and the new state, the System MMR error of R336, or
a refusal. -/
inductive MmrRes where
  | ok (v : Word) (s : State)
  | error
  | refused (r : Refusal)

/-- The answer of the memory behind L1 to one access. -/
inductive BusRes (α : Type) where
  | ok (a : α) (s : State)
  | error (s : State)
  | wait (s : State)
  | refused (r : Refusal)

/-- The state with another EBIU. -/
def State.setEbiu (s : State) (e : Ebiu) : State := { s with sys := { s.sys with ebiu := e } }

/-! ## Fields (R1630, R1634, R1642, R1648) -/

/-- `AsyncEnabled(k)` (R1631). -/
def Ebiu.asyncEnabled (e : Ebiu) (k : Nat) : Bool :=
  let n := (e.amgctl.extractLsb' 1 3).toNat
  if 4 ≤ n then true else decide (k < n)

/-- The sixteen bits of EBIU_AMBCTL0/1 of bank `k` (R1634). -/
def Ebiu.bankCtl (e : Ebiu) (k : Nat) : HWord :=
  match k with
  | 0 => half .lo e.ambctl0
  | 1 => half .hi e.ambctl0
  | 2 => half .lo e.ambctl1
  | _ => half .hi e.ambctl1

/-- SCTLE (R1643). -/
def Ebiu.sctle (e : Ebiu) : Bool := e.sdgctl.getLsbD 0
/-- PSSE (R1644). -/
def Ebiu.psse (e : Ebiu) : Bool := e.sdgctl.getLsbD 23
/-- SRFS (R1645). -/
def Ebiu.srfs (e : Ebiu) : Bool := e.sdgctl.getLsbD 24
/-- X16DE: the SDRAM is 16 bits wide, so that a 32-bit request is two accesses (R1646). -/
def Ebiu.x16 (e : Ebiu) : Bool := e.sdgctl.getLsbD 31
/-- EBkE: SDRAM bank `k` is enabled (R1648). -/
def Ebiu.bankOn (e : Ebiu) (k : Nat) : Bool := e.sdbctl.getLsbD (8 * k)
/-- The size of SDRAM bank `k` in bytes (R1652). -/
def Ebiu.bankSize (e : Ebiu) (k : Nat) : Nat := 0x1000000 * 2 ^ (e.sdbctl.extractLsb' (8 * k + 1) 2).toNat

/-- `SdramBank(a)` (R1652): the banks lie one after the other whatever their enables say. -/
def Ebiu.sdramBank (e : Ebiu) (a : Nat) : Option Nat :=
  let s1 := e.bankSize 0
  let s2 := s1 + e.bankSize 1
  let s3 := s2 + e.bankSize 2
  if a < s1 then some 0 else if a < s2 then some 1 else if a < s3 then some 2
  else if a < s3 + e.bankSize 3 then some 3 else none

/-- The classes of an external access (R1626). -/
inductive ExtClass where
  | error
  | async (k : Nat)
  | sdram (k : Nat)
  | powerUp (k : Nat)
  deriving DecidableEq, Repr

/-- `ExtClass(a)` (R1626). -/
def Ebiu.extClass (e : Ebiu) (a : Nat) : ExtClass :=
  if a < 0x20000000 then
    if !e.sctle then .error
    else
      match e.sdramBank a with
      | none => .error
      | some k =>
        if !e.powered then (if e.psse && e.bankOn k then .powerUp k else .error)
        else if !e.bankOn k then .error
        else .sdram k
  else if a < 0x30000000 then
    let k := (a - 0x20000000) / 0x04000000
    if e.asyncEnabled k then .async k else .error
  else .error

/-- The SDRAM timing fields hold no reserved value (R1666 (e)). -/
def Ebiu.timingOk (e : Ebiu) : Bool :=
  e.sdgctl.getLsbD 3 && e.sdgctl.extractLsb' 19 2 != 0 && e.sdgctl.extractLsb' 15 3 != 0
    && e.sdgctl.extractLsb' 6 4 != 0 && e.sdgctl.extractLsb' 11 3 != 0

/-- The setting of asynchronous bank `k` is one that the rules allow an enabled bank: BxRAT and BxWAT are not 0, and with
BxRDYEN = 1 BxRAT is at least 2 (R1666 (b), (c)). -/
def Ebiu.bankOk (e : Ebiu) (k : Nat) : Bool :=
  let c := e.bankCtl k
  let rat := (c.extractLsb' 8 4).toNat
  !(decide (rat = 0) || c.extractLsb' 12 4 == 0 || (c.getLsbD 0 && decide (rat < 2)))

/-- Those of the banks `ks` that are enabled have an allowed setting. -/
def Ebiu.banksOk (e : Ebiu) (ks : List Nat) : Bool := ks.all fun k => !e.asyncEnabled k || e.bankOk k

/-- 16-bit packing of asynchronous bank `k` (R1632). -/
def Ebiu.packed (e : Ebiu) (k : Nat) : Bool := e.amgctl.getLsbD (4 + k)

/-! ## Either core -/

/-- The two cores exchanged: the other one is the current one. -/
def State.swap (s : State) : State := { s with cur := s.oth, oth := s.cur }

/-- A core. -/
def State.coreOf (s : State) (id : CoreId) : Core := if s.cur.id = id then s.cur else s.oth

/-- Replace a core. -/
def State.setCore (s : State) (id : CoreId) (c : Core) : State :=
  if s.cur.id = id then { s with cur := c } else { s with oth := c }

/-- Do something as core `id`. -/
def State.asCore (s : State) (id : CoreId) (f : State → State) : State :=
  if s.cur.id = id then f s else (f s.swap).swap

/-- `lo ≤ a < lo + n`. -/
def inRange (lo n a : Nat) : Bool := decide (lo ≤ a) && decide (a < lo + n)

/-! ## Memory that instructions come from (R349) -/

/-- An address that an instruction can be fetched from: everything below L1, and the L1 instruction memories (R305). -/
def fetchable (a : Nat) : Bool :=
  decide (a < 0xFF400000) || inRange 0xFF600000 0x14000 a || inRange 0xFFA00000 0x14000 a

/-- The half words that hold the `n` bytes from `a` on, as they are. -/
def Mem.halves (m : Mem) (a n : Nat) : List OldHalf :=
  (List.range ((a % 2 + n + 1) / 2)).map fun k => let x := a / 2 * 2 + 2 * k; ⟨x, m.read x, m.read (x + 1)⟩

/-- A write to memory that an instruction may come from: until it synchronises, either core may still execute what was
there (R349, D40). -/
def State.memStore (s : State) (a n v : Nat) : State :=
  let old := if fetchable a then s.mem.halves a n else []
  { s with mem := s.mem.storeN a n v, cur := { s.cur with stale := s.cur.stale ++ old },
           oth := { s.oth with stale := s.oth.stale ++ old } }

/-! ## The board (R306, R1639, R1657) -/

/-- What the board has at the external address `a`, and the address under which memory has it. -/
def State.extMap (s : State) (a : Nat) : ExtKind × Nat :=
  match s.board.find? fun x => decide (x.lo ≤ a ∧ a < x.hi) with
  | some x => (x.kind, if x.size = 0 then a else x.lo + (a - x.lo) % x.size)
  | none => (.ram, a)

/-- A free value of `n` bytes. -/
def State.drawBytes (s : State) (n : Nat) : Nat × State :=
  let (w, s) := s.drawWord
  (w.toNat % 2 ^ (8 * n), s)

/-- The board answers a read of `n` bytes at `a` of a location of `loc` bytes (R1632 (b), R1639). -/
def State.boardRead (s : State) (loc a n : Nat) : Nat × State :=
  match s.extMap a with
  | (.ram, b) | (.rom, b) => (s.mem.loadN b n, s)
  | (.absent, _) => s.drawBytes n
  | (.device, b) => (s.emit (.devRead (b / loc * loc) loc)).drawBytes n

/-- The board takes a write of the low `n` bytes of `v` at `a` in a location of `loc` bytes, the byte enables of these
bytes asserted (R1638, R1639). -/
def State.boardWrite (s : State) (loc a n v : Nat) : State :=
  match s.extMap a with
  | (.ram, b) => s.memStore b n v
  | (.rom, _) | (.absent, _) => s
  | (.device, b) => s.emit (.devWrite (b / loc * loc) loc ((2 ^ n - 1) * 2 ^ (b % loc)) (v * 2 ^ (8 * (b % loc))))

/-! ## The two halves of a packed 32-bit access (R1632 (a), R346) -/

/-- The stores of an external master that is about to have the bus and to give it back, and what the outside world does
after that. -/
def masterTurn : List Input → Option (List (Word × Byte) × List Input)
  | .masterStore a b :: rest => (masterTurn rest).map fun r => ((a, b) :: r.1, r.2)
  | .busGrant false :: rest => some ([], rest)
  | _ => none

/-- A store by the external master to memory on the board (R1660 (b)). -/
def State.masterWrite (s : State) (a : Word) (b : Byte) : State :=
  match s.extMap a.toNat with
  | (.ram, x) => if a.toNat < 0x30000000 then s.memStore x 1 b.toNat else s
  | _ => s

/-- Between the two halves an external master may have the bus (R1660, D39): whether it does is free. -/
def State.betweenHalves (s : State) : State :=
  match s.inputs with
  | .busGrant true :: rest =>
    (match masterTurn rest with
     | none => s
     | some (ws, rest) =>
       let (b, s) := s.drawBit
       if b then ws.foldl (fun s w => s.masterWrite w.1 w.2) { s with inputs := rest } else s)
  | _ => s

/-- The two halves of the access at `a`, in an order that is free (D66): the value that `f` gives for each half, put
together. -/
def State.twoHalves (s : State) (a : Nat) (f : Nat → State → Nat × State) : Nat × State :=
  let (hi, s) := s.drawBit
  if hi then
    let (y, s) := f (a + 2) s
    let (x, s) := f a s.betweenHalves
    (x + 65536 * y, s)
  else
    let (x, s) := f a s
    let (y, s) := f (a + 2) s.betweenHalves
    (x + 65536 * y, s)

/-- The order of the halves and what falls between them can be seen: there is a device, or an external master about to
have the bus. -/
def State.halvesShow (s : State) (a : Nat) : Bool :=
  (match (s.extMap a).1 with | .device | .absent => true | .ram | .rom => false)
    || (match s.inputs with | .busGrant true :: _ => true | _ => false)

/-! ## An access (R1625, R1626, R1636, R1660) -/

/-- The core that makes an access, if a core makes it. -/
def BusUser.core? : BusUser → Option CoreId
  | .load id | .fetch id | .store id | .dataFill id | .instFill id => some id
  | .dma _ => none

/-- One access to the SDRAM has been made by this user (R1644, R1645, R1650). -/
def State.sdramAccess (s : State) (u : BusUser) (powerUp : Bool) : State :=
  let e := { s.sys.ebiu with powered := true, selfRefresh := false }
  let e := if powerUp then { e with puaA := true, puaB := true } else e
  s.setEbiu { e with puaA := e.puaA && u.core? != some .a, puaB := e.puaB && u.core? != some .b }

/-- Whoever made the access that ARDY extends still waits for it. -/
def State.busWanted (s : State) (x : BusAccess) : Bool :=
  let waits (id : CoreId) : Bool := (s.coreOf id).waiting.any fun w => w.addr == x.addr
  match x.user with
  | .load id | .fetch id => waits id
  | .store id => (s.coreOf id).stores.any fun p => decide (p.addr ≤ x.addr ∧ x.addr < p.addr + p.size)
  | .dataFill id => (s.coreOf id).dfill.isSome
  | .instFill id => (s.coreOf id).ifill.isSome
  | .dma i =>
    match s.sys.dma.chans.toList[i]? with
    | some c => !c.pending.isEmpty || (match c.phase with | .fetch _ _ _ => true | _ => false)
    | none => false

/-- The EBIU serves the access of `u` at `a`, or makes it wait: for the bus that another master has, for another access
that ARDY extends, or because ARDY extends this one, which is free (R1636). -/
def State.serve (s : State) (u : BusUser) (a : Nat) (rdyen : Bool) : BusRes Unit :=
  let e := s.sys.ebiu
  let fresh : BusRes Unit :=
    if rdyen then
      let (ready, s) := s.drawBit
      if ready then .ok () (s.setEbiu { e with busy := none })
      else .wait (s.setEbiu { e with busy := some ⟨u, a, false⟩ })
    else .ok () (s.setEbiu { e with busy := none })
  if e.granted then .wait s
  else
    match e.busy with
    | none => fresh
    | some x =>
      if x.ready && x.user == u && x.addr == a then .ok () (s.setEbiu { e with busy := none })
      else if x.ready && !s.busWanted x then fresh
      else .wait s

/-- The external address `a` is accessed by `u`: the answer is the size of the location that answers. -/
def State.extAccess (s : State) (u : BusUser) (a : Nat) : BusRes Nat :=
  let e := s.sys.ebiu
  let sdram (powerUp : Bool) : BusRes Nat :=
    if !e.timingOk then .refused .unitSetting
    else
      match s.serve u a false with
      | .ok _ s => .ok (if e.x16 then 2 else 4) (s.sdramAccess u powerUp)
      | .error s => .error s
      | .wait s => .wait s
      | .refused r => .refused r
  match e.extClass a with
  | .error =>
    .error (if u.core?.isSome ∧ a < 0x20000000 then s.setEbiu { e with ease := true } else s)
  | .async k =>
    if !e.bankOk k then .refused .unitSetting
    else
      match s.serve u a ((e.bankCtl k).getLsbD 0) with
      | .ok _ s => .ok (if e.packed k then 2 else 4) s
      | .error s => .error s
      | .wait s => .wait s
      | .refused r => .refused r
  | .sdram _ => sdram false
  | .powerUp _ => sdram true

/-- `u` reads `n` bytes of external memory at `a`. -/
def State.extRead (s : State) (u : BusUser) (a n : Nat) : BusRes Nat :=
  match s.extAccess u a with
  | .ok loc s =>
    let (v, s) :=
      if loc < n ∧ s.halvesShow a then s.twoHalves a fun x s => s.boardRead 2 x 2 else s.boardRead (max loc n) a n
    .ok v s
  | .error s => .error s
  | .wait s => .wait s
  | .refused r => .refused r

/-- `u` writes the low `n` bytes of `v` to external memory at `a`. -/
def State.extWrite (s : State) (u : BusUser) (a n v : Nat) : BusRes Unit :=
  match s.extAccess u a with
  | .ok loc s =>
    .ok () (if loc < n ∧ s.halvesShow a then
        (s.twoHalves a fun x s => (0, s.boardWrite 2 x 2 (if x = a then v % 65536 else v / 65536))).2
      else s.boardWrite (max loc n) a n v)
  | .error s => .error s
  | .wait s => .wait s
  | .refused r => .refused r

/-! ## What is pending (R1645, R1650, R1660, R1666) -/

/-- The external addresses of the accesses that the cores have under way: pending stores, line fills, what a stalled
instruction waits for. -/
def Core.external (c : Core) : List Nat :=
  c.stores.map (·.addr) ++ (c.dfill.toList ++ c.ifill.toList).map (·.base) ++ c.waiting.toList.map (·.addr)

/-- The external addresses of the accesses that the DMA channels have under way (R1650). -/
def Dma.external (d : Dma) : List Nat :=
  d.chans.toList.flatMap fun c =>
    c.pending.map (·.addr.toNat)
      ++ (match c.phase with | .fetch _ _ _ => [c.currDesc.toNat] | _ => [])

/-- The addresses of the accesses under way in the EBIU or on their way to it. -/
def State.underWay (s : State) : List Nat :=
  s.cur.external ++ s.oth.external ++ s.sys.dma.external ++ s.sys.ebiu.busy.toList.map (·.addr)

/-- An SDRAM access of some agent is pending (R1645, R1650). -/
def State.sdramBusy (s : State) : Bool := s.underWay.any fun a => decide (a < 0x20000000)

/-- The AMC is in use: an asynchronous access of some agent is pending or in progress (R1666 (a)). A store still in a
core's buffer has not reached it. -/
def State.amcBusy (s : State) : Bool :=
  ({ s with cur := { s.cur with stores := [] }, oth := { s.oth with stores := [] } } : State).underWay.any fun a =>
    decide (0x20000000 ≤ a ∧ a < 0x30000000)

/-- An access of some agent to external memory is pending in the EBIU, which grants the bus to nobody then (R1660): DMA
accesses issued, the words that a line fill still needs, the load or fetch that a core is stalled on, an access that ARDY
extends. A store still in a core's buffer has not reached the EBIU. -/
def State.ebiuBusy (s : State) : Bool :=
  let asked (c : Core) : List Nat := ({ c with stores := [] } : Core).external
  s.sys.ebiu.busy.isSome
    || (asked s.cur ++ asked s.oth ++ s.sys.dma.external).any fun a => decide (a < 0x30000000)

/-- `EnterSelfRefresh` is enabled (R1645): SRFS is set and no SDRAM access is pending. -/
def State.wantsSelfRefresh (s : State) : Bool :=
  s.sys.ebiu.srfs && !s.sys.ebiu.selfRefresh && !s.sdramBusy

/-- `EnterSelfRefresh` (R1645); a partial-array setting loses the rest of the SDRAM (R1659 (e)). -/
def State.enterSelfRefresh (s : State) : State :=
  let e := s.sys.ebiu
  let s := s.setEbiu { e with selfRefresh := true }
  if e.sdgctl.getLsbD 28 && e.sdgctl.extractLsb' 4 2 != 0 then s.scrub 0 0x20000000 else s

/-! ## Registers (R1627) -/

/-- A 32-bit value of a 16-bit register. -/
def ofH (h : HWord) : Word := h.zeroExtend 32

/-- EBIU_SDSTAT (R1650). -/
def State.sdstat (s : State) : Word × State :=
  let e := s.sys.ebiu
  let (idle, s) := if s.sdramBusy || s.wantsSelfRefresh then s.drawBit else (true, s)
  let open_ := if s.cur.id = .a then e.puaA else e.puaB
  let (pua, s) := if e.powered && open_ then s.drawBit else (false, s)
  let b (x : Bool) (n : Nat) : Word := if x then BitVec.ofNat 32 (2 ^ n) else 0
  (b idle 0 ||| b e.selfRefresh 1 ||| b pua 2 ||| b (!e.powered) 3 ||| b e.ease 4 ||| b e.granted 5, s)

/-- A load of an EBIU register at offset `off` from 0xFFC00A00 with `n` bytes. -/
def ebiuRead (off n : Nat) (s : State) : MmrRes :=
  let e := s.sys.ebiu
  match off, n with
  | 0x00, 2 => .ok (ofH e.amgctl) s
  | 0x04, 4 => .ok e.ambctl0 s
  | 0x08, 4 => .ok e.ambctl1 s
  | 0x10, 4 => .ok e.sdgctl s
  | 0x14, 4 => .ok e.sdbctl s
  | 0x18, 2 => .ok (ofH e.sdrrc) s
  | 0x1C, 2 => let (v, s) := s.sdstat; .ok v s
  | _, _ => .error

/-- The SDRAM is refreshed, by itself or by the SDC (R1659 (b)). -/
def Ebiu.refreshed (e : Ebiu) : Bool := e.selfRefresh || e.sctle

/-- A store to EBIU_SDGCTL (R1642, R1666 (d), (f), (h), (j)). A store of SRFS = 0 leaves self-refresh (D69, log entry 80);
one after which nothing refreshes the SDRAM any longer loses its contents (R1659 (b)). -/
def sdgctlWrite (v : Word) (s : State) : MmrRes :=
  let e := s.sys.ebiu
  let timing : Word := 0x001BBBCC
  let new := { e with sdgctl := v, selfRefresh := e.selfRefresh && v.getLsbD 24 }
  if v &&& 0x08044400 ≠ 0 then .refused .unitSetting
  else if e.sctle && e.powered && (v &&& timing) != (e.sdgctl &&& timing) then .refused .unitSetting
  else if new.sctle && e.sdrrc == 0 then .refused .unitSetting
  else if new.psse && e.powered && !e.selfRefresh && v.extractLsb' 2 2 != e.sdgctl.extractLsb' 2 2 then
    .refused .unitSetting
  else
    let s := s.setEbiu new
    .ok 0 (if e.powered && e.refreshed && !new.refreshed then s.scrub 0 0x20000000 else s)

/-- A store to an EBIU register (R1627, R1666 (a) to (c), (g)): of the asynchronous banks, those that it enables or sets. A
reserved bit keeps reading 0 (U1). -/
def ebiuWrite (off n : Nat) (v : Word) (s : State) : MmrRes :=
  let e := s.sys.ebiu
  let amc (e : Ebiu) (ks : List Nat) : MmrRes :=
    if s.amcBusy || !e.banksOk ks then .refused .unitSetting else .ok 0 (s.setEbiu e)
  match off, n with
  | 0x00, 2 => amc { e with amgctl := half .lo v &&& 0x01FF } [0, 1, 2, 3]
  | 0x04, 4 => amc { e with ambctl0 := v } [0, 1]
  | 0x08, 4 => amc { e with ambctl1 := v } [2, 3]
  | 0x10, 4 => sdgctlWrite v s
  | 0x14, 4 =>
    if s.sdramBusy || s.wantsSelfRefresh then .refused .unitSetting
    else .ok 0 (s.setEbiu { e with sdbctl := v &&& 0x37373737 })
  | 0x18, 2 =>
    let r := half .lo v &&& 0x0FFF
    if s.sdramBusy || s.wantsSelfRefresh || (e.sctle && r == 0) then .refused .unitSetting
    else .ok 0 (s.setEbiu { e with sdrrc := r })
  | 0x1C, 2 => .ok 0 (if v.getLsbD 4 then s.setEbiu { e with ease := false } else s)
  | _, _ => .error

end Sys2Proof.Machine
end

