-- ==== Sys2Proof/Machine/Cplb.lean ====
section
/-!
DEFINITION. Where an address leads and which exception an access to it raises: the memory map as a core sees it
(20_memory.md R301, R305), the CPLBs (21_cache_cplb.md section 3) and the classification of accesses (R335, R450).
-/

namespace Sys2Proof.Machine

/-! ## The memory map of a core (R301, R302, R305) -/

/-- What an address is to the core that uses it. -/
inductive Region where
  /-- Memory behind the EBIU: SDRAM, asynchronous banks, and the reserved ranges below 0xEF000000. -/
  | external
  | bootRom
  | l2
  /-- This core's L1 data SRAM: the banks less the halves that serve as cache. -/
  | dataSram
  | scratchpad
  /-- This core's L1 instruction SRAM, less the bank that serves as cache. -/
  | instSram
  /-- The rest of L1 space: 0xFF400000 to 0xFFBFFFFF (D37). -/
  | l1Other
  | sysMmr
  | coreMmr
  /-- Reserved on-chip space outside L1 (D37). -/
  | reserved
  deriving DecidableEq, Repr

/-- This core's scratchpad (R303). -/
def CoreId.scratch : CoreId → Nat
  | .a => Config.scratchA
  | .b => Config.scratchB

/-- This core's L1 instruction SRAM (R305; the upper bank only while it is no cache). -/
def Core.isInstSram (c : Core) (a : Nat) : Bool :=
  let a := a + c.id.l1Shift
  inRange 0xFFA00000 0x4000 a || (!c.imem.imc && inRange 0xFFA10000 0x4000 a)

/-- This core's L1 data SRAM (R305; the upper half of a bank only while it is no cache). -/
def Core.isDataSram (c : Core) (a : Nat) : Bool :=
  let a := a + c.id.l1Shift
  inRange 0xFF800000 0x4000 a || inRange 0xFF900000 0x4000 a
    || (!c.dmem.bankCached false && inRange 0xFF804000 0x4000 a)
    || (!c.dmem.bankCached true && inRange 0xFF904000 0x4000 a)

/-- The region of an address for core `c` (R301). -/
def Core.region (c : Core) (a : Nat) : Region :=
  if a < 0xEF000000 then .external
  else if a < 0xEF000800 then .bootRom
  else if inRange Config.l2Base 0x20000 a then .l2
  else if a < 0xFF400000 then .reserved
  else if 0xFFE00000 ≤ a then .coreMmr
  else if 0xFFC00000 ≤ a then .sysMmr
  else if c.isDataSram a then .dataSram
  else if inRange c.id.scratch 0x1000 a then .scratchpad
  else if c.isInstSram a then .instSram
  else .l1Other

/-! ## CPLBs (R430 to R435) -/

/-- Bits of the address that a page size leaves out: 1 KB, 4 KB, 1 MB, 4 MB (R434). -/
def Cplb.pageBits (e : Cplb) : Nat :=
  match (e.data.extractLsb' 16 2).toNat with
  | 0 => 10
  | 1 => 12
  | 2 => 20
  | _ => 22

/-- The entry is valid and its page holds `a` (R434). -/
def Cplb.hit (e : Cplb) (a : Word) : Bool :=
  e.data.getLsbD 0 && decide (a.toNat / 2 ^ e.pageBits = e.addr.toNat / 2 ^ e.pageBits)

/-- The matching entries (R434), in order. -/
def cplbHits (v : Vector Cplb 16) (a : Word) : List Cplb := v.toList.filter fun e => e.hit a

/-- The FAULT field: which of the entries match (R440, R441). -/
def cplbFault (v : Vector Cplb 16) (a : Word) : Word :=
  (List.range 16).foldl
    (fun w n => if ((v.toList.getD n ⟨0, 0⟩).hit a) then w ||| BitVec.ofNat 32 (2 ^ n) else w) 0

/-- CPLB_L1_CHBL. -/
def Cplb.cacheable (e : Cplb) : Bool := e.data.getLsbD 12
/-- CPLB_WT. -/
def Cplb.writeThrough (e : Cplb) : Bool := e.data.getLsbD 14
/-- CPLB_L1_AOW. -/
def Cplb.allocOnWrite (e : Cplb) : Bool := e.data.getLsbD 15
/-- CPLB_DIRTY. -/
def Cplb.dirty (e : Cplb) : Bool := e.data.getLsbD 7
/-- CPLB_SUPV_WR. -/
def Cplb.supvWr (e : Cplb) : Bool := e.data.getLsbD 4
/-- CPLB_USER_WR. -/
def Cplb.userWr (e : Cplb) : Bool := e.data.getLsbD 3
/-- CPLB_USER_RD. -/
def Cplb.userRd (e : Cplb) : Bool := e.data.getLsbD 2
/-- CPLB_LRUPRIO. -/
def Cplb.lruPrio (e : Cplb) : Bool := e.data.getLsbD 8

/-- The page forbids the access: R335 item 3e. -/
def Cplb.denies (e : Cplb) (user write : Bool) : Bool :=
  if write then
    (if user then !e.userWr else !e.supvWr) || (e.cacheable && !e.writeThrough && !e.dirty)
  else user && !e.userRd

/-! ## Classification (R335) -/

/-- A bit of a status word. -/
def statusBit (b : Bool) (n : Nat) : Word := if b then BitVec.ofNat 32 (2 ^ n) else 0

/-- DCPLB_STATUS of a data fault (R440): FAULT, FAULT_RW, FAULT_USERSUPV, FAULT_DAG, FAULT_ILLADDR. FAULT is 0 while the
CPLBs are disabled (DESIGN CHOICE, log entry 85). -/
def Core.dataStatus (c : Core) (a : Word) (write dag1 ill : Bool) : Word :=
  (if c.dmem.endcplb then cplbFault c.dmem.cplb a else 0)
    ||| statusBit write 16 ||| statusBit (!c.user) 17 ||| statusBit dag1 18 ||| statusBit ill 19

/-- ICPLB_STATUS of a fetch fault (R441): FAULT, 0 while the CPLBs are disabled (log entry 85), FAULT_USERSUPV,
FAULT_ILLADDR. -/
def Core.fetchStatus (c : Core) (a : Word) (ill : Bool) : Word :=
  (if c.imem.enicplb then cplbFault c.imem.cplb a else 0) ||| statusBit (!c.user) 17 ||| statusBit ill 19

/-- A data exception: code, priority on DAG0 (R1722; DAG1 lies four lower), and what it reports. -/
def Core.dataExc (c : Core) (code : BitVec 6) (prio : Nat) (a : Word) (write dag1 ill : Bool) : Exc :=
  ⟨code, if dag1 then prio + 4 else prio, .data a (c.dataStatus a write dag1 ill)⟩

/-- A fetch exception (R1722, R450). -/
def Core.fetchExc (c : Core) (code : BitVec 6) (prio : Nat) (a : Word) (ill : Bool) : Exc :=
  ⟨code, prio, .fetch a (c.fetchStatus a ill)⟩

/-- Item 3 of R335 without the CPLBs (3a to 3d), and whether it counts as an illegal address (R450). -/
def Core.fixedViolation (c : Core) (a : Word) (write dag1 : Bool) : Option Bool :=
  match c.region a.toNat with
  | .sysMmr | .coreMmr => if c.user || dag1 then some false else none
  | .instSram => some false
  | .l1Other => some true
  | .bootRom => if write then some false else none
  | _ => none

/-- The regions that the default descriptors cover (R435). -/
def Core.defaultPage (c : Core) (a : Word) : Bool :=
  match c.region a.toNat with
  | .scratchpad | .sysMmr | .coreMmr => true
  | _ => false

/-- The exception of a data access of `n` bytes at `a` (R335, data side; items 3f is found by the register access
itself). The status of a misaligned access is the free value `st` (D42). -/
def Core.dataCheck (c : Core) (a : Word) (n : Nat) (write dag1 : Bool) (st : Word) : Option Exc :=
  let hits := if c.dmem.endcplb then cplbHits c.dmem.cplb a else []
  if 2 ≤ hits.length then some (c.dataExc 0x27 11 a write dag1 false)
  else if a.toNat % n ≠ 0 then some ⟨0x24, if dag1 then 16 else 12, .data a st⟩
  else
    match c.fixedViolation a write dag1 with
    | some ill => some (c.dataExc 0x23 13 a write dag1 ill)
    | none =>
      match hits with
      | e :: _ => if e.denies c.user write then some (c.dataExc 0x23 13 a write dag1 false) else none
      | [] =>
        if c.dmem.endcplb && !c.defaultPage a then some (c.dataExc 0x26 14 a write dag1 false) else none

/-- The exception of an instruction fetch of the part at `a` (R335, fetch side). -/
def Core.fetchCheck (c : Core) (a : Word) : Option Exc :=
  let hits := if c.imem.enicplb then cplbHits c.imem.cplb a else []
  if 2 ≤ hits.length then some (c.fetchExc 0x2D 2 a false)
  else if a.getLsbD 0 then some .fetchMisaligned
  else
    match c.region a.toNat with
    | .sysMmr | .coreMmr | .dataSram | .scratchpad => some (c.fetchExc 0x2B 4 a false)
    | .l1Other => some (c.fetchExc 0x2B 4 a true)
    | _ =>
      match hits with
      | e :: _ => if c.user && !e.userRd then some (c.fetchExc 0x2B 4 a false) else none
      | [] => if c.imem.enicplb then some (c.fetchExc 0x2C 5 a false) else none

end Sys2Proof.Machine
end

