-- ==== Sys2Proof/Machine/Cache.lean ====
section
/-!
DEFINITION. The memory behind L1 as a core reaches it, the buffers between them (20_memory.md R341), and the L1 caches
(21_cache_cplb.md sections 1 and 2). A valid line is a private copy of 32 bytes. A line fill is a step of its own for
each of its 32-bit words (R1063); an instruction that needs a word that has not come yet is stalled. Which of several
eligible ways of the instruction cache a fill takes is a free choice (R403); the data cache takes an invalid way, else
the one its LRU bit names (R411, R412).
-/

namespace Sys2Proof.Machine

/-- The answer to one access of a core: a value and the new state, an exception, a wait for the bus, a refusal, a
fault. -/
inductive Res (α : Type) where
  | ok (a : α) (s : State)
  | exc (e : Exc) (s : State)
  | stall (s : State)
  | refused (r : Refusal)
  | fault (f : Fault)

/-- Go on with the value of an access. -/
def Res.bind {α β : Type} (x : Res α) (f : α → State → Res β) : Res β :=
  match x with
  | .ok a s => f a s
  | .exc e s => .exc e s
  | .stall s => .stall s
  | .refused r => .refused r
  | .fault f => .fault f

/-! ## Pending stores (R341) -/

/-- The byte that the newest pending store to address `x` holds. -/
def pendByte (ps : List PendStore) (x : Nat) : Option Byte :=
  ps.foldl (fun r p => if p.addr ≤ x ∧ x < p.addr + p.size then some (BitVec.ofNat 8 (p.val / 256 ^ (x - p.addr))) else r)
    none

/-- The `n` bytes at `a`, of which memory holds `v`, as the core that has the pending stores `ps` sees them (G2 of
R340). -/
def overlay (ps : List PendStore) (a : Nat) : Nat → Nat → Nat
  | 0, _ => 0
  | n + 1, v => ((pendByte ps a).getD (BitVec.ofNat 8 v)).toNat + 256 * overlay ps (a + 1) n (v / 256)

/-- Every one of the `n` bytes at `a` is in a pending store. -/
def covered (ps : List PendStore) (a n : Nat) : Bool := (List.range n).all fun k => (pendByte ps (a + k)).isSome

/-- A pending store writes one of the `n` bytes at `a`. -/
def Core.pendingIn (c : Core) (a n : Nat) : Bool :=
  c.stores.any fun p => decide (a < p.addr + p.size) && decide (p.addr < a + n)

/-- The store joins the core's buffers: the instruction that made it is complete (R331 (2)). -/
def State.pend (s : State) (a n v : Nat) : State :=
  s.setCur { s.cur with stores := s.cur.stores ++ [⟨a, n, v⟩] }

/-- The instruction waits for an access to `a`; `load`: an interrupt may cancel it (R344). -/
def State.waitFor (s : State) (a : Nat) (load : Bool) : State := s.setCur { s.cur with waiting := some ⟨a, load⟩ }

/-! ## Memory behind L1 -/

/-- A read of `n` bytes of the memory behind L1 at `a` (R301, R1626). -/
def State.behindRead (s : State) (u : BusUser) (a n : Nat) : BusRes Nat :=
  match s.cur.region a with
  | .external => s.extRead u a n
  | .l2 | .bootRom => .ok (s.mem.loadN a n) s
  | _ => .error s

/-- A write of the low `n` bytes of `v` to the memory behind L1 at `a`. -/
def State.behindWrite (s : State) (u : BusUser) (a n v : Nat) : BusRes Unit :=
  match s.cur.region a with
  | .external => s.extWrite u a n v
  | .l2 => .ok () (s.memStore a n v)
  | _ => .error s

/-- A read behind L1 that the current instruction makes, at address `a`: one that it has made already, before it was
stalled, is not made again (`Core.progress`). -/
def State.tracked (s : State) (a : Nat) (f : State → Res Nat) : Res Nat :=
  let k := s.issue.reads
  let s := { s with issue := { s.issue with reads := k + 1 } }
  match s.cur.progress[k]?.filter (fun x => x.1 == a) with
  | some x => .ok x.2 s
  | none => (f s).bind fun v s => .ok v (s.setCur { s.cur with progress := s.cur.progress.take k ++ [(a, v)] })

/-- A core's load of `n` bytes from the memory behind L1; a failed one gives a free value and the hardware error 0x03
(R337). -/
def State.busLoad (s : State) (a n : Nat) : Res Nat :=
  s.tracked a fun s =>
    match s.behindRead (.load s.cur.id) a n with
    | .ok v s => .ok v s
    | .error s => let (v, s) := s.drawBytes n; .ok v (s.hwError 0x03)
    | .wait s => .stall (s.waitFor a true)
    | .refused r => .refused r

/-- A load past the data cache: the core's own pending stores are seen (R341), and where they hold every byte the access
is not made (R342). -/
def State.uncachedLoad (s : State) (a n : Nat) : Res Nat :=
  if covered s.cur.stores a n then .ok (overlay s.cur.stores a n 0) s
  else (s.busLoad a n).bind fun v s => .ok (overlay s.cur.stores a n v) s

/-! ## Lines -/

/-- The line listed under a key; an unlisted line is invalid, and nothing else of it is known (log entry 69). -/
def lineAt (ls : List (LineKey × Line)) (k : LineKey) : Line :=
  match ls.find? (fun x => x.1 == k) with
  | some x => x.2
  | none => ⟨false, false, false, 0, 0, 0, false⟩

/-- The lines with the one under `k` replaced. -/
def setLine (ls : List (LineKey × Line)) (k : LineKey) (l : Line) : List (LineKey × Line) :=
  (k, l) :: ls.filter fun x => !(x.1 == k)

/-- `n` bytes of a line from byte `o` on. -/
def Line.read (l : Line) (o n : Nat) : Nat := l.data.toNat / 2 ^ (8 * o) % 2 ^ (8 * n)

/-- One of the `n` bytes of a line from byte `o` on holds no value that the spec states. -/
def Line.hole (l : Line) (o n : Nat) : Bool := l.holes.toNat / 2 ^ o % 2 ^ n != 0

/-- A line with its `n` bytes from byte `o` on replaced. -/
def Line.write (l : Line) (o n v : Nat) : Line :=
  let mask : BitVec 256 := BitVec.ofNat 256 ((2 ^ (8 * n) - 1) * 2 ^ (8 * o))
  { l with data := (l.data &&& ~~~ mask) ||| (BitVec.ofNat 256 (v % 2 ^ (8 * n) * 2 ^ (8 * o)))
           holes := l.holes &&& ~~~ (BitVec.ofNat 32 ((2 ^ n - 1) * 2 ^ o)) }

/-- Bits `hi` to `lo` of an address. -/
def addrBits (a lo n : Nat) : Nat := a / 2 ^ lo % 2 ^ n

/-! ## The data cache (R411, R412) -/

/-- The bank that serves `a`: false for A (R411). -/
def DMem.bankOf (d : DMem) (a : Nat) : Bool :=
  if d.dmc == 3 then (if d.dcbs then addrBits a 23 1 == 1 else addrBits a 14 1 == 1) else false

/-- Way `w` of the set of `a` in the data cache. -/
def DMem.key (d : DMem) (a : Nat) (w : Nat) : LineKey :=
  ⟨d.bankOf a, BitVec.ofNat 2 (addrBits a 12 2), BitVec.ofNat 6 (addrBits a 5 6), BitVec.ofNat 2 w⟩

/-- The tag of a data line: a[31:14], a[11], and a 0 (R411). -/
def dataTag (a : Nat) : BitVec 20 := BitVec.ofNat 20 (addrBits a 14 18 * 4 + addrBits a 11 1 * 2)

/-- The address of the line that a key and a tag of the data cache stand for. -/
def dataLineAddr (k : LineKey) (t : BitVec 20) : Nat :=
  t.toNat / 4 * 2 ^ 14 + k.sub.toNat * 2 ^ 12 + t.toNat / 2 % 2 * 2 ^ 11 + k.set.toNat * 32

/-- The way that holds `a`, if the data cache holds it. -/
def DMem.hitWay (d : DMem) (a : Nat) : Option Nat :=
  [0, 1].find? fun w => let l := lineAt d.lines (d.key a w); l.valid && l.tag == dataTag a

/-- The LRU bit of the set with the key `k` of its way 0, where it is known: true when way 1 is the least recently used
(R411). -/
def DMem.lruBit (d : DMem) (k : LineKey) : Option Bool := (d.lru.find? fun x => x.1 == k).map (·.2)

/-- The LRU bit of the set with the key `k` of its way 0 becomes `b`. -/
def DMem.setLru (d : DMem) (k : LineKey) (b : Bool) : DMem :=
  { d with lru := (k, b) :: d.lru.filter fun x => !(x.1 == k) }

/-- Way `w` of the set of `a` has been used (DEDUCED: the use of a way makes the other one the least recently used). -/
def DMem.use (d : DMem) (a w : Nat) : DMem := d.setLru (d.key a 0) (w == 0)

/-- The state with the data memory controller of the current core replaced. -/
def State.setDmem (s : State) (d : DMem) : State := s.setCur { s.cur with dmem := d }

/-- The state with the instruction memory controller of the current core replaced. -/
def State.setImem (s : State) (m : IMem) : State := s.setCur { s.cur with imem := m }

/-- The page of `a` is cacheable and a bank serves as cache for it: the page's descriptor (R412). -/
def Core.dataPage (c : Core) (a : Word) : Option Cplb :=
  if c.dmem.endcplb && c.dmem.bankCached (c.dmem.bankOf a.toNat) then
    match cplbHits c.dmem.cplb a with
    | e :: _ => if e.cacheable then some e else none
    | [] => none
  else none

/-- Events 0x9A to 0x9D of the performance monitor: a fill of, or a victim from, bank A or B (R1882). -/
def State.countCache (s : State) (victim bank : Bool) : State :=
  s.count (0x9A + (if victim then 2 else 0) + (if bank then 1 else 0))

/-- The dirty line under `k` goes to the write buffers, as one write-back of its 32 bytes, and is clean (R412). -/
def State.writeBack (s : State) (k : LineKey) : State :=
  let d := s.cur.dmem
  let l := lineAt d.lines k
  if l.valid && l.dirty then
    (s.setDmem { d with lines := setLine d.lines k { l with dirty := false } }).pend (dataLineAddr k l.tag) 32
      (l.read 0 32)
  else s

/-- The LRU bit of the set with the key `k` of its way 0; where nothing has stated it since reset it is free, and stays as it
is drawn now (R1935, U2). -/
def State.lruOf (s : State) (k : LineKey) : Bool × State :=
  match s.cur.dmem.lruBit k with
  | some b => (b, s)
  | none =>
    let (b, s) := s.drawBit
    (b, s.setDmem (s.cur.dmem.setLru k b))

/-! ## Lines that hold nothing that the spec states (R405, R414, R1935) -/

/-- A line is listed under the key. -/
def listed (ls : List (LineKey × Line)) (k : LineKey) : Bool := ls.any fun x => x.1 == k

/-- An invalid line about which nothing else is known: its tag entry is free (R1935, log entry 69), and so are its bytes;
`holes`: an instruction line, the bytes of which hold no value that the spec states. -/
def State.blankLine (s : State) (holes : Bool) : Line × State :=
  let v := (List.range 8).foldl (fun n j => n * 2 ^ 32 + (Config.freeWord (s.free + j)).toNat) 0
  let w := Config.freeWord (s.free + 8)
  (⟨false, w.getLsbD 1, w.getLsbD 1, w.extractLsb' 12 20 &&& (if holes then 0xFFFFF else 0xFFFFE), BitVec.ofNat 256 v,
      if holes then 0xFFFFFFFF else 0, false⟩,
    { s with free := s.free + 9 })

/-- The lines `ls` when the array of those that do not stay (`keep`) serves as cache no longer: they are invalid and keep
their tag entries, and of their bytes nothing is known (R400, R405 (c), R414 (b)). -/
def State.voidLines (s : State) (holes : Bool) (keep : LineKey → Bool) :
    List (LineKey × Line) → List (LineKey × Line) × State
  | [] => ([], s)
  | (k, l) :: ls =>
    if keep k then
      let (rest, s) := State.voidLines s holes keep ls
      ((k, l) :: rest, s)
    else
      let (b, s) := s.blankLine holes
      let (rest, s) := State.voidLines s holes keep ls
      ((k, { l with valid := false, data := b.data, holes := b.holes, placed := false }) :: rest, s)

/-! ## Line fills (R402, R412) -/

/-- The word of the line that the fill reads next: the double word that was asked for first, then wrapping. -/
def Fill.next (f : Fill) : Nat := (f.first + f.got.length / 2) % 4 * 2 + f.got.length % 2

/-- Word `j` of the line, if the fill has read it. -/
def Fill.word (f : Fill) (j : Nat) : Option FillWord := f.got[(j / 2 + 4 - f.first) % 4 * 2 + j % 2]?

/-- The line that a complete fill has read. -/
def Fill.line (f : Fill) (tag : BitVec 20) (lruprio : Bool) : Line :=
  let ws := (List.range 8).map fun j => (f.word j).getD ⟨0, 0xF⟩
  ⟨true, false, lruprio, tag, BitVec.ofNat 256 (ws.foldr (fun w n => w.data.toNat + 2 ^ 32 * n) 0),
    BitVec.ofNat 32 (ws.foldr (fun w n => w.holes.toNat + 16 * n) 0), false⟩

/-- The data cache begins to fill the line of `a`, unless it fills one already. -/
def State.startFill (s : State) (a : Nat) : State :=
  if s.cur.dfill.isSome then s
  else s.setCur { s.cur with dfill := some ⟨a / 32 * 32, a % 32 / 8, false, [], [], false⟩ }

/-- The fill of the line of `a` is under way. -/
def Core.filling (c : Core) (a : Nat) : Option Fill := c.dfill.filter fun f => f.base == a / 32 * 32

/-- The way that a fill for `a` takes: an invalid one, else the least recently used (R411, R412). -/
def State.fillWay (s : State) (a : Nat) : Nat × State :=
  let d := s.cur.dmem
  if !(lineAt d.lines (d.key a 0)).valid then (0, s)
  else if !(lineAt d.lines (d.key a 1)).valid then (1, s)
  else
    let (b, s) := s.lruOf (d.key a 0)
    (if b then 1 else 0, s)

/-- The line that a complete fill of the data cache installs: what it has read, and over it the stores that the core has
made to the line meanwhile (R412). -/
def Fill.dataLine (f : Fill) : Line :=
  { f.stores.foldl (fun l p => l.write (p.addr % 32) p.size p.val) (f.line (dataTag f.base) false) with dirty := f.dirty }

/-- A complete fill is installed: a dirty victim is written back first, and its data reach memory before the way is
reused (R412, R419). A fill counts as a use of the way (log entry 41). -/
def State.installData (s : State) (f : Fill) : State :=
  let (w, s) := s.fillWay f.base
  let d := s.cur.dmem
  let k := d.key f.base w
  let l := lineAt d.lines k
  if l.valid && l.dirty then (s.writeBack k).countCache true k.bank
  else if l.valid && s.cur.pendingIn (dataLineAddr k l.tag) 32 then s
  else
    (s.setCur { s.cur with
      dfill := none
      dmem := { d with lines := setLine d.lines k f.dataLine }.use f.base w }).countCache false k.bank

/-- The `n` bytes at `a` of a line that is being filled, if they have come: the core's own stores to the line are seen
(G2 of R340). -/
def Fill.load (f : Fill) (a n : Nat) : Option Nat :=
  if covered f.stores a n then some (overlay f.stores a n 0)
  else (f.word (a % 32 / 4)).map fun w => overlay f.stores a n (w.data.toNat / 2 ^ (8 * (a % 4)) % 2 ^ (8 * n))

/-- A store to the line that is being filled: the fill takes it along; `dirty`: the page is write-back (R412). -/
def State.mergeStore (s : State) (a n v : Nat) (dirty : Bool) : State :=
  s.setCur { s.cur with
    dfill := s.cur.dfill.map fun f => { f with stores := f.stores ++ [⟨a, n, v⟩], dirty := f.dirty || dirty } }

/-- A load through the data cache (R412): on a miss the word comes from the line fill. -/
def State.cachedLoad (s : State) (a n : Nat) : Res Nat :=
  match s.cur.dmem.hitWay a with
  | some w =>
    let d := s.cur.dmem
    .ok ((lineAt d.lines (d.key a w)).read (a % 32) n) (s.setDmem (d.use a w))
  | none =>
    match (s.cur.filling a).bind (fun f => f.load a n) with
    | some v => .ok v s
    | none => .stall ((s.startFill a).waitFor a true)

/-- Write into the line of `a` in way `w`. -/
def State.writeLine (s : State) (a w n v : Nat) (dirty : Bool) : State :=
  let d := s.cur.dmem
  let l := lineAt d.lines (d.key a w)
  let l := { l.write (a % 32) n v with dirty := l.dirty || dirty }
  s.setDmem ({ d with lines := setLine d.lines (d.key a w) l }.use a w)

/-- A store through the data cache by the mode of its page (R412, R433). The core goes on under a store miss: the store
waits in the line fill that it begins or finds (hit under a store miss); only while another line is being filled does the
core wait with it. -/
def State.cachedStore (s : State) (page : Cplb) (a n v : Nat) : Res Unit :=
  match s.cur.dmem.hitWay a with
  | some w =>
    .ok () (if page.writeThrough then (s.pend a n v).writeLine a w n v false else s.writeLine a w n v true)
  | none =>
    let through (s : State) : State := if page.writeThrough then s.pend a n v else s
    if (s.cur.filling a).isSome then .ok () ((through s).mergeStore a n v (!page.writeThrough))
    else if page.writeThrough && !page.allocOnWrite then .ok () (s.pend a n v)
    else if s.cur.dfill.isSome then .stall (s.waitFor a false)
    else .ok () (((through s).startFill a).mergeStore a n v (!page.writeThrough))

/-- FLUSH and FLUSHINV of the line of `a` (R413): write it back if it is dirty; `inv`: then invalidate it. Whether FLUSH
leaves a clean line of a write-through page valid is free: R412 says that it is invalidated, R413 that FLUSH is a NOP (log
entry 70). -/
def State.flushLine (s : State) (a : Word) (inv : Bool) : State :=
  match s.cur.dmem.hitWay a.toNat with
  | none => s
  | some w =>
    let k := s.cur.dmem.key a.toNat w
    let through := (s.cur.dataPage a).any Cplb.writeThrough && !(lineAt s.cur.dmem.lines k).dirty
    let s := s.writeBack k
    let (go, s) := if through && !inv then s.drawBit else (inv, s)
    if go then
      let l := lineAt s.cur.dmem.lines k
      s.setDmem { s.cur.dmem with lines := setLine s.cur.dmem.lines k { l with valid := false } }
    else s

/-! ## The instruction cache (R401 to R405) -/

/-- Way `w` of the set of `a` in the instruction cache. -/
def instKey (a w : Nat) : LineKey :=
  ⟨false, BitVec.ofNat 2 (addrBits a 12 2), BitVec.ofNat 6 (addrBits a 5 5), BitVec.ofNat 2 w⟩

/-- The tag of an instruction line: a[31:14], a[11:10] (R401). -/
def instTag (a : Nat) : BitVec 20 := BitVec.ofNat 20 (addrBits a 14 18 * 4 + addrBits a 10 2)

/-- The way that holds `a`, if the instruction cache holds it. -/
def IMem.hitWay (m : IMem) (a : Nat) : Option Nat :=
  [0, 1, 2, 3].find? fun w => let l := lineAt m.lines (instKey a w); l.valid && l.tag == instTag a

/-- The page of `a` is cacheable and the upper bank serves as cache (R402). -/
def Core.instPage (c : Core) (a : Word) : Option Cplb :=
  if c.imem.imc && c.imem.enicplb then
    match cplbHits c.imem.cplb a with
    | e :: _ => if e.cacheable then some e else none
    | [] => none
  else none

/-- The ways that a fill for a page of importance `high` may take (R403, R404): an invalid unlocked way first, else
unlocked ways of low importance, else for a page of high importance any unlocked way. -/
def IMem.victims (m : IMem) (a : Nat) (high : Bool) : List Nat :=
  let free := [0, 1, 2, 3].filter fun w => !m.iloc.getLsbD w
  match free.find? fun w => !(lineAt m.lines (instKey a w)).valid with
  | some w => [w]
  | none =>
    let lows := free.filter fun w => !(lineAt m.lines (instKey a w)).lruprio
    if lows.isEmpty then (if high then free else []) else lows

/-- Install a fetched line, unless no way may take it (R402, R403). -/
def State.installInst (s : State) (f : Fill) : State :=
  let m := s.cur.imem
  let s := s.setCur { s.cur with ifill := none }
  match m.victims f.base f.prio with
  | [] => s
  | w0 :: ws =>
    let (w, s) :=
      if ws.isEmpty then (w0, s)
      else
        let (n, s) := s.drawNat
        ((w0 :: ws).getD (n % (ws.length + 1)) w0, s)
    s.setImem { m with
      lines := setLine m.lines (instKey f.base w) (f.line (instTag f.base) (f.prio && !m.lrupriorst)) }

/-- The bytes of the 32-bit word at `a` that hold no value that the spec states (R1935). -/
def State.holesAt (s : State) (a : Nat) : BitVec 4 :=
  let bits (b : Nat) : BitVec 4 :=
    BitVec.ofNat 4 ((List.range 4).foldr (fun k n => (if (s.mem.read (b + k)).isNone then 1 else 0) + 2 * n) 0)
  match s.cur.region a with
  | .external => (match s.extMap a with | (.ram, b) | (.rom, b) => bits b | _ => 0xF)
  | _ => bits a

/-- A line fill reads its next word (R402, R412). A word whose access fails is a free value, in the instruction cache a
hole too, with the hardware error 0x03 in either case (R337, R1625). -/
def State.fillWord (s : State) (inst : Bool) (f : Fill) : BusRes FillWord :=
  let a := f.base + 4 * f.next
  match s.behindRead (if inst then .instFill s.cur.id else .dataFill s.cur.id) a 4 with
  | .ok v t => .ok ⟨BitVec.ofNat 32 v, if inst then s.holesAt a else 0⟩ t
  | .error t =>
    let (w, t) := t.drawWord
    .ok ⟨w, if inst then 0xF else 0⟩ (t.hwError 0x03)
  | .wait t => .wait t
  | .refused r => .refused r

/-- A line fill reads its next `n` words. -/
def State.fillWords (s : State) (inst : Bool) (f : Fill) : Nat → BusRes Fill
  | 0 => .ok f s
  | n + 1 =>
    match s.fillWord inst f with
    | .ok w t => State.fillWords t inst { f with got := f.got ++ [w] } n
    | .error t => .error t
    | .wait t => .wait t
    | .refused r => .refused r

/-- One step of the line fill of the current core's data or instruction cache: from external memory one 32-bit word
(R1063), from on-chip memory the whole line, which no other user of the L2 comes between (R1058). -/
def State.fillStep (s : State) (inst : Bool) : Outcome :=
  match (if inst then s.cur.ifill else s.cur.dfill) with
  | none => .next s
  | some f =>
    if f.got.length < 8 then
      match s.fillWords inst f (if s.cur.region f.base == .external then 1 else 8 - f.got.length) with
      | .ok f t => .next (t.setCur (if inst then { t.cur with ifill := some f } else { t.cur with dfill := some f }))
      | .error t | .wait t => .next t
      | .refused r => .refused r
    else
      .next (if inst then s.installInst f else s.installData f)

/-- A line fill can go on: for the data cache the stores of its core to the line are performed first (G2 of R340); what
an instruction fill brings may be older than they are (R349 (b)). -/
def Core.fills (c : Core) (inst : Bool) : Bool :=
  if inst then c.ifill.isSome else c.dfill.any fun f => decide (8 ≤ f.got.length) || !c.pendingIn f.base 32

/-! ## Instruction fetch (R333, R402, R349) -/

/-- A half word as a fetch delivers it: bytes that hold no stated value stop it (R1935, D50). -/
def OldHalf.fetch (h : OldHalf) (s : State) : Res Nat :=
  match h.lo, h.hi with
  | some x, some y => .ok (x.toNat + 256 * y.toNat) s
  | _, _ => .fault .fetchUnspecified

/-- Where the memory behind L1 keeps the byte at `a`, if that is memory. -/
def State.behindAddr (s : State) (a : Nat) : Option Nat :=
  match s.cur.region a with
  | .external => (match s.extMap a with | (.ram, b) | (.rom, b) => some b | _ => none)
  | .l2 | .bootRom => some a
  | _ => none

/-- The half word that memory has at `b`. -/
def Mem.halfAt (m : Mem) (b : Nat) : OldHalf := ⟨b, m.read b, m.read (b + 1)⟩

/-- What memory had at `b` at the writes since the core last synchronised (R349). -/
def Core.oldHalves (c : Core) (b : Nat) : List OldHalf := c.stale.filter fun h => h.addr == b

/-- The fetch delivers `h` or one of `others`, which is free (R349). -/
def State.pickHalf (s : State) (h : OldHalf) (others : List OldHalf) : Res Nat :=
  match others with
  | [] => h.fetch s
  | _ =>
    let (n, s) := s.drawNat
    ((h :: others).getD (n % (others.length + 1)) h).fetch s

/-- The half word from byte `o` of a line on, under the address `a`. -/
def Line.halfAt (l : Line) (a o : Nat) : OldHalf :=
  let at_ (o : Nat) : Option Byte := if l.hole o 1 then none else some (BitVec.ofNat 8 (l.read o 1))
  ⟨a, at_ o, at_ (o + 1)⟩

/-- The half word that memory has at `b`, or one that it had since the core last synchronised, which is free (R349). -/
def State.fetchMem (s : State) (b : Nat) : Res Nat := s.pickHalf (s.mem.halfAt b) (s.cur.oldHalves b)

/-- The half word `h` of a line for `a`, or, where memory behind L1 has, or had since the core last synchronised, another one
there, that one: code that was modified and not synchronised with runs as it was or as it is (R349; log entry 17). -/
def State.fetchLine (s : State) (a : Nat) (h : OldHalf) : Res Nat :=
  let behind (b : Nat) : List OldHalf :=
    (s.mem.halfAt b :: s.cur.oldHalves b).filter fun x =>
      x.lo.isSome && x.hi.isSome && (x.lo != h.lo || x.hi != h.hi)
  s.pickHalf h ((s.behindAddr a).elim [] behind)

/-- The half word at `a` behind L1, past the instruction cache. -/
def State.fetchDirect (s : State) (a : Nat) : Res Nat :=
  match s.cur.region a with
  | .external =>
    (match s.extAccess (.fetch s.cur.id) a with
     | .ok _ s => (match s.extMap a with | (.ram, b) | (.rom, b) => s.fetchMem b | _ => .fault .fetchUnspecified)
     | .error _ => .fault .fetchUnspecified
     | .wait s => .stall (s.waitFor a false)
     | .refused r => .refused r)
  | .l2 | .bootRom => s.fetchMem a
  | _ => .fault .fetchUnspecified

/-- The half word at `a` of a line that the instruction cache does not hold: it comes from the line fill. -/
def State.fetchMiss (s : State) (page : Cplb) (a : Nat) : Res Nat :=
  let base := a / 32 * 32
  match (s.cur.ifill.filter fun f => f.base == base).bind fun f => f.word (a % 32 / 4) with
  | some w =>
    let at_ (o : Nat) : Option Byte :=
      if w.holes.getLsbD o then none else some (BitVec.ofNat 8 (w.data.toNat / 2 ^ (8 * o)))
    s.fetchLine a ⟨a, at_ (a % 4), at_ (a % 4 + 1)⟩
  | none =>
    let fill := s.cur.ifill.getD ⟨base, a % 32 / 8, page.lruPrio, [], [], false⟩
    .stall ((s.setCur { s.cur with ifill := some fill }).waitFor a false)

/-- The half word at `a` of a cacheable page. A line that no way may take is read past the cache (R402, R403). -/
def State.fetchCached (s : State) (page : Cplb) (a : Nat) : Res Nat :=
  match s.cur.imem.hitWay a with
  | some w =>
    let l := lineAt s.cur.imem.lines (instKey a w)
    let h := l.halfAt a (a % 32)
    if l.placed then h.fetch s else s.fetchLine a h
  | none =>
    s.tracked a fun s =>
      if (s.cur.imem.victims a page.lruPrio).isEmpty then s.fetchDirect a else s.fetchMiss page a

/-- While the System Software reset lasts, a fetch at `a` from outside L1 instruction memory, SRAM or cache, is refused
(R1934). -/
def State.fetchHeld (s : State) (a : Word) : Bool :=
  s.sys.ctl.swrst == 7 && !(s.cur.region a.toNat == .instSram)
    && !((s.cur.instPage a).isSome && (s.cur.imem.hitWay a.toNat).isSome)

/-- The two bytes that an instruction fetch reads at the even address `a` (R333). -/
def State.fetchHalf (s : State) (a : Word) : Res Nat :=
  match s.cur.fetchCheck a with
  | some e => .exc e s
  | none =>
    let n := a.toNat
    if s.fetchHeld a then .refused .unitSetting
    else if s.cur.region n == .instSram then s.fetchMem n
    else
      match s.cur.instPage a with
      | none => s.tracked n fun s => s.fetchDirect n
      | some page => s.fetchCached page n

/-- The address of the line that a key and a tag of the instruction cache stand for. -/
def instLineAddr (k : LineKey) (t : BitVec 20) : Nat :=
  t.toNat / 4 * 2 ^ 14 + k.sub.toNat * 2 ^ 12 + t.toNat % 4 * 2 ^ 10 + k.set.toNat * 32

/-- The valid line `l` under `k` goes out of use: until the core synchronises, what it holds may still execute where
memory has something else (R349: a CSYNC follows the invalidation; log entry 17). -/
def State.outdateLine (s : State) (k : LineKey) (l : Line) : State :=
  match (if l.valid then s.behindAddr (instLineAddr k l.tag) else none) with
  | none => s
  | some b =>
    let olds := ((List.range 16).map fun j => l.halfAt (b + 2 * j) (2 * j)).filter fun h => h != s.mem.halfAt h.addr
    s.setCur { s.cur with stale := olds ++ s.cur.stale }

/-- IFLUSH of the line of `a` (R405 (a)): locked ways too. -/
def State.iflushLine (s : State) (a : Nat) : State :=
  match s.cur.imem.hitWay a with
  | none => s
  | some w =>
    let k := instKey a w
    let l := lineAt s.cur.imem.lines k
    (s.outdateLine k l).setImem { s.cur.imem with lines := setLine s.cur.imem.lines k { l with valid := false } }

end Sys2Proof.Machine
end

