-- ==== Sys2Proof/Machine/CoreMmr.lean ====
section
/-!
DEFINITION. The 124 core memory-mapped registers of the core that makes the access (11_core_mmrs.md R150 to R159),
by the offset from 0xFFE00000. An offset with no register answers `error` (R151: exception 0x23). A bit that no rule
defines reads its reset value whatever was stored (U1).
-/

namespace Sys2Proof.Machine

/-- A one-bit field at position `n`. -/
def fld (b : Bool) (n : Nat) : Word := if b then BitVec.ofNat 32 (2 ^ n) else 0

/-- A field of several bits at position `n`. -/
def fldN {k : Nat} (v : BitVec k) (n : Nat) : Word := BitVec.ofNat 32 (v.toNat * 2 ^ n)

/-! ## Register images -/

/-- IMEM_CONTROL (R400); the reserved bit 0 reads 1. -/
def IMem.control (m : IMem) : Word :=
  1 ||| fld m.enicplb 1 ||| fld m.imc 2 ||| fldN m.iloc 3 ||| fld m.lrupriorst 13

/-- DMEM_CONTROL (R410); the reserved bit 0 reads 1. -/
def DMem.control (d : DMem) : Word :=
  1 ||| fld d.endcplb 1 ||| fldN d.dmc 2 ||| fld d.dcbs 4 ||| fld d.portPref0 12 ||| fld d.portPref1 13

/-- TCNTL (R1560). -/
def CoreTimer.control (t : CoreTimer) : Word := fld t.tmpwr 0 ||| fld t.tmren 1 ||| fld t.tautorld 2 ||| fld t.tint 3

/-- TBUFCTL (R1870). -/
def TraceUnit.control (t : TraceUnit) : Word := fld t.pwr 0 ||| fld t.en 1 ||| fld t.ovf 2 ||| fldN t.cmplp 3

/-- The silicon revision field of DSPID (R1905). -/
def revisionCode : Config.Revision → Word
  | .r0_0 => 0
  | .r0_1 => 1
  | .r0_2 => 2
  | .r0_3 => 3
  | .r0_5 => 5

/-- DSPID (R1905): the register by which a program tells the cores apart. -/
def CoreId.dspid (c : CoreId) : Word :=
  0xE5040000 ||| (revisionCode Config.siliconRev <<< 8) ||| (match c with | .a => 0 | .b => 1)

/-! ## The test registers (R406, R407, R417, R418) -/

/-- The tag entry of an instruction line as ITEST_DATA0 shows it (R407). -/
def instTagWord (l : Line) : Word :=
  fldN (l.tag.extractLsb' 2 18) 14 ||| fldN (l.tag.extractLsb' 0 2) 10 ||| fld l.lruprio 1 ||| fld l.valid 0

/-- The line `l` with the tag entry of ITEST_DATA0 (R407). -/
def instTagOf (l : Line) (w : Word) : Line :=
  { l with tag := w.extractLsb' 14 18 ++ w.extractLsb' 10 2, lruprio := w.getLsbD 1, valid := w.getLsbD 0 }

/-- The tag entry of a data line as DTEST_DATA0 shows it; `lru`: the LRU bit of its set (R418). -/
def dataTagWord (l : Line) (lru : Bool) : Word :=
  fldN (l.tag.extractLsb' 2 18) 14 ||| fld (l.tag.getLsbD 1) 11 ||| fld lru 2 ||| fld l.dirty 1 ||| fld l.valid 0

/-- The line `l` with the tag entry of DTEST_DATA0 (R418). -/
def dataTagOf (l : Line) (w : Word) : Line :=
  { l with tag := (w.extractLsb' 14 18 ++ w.extractLsb' 11 1) ++ (0 : BitVec 1), dirty := w.getLsbD 1,
           valid := w.getLsbD 0 }

/-- The double word `dw` of a line (R401). -/
def Line.dword (l : Line) (dw : Nat) : Nat := l.read (8 * dw) 8

/-- The instruction line under `k`, about to be read or written by a test access. One that is not listed is drawn and listed:
what it holds stays until something writes it (R1935, U2); LRUPRIO is 0 in it once LRUPRIORST has been 1 (R400). -/
def State.instTest (s : State) (k : LineKey) : Line × State :=
  let m := s.cur.imem
  if listed m.lines k then (lineAt m.lines k, s)
  else
    let (l, s) := s.blankLine true
    let l := { l with lruprio := l.lruprio && !m.lowPrio }
    (l, s.setImem { m with lines := setLine m.lines k l })

/-- The data line under `k`, about to be read or written by a test access; one that is not listed as in `State.instTest`. -/
def State.dataTest (s : State) (k : LineKey) : Line × State :=
  let d := s.cur.dmem
  if listed d.lines k then (lineAt d.lines k, s)
  else
    let (l, s) := s.blankLine false
    (l, s.setDmem { d with lines := setLine d.lines k l })

/-- A test access writes the instruction line under `k`. -/
def State.placeInst (s : State) (k : LineKey) (l : Line) : State :=
  s.setImem { s.cur.imem with lines := setLine s.cur.imem.lines k { l with placed := true } }

/-- A test access writes the data line under `k`. -/
def State.placeData (s : State) (k : LineKey) (l : Line) : State :=
  s.setDmem { s.cur.dmem with lines := setLine s.cur.dmem.lines k { l with placed := true } }

/-- ITEST_DATA0 and ITEST_DATA1 take a double word. -/
def State.itestData (s : State) (v : Nat) : State :=
  s.setImem { s.cur.imem with testData0 := BitVec.ofNat 32 v, testData1 := BitVec.ofNat 32 (v / 2 ^ 32) }

/-- A store of `c` to ITEST_COMMAND (R406). With IMC = 0 the data array is the configurable bank as SRAM. -/
def itest (c : Word) (s : State) : State :=
  let m := { s.cur.imem with testCommand := c &&& 0x0C0303FE }
  let k : LineKey := ⟨false, c.extractLsb' 16 2, (c.extractLsb' 5 5).zeroExtend 6, c.extractLsb' 26 2⟩
  let dw := (c.extractLsb' 3 2).toNat
  let data := m.testData0.toNat + m.testData1.toNat * 2 ^ 32
  let sram := 0xFFA10000 - s.cur.id.l1Shift + k.sub.toNat * 2 ^ 12 + k.way.toNat * 2 ^ 10 + k.set.toNat * 32 + dw * 8
  let s := s.setImem m
  if c.getLsbD 2 then
    if c.getLsbD 1 then
      if m.imc then
        let (l, s) := s.instTest k
        s.placeInst k (l.write (8 * dw) 8 data)
      else s.memStore sram 8 data
    else if m.imc then
      let (l, s) := s.instTest k
      s.itestData (l.dword dw)
    else s.itestData (s.mem.loadN sram 8)
  else
    let (l, s) := s.instTest k
    if c.getLsbD 1 then s.placeInst k (instTagOf l m.testData0)
    else s.setImem { s.cur.imem with testData0 := instTagWord l }

/-- DTEST_DATA0 and DTEST_DATA1 take a double word. -/
def State.dtestData (s : State) (v : Nat) : State :=
  s.setDmem { s.cur.dmem with testData0 := BitVec.ofNat 32 v, testData1 := BitVec.ofNat 32 (v / 2 ^ 32) }

/-- A store of `c` to DTEST_COMMAND (R417): the data cache arrays, or the L1 instruction SRAM at 0xFFA00000 (for which the
rule looks at no Array Access bit). What a reserved combination does (a data access with bit 14 = 0, an instruction access
with bit 23 or bit 14 = 1) the spec does not say: the register takes the value, no array is accessed, and a read leaves
DTEST_DATA0 and DTEST_DATA1 free (DESIGN CHOICE, log entry 67). -/
def dtest (c : Word) (s : State) : State :=
  let d := { s.cur.dmem with testCommand := c &&& 0x058347FE }
  let dw := (c.extractLsb' 3 2).toNat
  let data := d.testData0.toNat + d.testData1.toNat * 2 ^ 32
  let off := (c.extractLsb' 16 2).toNat * 2 ^ 12 + (c.extractLsb' 26 1).toNat * 2 ^ 11
    + (c.extractLsb' 5 6).toNat * 32 + dw * 8
  let write := c.getLsbD 1
  let s := s.setDmem d
  let sram (a : Nat) : State := if write then s.memStore a 8 data else s.dtestData (s.mem.loadN a 8)
  if c.getLsbD 24 == c.getLsbD 14 || (c.getLsbD 24 && c.getLsbD 23) then
    if write then s
    else
      let (x, s) := s.drawWord
      let (y, s) := s.drawWord
      s.dtestData (x.toNat + y.toNat * 2 ^ 32)
  else if c.getLsbD 24 then sram (0xFFA00000 - s.cur.id.l1Shift + off)
  else
    let bank := c.getLsbD 23
    let k : LineKey := ⟨bank, c.extractLsb' 16 2, c.extractLsb' 5 6, (c.extractLsb' 26 1).zeroExtend 2⟩
    let k0 := { k with way := 0 }
    if c.getLsbD 2 then
      if !d.bankCached bank then sram ((if bank then 0xFF904000 else 0xFF804000) - s.cur.id.l1Shift + off)
      else
        let (l, s) := s.dataTest k
        if write then s.placeData k (l.write (8 * dw) 8 data) else s.dtestData (l.dword dw)
    else
      let (l, s) := s.dataTest k
      if write then
        let s := s.placeData k (dataTagOf l d.testData0)
        s.setDmem (s.cur.dmem.setLru k0 (d.testData0.getLsbD 2))
      else
        let (b, s) := s.lruOf k0
        s.setDmem { s.cur.dmem with testData0 := dataTagWord l b }

/-! ## Loads -/

/-- A load of TBUF (R1873): the newest entry's target, then its source, which removes it; a free value when empty. Where a
discontinuity is recorded between the two, the second load gives the new entry's source and removes that entry (DESIGN
CHOICE, log entry 105). -/
def tbufRead (s : State) : MmrRes :=
  let t := s.cur.trace
  match t.entries with
  | [] => let (w, s) := s.drawWord; .ok w s
  | e :: es =>
    if t.half then .ok e.src (s.setCur { s.cur with trace := { t with entries := es, half := false } })
    else .ok e.dst (s.setCur { s.cur with trace := { t with half := true } })

/-- An entry of a register array at `base` with the step 4. -/
def nth {α : Type} (l : List α) (base off : Nat) : Option α :=
  if base ≤ off ∧ off % 4 = 0 then l[(off - base) / 4]? else none

/-- A 32-bit load from the core MMR at offset `off` (R152 to R159). -/
def coreMmrRead (off : Nat) (s : State) : MmrRes :=
  let c := s.cur
  let ok (w : Word) : MmrRes := .ok w s
  let arr (l : List Word) (base : Nat) : MmrRes :=
    match nth l base off with
    | some w => .ok w s
    | none => .error
  match off with
  | 0x0004 => ok c.dmem.control
  | 0x0008 => ok c.dmem.status
  | 0x000C => ok c.dmem.faultAddr
  | 0x0300 => ok c.dmem.testCommand
  | 0x0400 => ok c.dmem.testData0
  | 0x0404 => ok c.dmem.testData1
  | 0x1004 => ok c.imem.control
  | 0x1008 => ok c.imem.status
  | 0x100C => ok c.imem.faultAddr
  | 0x1300 => ok c.imem.testCommand
  | 0x1400 => ok c.imem.testData0
  | 0x1404 => ok c.imem.testData1
  | 0x2104 => ok (ofH c.ev.imask)
  | 0x2108 => ok (ofH c.ev.ipend)
  | 0x210C => ok (ofH c.ev.ilat)
  | 0x2110 => ok (fldN c.ev.iprio 0)
  | 0x3000 => ok c.tmr.control
  | 0x3004 => ok c.tmr.tperiod
  | 0x3008 => ok (fldN c.tmr.tscale 0)
  | 0x300C => ok c.tmr.tcount
  | 0x5000 => ok c.id.dspid
  | 0x6000 => ok c.trace.control
  | 0x6004 => ok (BitVec.ofNat 32 c.trace.entries.length)
  | 0x6100 => tbufRead s
  | 0x7000 => ok c.wp.iactl
  | 0x7100 => ok c.wp.dactl
  | 0x7200 => ok (fldN c.wp.stat 0)
  | 0x8000 => ok c.perf.ctl
  | 0x8100 => ok c.perf.cntr0
  | 0x8104 => ok c.perf.cntr1
  | _ =>
    if off < 0x0200 then arr (c.dmem.cplb.toList.map (·.addr)) 0x0100
    else if off < 0x0300 then arr (c.dmem.cplb.toList.map (·.data)) 0x0200
    else if off < 0x1200 then arr (c.imem.cplb.toList.map (·.addr)) 0x1100
    else if off < 0x1300 then arr (c.imem.cplb.toList.map (·.data)) 0x1200
    else if off < 0x2100 then arr c.ev.evt.toList 0x2000
    else if off < 0x7080 then arr c.wp.ia.toList 0x7040
    else if off < 0x7100 then arr (c.wp.iacnt.toList.map ofH) 0x7080
    else if off < 0x7180 then arr c.wp.da.toList 0x7140
    else arr (c.wp.dacnt.toList.map ofH) 0x7180

/-! ## Stores -/

/-- A store to IMEM_CONTROL (R400, R405 (c)): clearing IMC invalidates every line, and the bank is SRAM with
unspecified contents; a line fill under way is dropped; LRUPRIORST clears the CPLB_LRUPRIO of every line, listed or not. -/
def imemControl (v : Word) (s : State) : State :=
  let m := s.cur.imem
  let imc := v.getLsbD 2
  let low := v.getLsbD 13
  let s := if imc then s else m.lines.foldl (fun s x => s.outdateLine x.1 x.2) s
  let (lines, s) := s.voidLines true (fun _ => imc) m.lines
  let lines := if low then lines.map fun (k, l) => (k, { l with lruprio := false }) else lines
  let s' := s.setImem { m with enicplb := v.getLsbD 1, imc := imc, iloc := v.extractLsb' 3 4, lrupriorst := low,
                               lines := lines, lowPrio := m.lowPrio || low }
  let s' := if imc then s' else s'.setCur { s'.cur with ifill := none }
  let base := 0xFFA10000 - s.cur.id.l1Shift
  if m.imc && !imc then s'.scrub base (base + 0x4000) else s'

/-- A store to DMEM_CONTROL (R410, R414 (b)): DMC = 00 invalidates every line; a half bank that stops serving as cache
is SRAM with unspecified contents; DMC = 01 is reserved. -/
def dmemControl (v : Word) (s : State) : MmrRes :=
  let d := s.cur.dmem
  let dmc := v.extractLsb' 2 2
  if dmc = 1 then .refused .coreMmrSetting
  else
    let d' := { d with endcplb := v.getLsbD 1, dmc := dmc, dcbs := v.getLsbD 4, portPref0 := v.getLsbD 12,
                       portPref1 := v.getLsbD 13 }
    let keep (k : LineKey) : Bool := d'.bankCached k.bank
    let (lines, s) := s.voidLines false keep d.lines
    let s' := s.setDmem { d' with lines := lines }
    let s' := s'.setCur { s'.cur with dfill := s'.cur.dfill.filter fun f => d'.bankCached (d'.bankOf f.base) }
    let a := 0xFF804000 - s.cur.id.l1Shift
    let b := 0xFF904000 - s.cur.id.l1Shift
    let s' := if d.bankCached false && !d'.bankCached false then s'.scrub a (a + 0x4000) else s'
    .ok 0 (if d.bankCached true && !d'.bankCached true then s'.scrub b (b + 0x4000) else s')

/-- A store to TCNTL (R1560 to R1563): TINT takes the written bit (D56); TMREN without TMPWR is refused. -/
def tcntl (v : Word) (s : State) : MmrRes :=
  let t := s.cur.tmr
  if v.getLsbD 1 && !v.getLsbD 0 then .refused .coreMmrSetting
  else
    let t := { t with tmpwr := v.getLsbD 0, tmren := v.getLsbD 1, tautorld := v.getLsbD 2,
                      tint := v.getLsbD 3 }
    .ok 0 (s.setCur { s.cur with tmr := t })

/-- The bounds of an enabled watchpoint range are in order (R1853). -/
def WatchUnit.rangesOk (w : WatchUnit) : Bool :=
  let ia (n : Nat) : Nat := (w.ia.toList.getD n 0).toNat
  (!w.iactl.getLsbD 1 || decide (ia 0 ≤ ia 1)) && (!w.iactl.getLsbD 9 || decide (ia 2 ≤ ia 3))
    && (!w.iactl.getLsbD 17 || decide (ia 4 ≤ ia 5))

/-- No reserved WPDSRC or WPDACC in an enabled data watchpoint (R1856). -/
def WatchUnit.dataOk (w : WatchUnit) : Bool :=
  let en0 := w.dactl.getLsbD 0 || w.dactl.getLsbD 2
  let en1 := !w.dactl.getLsbD 0 && w.dactl.getLsbD 3
  (!en0 || (w.dactl.extractLsb' 6 2 != 0 && w.dactl.extractLsb' 8 2 != 0))
    && (!en1 || (w.dactl.extractLsb' 10 2 != 0 && w.dactl.extractLsb' 12 2 != 0))

/-- A store to the watchpoint unit that leaves it as `w`: refused while the unit is on and a setting is reserved. -/
def wpStore (w : WatchUnit) (s : State) : MmrRes :=
  if w.iactl.getLsbD 0 && !(w.rangesOk && w.dataOk) then .refused .coreMmrSetting
  else .ok 0 (s.setCur { s.cur with wp := w })

/-- A vector with entry `n` replaced, if there is one. -/
def vset {α : Type} {k : Nat} (v : Vector α k) (n : Nat) (x : α) : Vector α k := v.setIfInBounds n x

/-- A store to the core timer's TPERIOD or TCOUNT: the first store after reset to either sets both (R1564). -/
def tcountStore (period : Bool) (v : Word) (s : State) : State :=
  let t := s.cur.tmr
  let t := if period || t.fresh then { t with tcount := v } else t
  let t := if period || t.fresh then { t with tperiod := v } else { t with tcount := v }
  s.setCur { s.cur with tmr := { t with fresh := false } }

/-- A 32-bit store of `v` to the core MMR at offset `off` (R152 to R159). A read-only register ignores it. -/
def coreMmrWrite (off : Nat) (v : Word) (s : State) : MmrRes :=
  let c := s.cur
  let ok (s : State) : MmrRes := .ok 0 s
  let ev (e : EventCtl) : MmrRes := .ok 0 (s.setCur { c with ev := e })
  match off with
  | 0x0004 => dmemControl v s
  | 0x0008 => ok s
  | 0x000C => ok s
  | 0x0300 => ok (dtest v s)
  | 0x0400 => ok (s.setDmem { c.dmem with testData0 := v })
  | 0x0404 => ok (s.setDmem { c.dmem with testData1 := v })
  | 0x1004 => ok (imemControl v s)
  | 0x1008 => ok s
  | 0x100C => ok s
  | 0x1300 => ok (itest v s)
  | 0x1400 => ok (s.setImem { c.imem with testData0 := v })
  | 0x1404 => ok (s.setImem { c.imem with testData1 := v })
  | 0x2104 => ev { c.ev with imask := (half .lo v &&& 0xFFE0) ||| 0x001F }
  | 0x2108 => ok s
  | 0x210C =>
    let clear := half .lo v &&& 0xFFE4
    ev { c.ev with ilat := c.ev.ilat &&& ~~~ clear, raised := c.ev.raised &&& ~~~ clear }
  | 0x2110 => ev { c.ev with iprio := v.extractLsb' 0 4 }
  | 0x3000 => tcntl v s
  | 0x3004 => ok (tcountStore true v s)
  | 0x3008 => ok (s.setCur { c with tmr := { c.tmr with tscale := v.extractLsb' 0 8 } })
  | 0x300C => ok (tcountStore false v s)
  | 0x5000 => ok s
  | 0x6000 =>
    ok (s.setCur { c with trace := { c.trace with pwr := v.getLsbD 0, en := v.getLsbD 1, ovf := v.getLsbD 2,
                                                   cmplp := v.extractLsb' 3 2 } })
  | 0x6004 => ok s
  | 0x6100 => ok s
  | 0x7000 => wpStore { c.wp with iactl := v &&& 0x03FFFFFF } s
  | 0x7100 => wpStore { c.wp with dactl := v &&& 0x00003FFF } s
  | 0x7200 => wpStore { c.wp with stat := 0 } s
  | 0x8000 => ok (s.setCur { c with perf := { c.perf with ctl := v &&& 0x03FFFFFD } })
  | 0x8100 => ok (s.setCur { c with perf := { c.perf with cntr0 := v } })
  | 0x8104 => ok (s.setCur { c with perf := { c.perf with cntr1 := v } })
  | _ =>
    let n := off % 0x40 / 4
    if off % 4 ≠ 0 then .error
    else if 0x0100 ≤ off ∧ off < 0x0140 then
      if c.dmem.endcplb then .refused .coreMmrSetting
      else ok (s.setDmem { c.dmem with
        cplb := vset c.dmem.cplb n ⟨v &&& 0xFFFFFC00, (c.dmem.cplb.toList.getD n ⟨0, 0⟩).data⟩ })
    else if 0x0200 ≤ off ∧ off < 0x0240 then
      if c.dmem.endcplb then .refused .coreMmrSetting
      else ok (s.setDmem { c.dmem with
        cplb := vset c.dmem.cplb n ⟨(c.dmem.cplb.toList.getD n ⟨0, 0⟩).addr, v &&& 0x0003D29F⟩ })
    else if 0x1100 ≤ off ∧ off < 0x1140 then
      if c.imem.enicplb then .refused .coreMmrSetting
      else ok (s.setImem { c.imem with
        cplb := vset c.imem.cplb n ⟨v &&& 0xFFFFFC00, (c.imem.cplb.toList.getD n ⟨0, 0⟩).data⟩ })
    else if 0x1200 ≤ off ∧ off < 0x1240 then
      if c.imem.enicplb then .refused .coreMmrSetting
      else ok (s.setImem { c.imem with
        cplb := vset c.imem.cplb n ⟨(c.imem.cplb.toList.getD n ⟨0, 0⟩).addr, v &&& 0x00031307⟩ })
    else if 0x2000 ≤ off ∧ off < 0x2040 then ev { c.ev with evt := vset c.ev.evt n v }
    else if 0x7040 ≤ off ∧ off < 0x7058 then wpStore { c.wp with ia := vset c.wp.ia n (v &&& 0xFFFFFFFE) } s
    else if 0x7080 ≤ off ∧ off < 0x7098 then wpStore { c.wp with iacnt := vset c.wp.iacnt n (half .lo v) } s
    else if 0x7140 ≤ off ∧ off < 0x7148 then wpStore { c.wp with da := vset c.wp.da n v } s
    else if 0x7180 ≤ off ∧ off < 0x7188 then wpStore { c.wp with dacnt := vset c.wp.dacnt n (half .lo v) } s
    else .error

end Sys2Proof.Machine
end

