-- ==== Sys2Proof/Machine/Sic.lean ====
section
/-!
DEFINITION. The system interrupt controllers and the system reset registers (61_sic_multicore.md;
70_reset_and_hazards.md R1923, R1925). Offsets are from 0xFFC00100 (Core A) and 0xFFC01100 (Core B).
-/

namespace Sys2Proof.Machine

/-- The controller of a core. -/
def Sys.sicOf (y : Sys) : CoreId → Sic
  | .a => y.sic
  | .b => y.sicB

/-- Replace the controller of a core. -/
def State.setSic (s : State) (id : CoreId) (c : Sic) : State :=
  match id with
  | .a => { s with sys := { s.sys with sic := c } }
  | .b => { s with sys := { s.sys with sicB := c } }

/-- Replace the reset registers. -/
def State.setCtl (s : State) (c : SysCtl) : State := { s with sys := { s.sys with ctl := c } }

/-! ## Routing (R1807 to R1812) -/

/-- Bit `c` of a pair of registers, channels 0 to 31 and 32 to 63 (R1802). -/
def chan (r0 r1 : Word) (c : Nat) : Bool := if c < 32 then r0.getLsbD c else r1.getLsbD (c - 32)

/-- `ivg(c)`: 7 + the SIC_IAR field of channel `c` (R1807, R1808). -/
def Sic.ivg (k : Sic) (c : Nat) : Nat := 7 + ((k.iar.toList.getD (c / 8) 0).extractLsb' (4 * (c % 8)) 4).toNat

/-- `req[g]` (R1810). -/
def Sic.req (k : Sic) (g : Nat) : Bool :=
  (List.range 64).any fun c => k.ivg c == g && chan (k.isr0 &&& k.imask0) (k.isr1 &&& k.imask1) c

/-- `wake` (R1812); `l0`, `l1`: the lines. -/
def Sic.wake (k : Sic) (l0 l1 : Word) : Bool := (l0 &&& k.iwr0) != 0 || (l1 &&& k.iwr1) != 0

/-- Every field of an assignment register is 0 to 8 (R1807). -/
def iarOk (v : Word) : Bool := (List.range 8).all fun n => decide ((v.extractLsb' (4 * n) 4).toNat ≤ 8)

/-! ## The registers (R1801) -/

/-- A 32-bit load of a SIC register: bit 0 of SIC_ISR0, PLL Wakeup, is never 1 while the channel is masked (R1133). -/
def sicRead (k : Sic) (off : Nat) : Option Word :=
  match off with
  | 0x0C => some k.imask0
  | 0x10 => some k.imask1
  | 0x14 => some (k.isr0 &&& (k.imask0 ||| 0xFFFFFFFE))
  | 0x18 => some k.isr1
  | 0x1C => some k.iwr0
  | 0x20 => some k.iwr1
  | _ => if 0x24 ≤ off then nth k.iar.toList 0x24 off else none

/-- A 32-bit store to a SIC register; a field of SIC_IAR above 8 is refused (D46). -/
def sicWrite (id : CoreId) (off : Nat) (v : Word) (s : State) : MmrRes :=
  let k := s.sys.sicOf id
  let ok (k : Sic) : MmrRes := .ok 0 (s.setSic id k)
  match off with
  | 0x0C => ok { k with imask0 := v }
  | 0x10 => ok { k with imask1 := v }
  | 0x14 => .ok 0 s
  | 0x18 => .ok 0 s
  | 0x1C => ok { k with iwr0 := v }
  | 0x20 => ok { k with iwr1 := v }
  | _ =>
    if 0x24 ≤ off ∧ off < 0x44 ∧ off % 4 = 0 then
      if iarOk v then ok { k with iar := vset k.iar ((off - 0x24) / 4) v } else .refused .unitSetting
    else .error

/-! ## SICA_SWRST (R1923) -/

/-- A load of SICA_SWRST: the status bits 15:11 are cleared by it. -/
def swrstRead (s : State) : MmrRes :=
  let c := s.sys.ctl
  .ok (fldN c.swrst 0 ||| fld c.dfA 3 ||| fld c.dfB 4 ||| fldN c.stat 11) (s.setCtl { c with stat := 0 })

/-- A store to SICA_SWRST: the value 7 in bits 2:0 starts the System Software reset. -/
def swrstWrite (v : Word) (s : State) : MmrRes :=
  let c := { s.sys.ctl with swrst := v.extractLsb' 0 3, dfA := v.getLsbD 3, dfB := v.getLsbD 4 }
  let s := s.setCtl c
  .ok 0 (if c.swrst = 7 then s.systemSoftwareReset else s)

/-! ## SICA_SYSCR and SICB_SYSCR (R1820, R1822) -/

/-- SICA_SYSCR: BMODE in bits 2:1 (PRESUMED, log entry 15), No Boot in bit 4, CoreB_SRAM_INIT in bit 5, the four
priority bits in bits 15:12 (DESIGN CHOICE, log entry 15). -/
def SysCtl.syscr (c : SysCtl) : Word :=
  fldN c.bmode 1 ||| fld c.noBoot 4 ||| fld c.coreBInit 5 ||| fldN c.prio 12

/-- Core B starts to run (R1925). -/
def State.releaseB (s : State) : State :=
  let free (c : Core) : Core := if c.id = .b then { c with held := false } else c
  { s with cur := free s.cur, oth := free s.oth }

/-- A store to SICA_SYSCR: clearing CoreB_SRAM_INIT releases Core B; setting it again is refused (R1925). -/
def syscrWrite (v : Word) (s : State) : MmrRes :=
  let c := s.sys.ctl
  if v.getLsbD 5 && !c.coreBInit then .refused .unitSetting
  else
    let s' := s.setCtl { c with noBoot := v.getLsbD 4, coreBInit := v.getLsbD 5, prio := v.extractLsb' 12 4 }
    .ok 0 (if c.coreBInit && !v.getLsbD 5 then s'.releaseB else s')

/-- SICB_SYSCR: the supplemental interrupts in bits 9:6; bit 5 reads 1 (R1822). -/
def SysCtl.syscrB (c : SysCtl) : Word := 0x20 ||| fldN c.supp 6

/-- A store to SICB_SYSCR: bits 9:6 set, bits 13:10 clear; both at once for one request is refused (R1822). -/
def syscrBWrite (v : Word) (s : State) : MmrRes :=
  let set := v.extractLsb' 6 4
  let clear := v.extractLsb' 10 4
  if set &&& clear ≠ 0 then .refused .unitSetting
  else .ok 0 (s.setCtl { s.sys.ctl with supp := (s.sys.ctl.supp ||| set) &&& ~~~ clear })

end Sys2Proof.Machine
end

