-- ==== Sys2Proof/Machine/Power.lean ====
section
/-!
DEFINITION. Clocks, the PLL and the operating modes (64_power.md).
-/

namespace Sys2Proof.Machine

/-- The operating modes (R1120), and Hibernate (R1140). -/
inductive PowerMode where
  | fullOn | active | sleep | deepSleep | hibernate
  deriving DecidableEq, Repr

/-- The mode that an applied configuration selects (R1121, D52). -/
def PllCfg.mode (c : PllCfg) : PowerMode :=
  if c.pdwn then .deepSleep else if c.stopck then .sleep else if c.bypass then .active else .fullOn

/-- The mode in force; while the PLL locks in Full On it is Active (R1132). -/
def Power.mode (p : Power) : PowerMode :=
  if p.hibernate then .hibernate
  else
    match p.applied.mode with
    | .fullOn => if p.relock then .active else .fullOn
    | m => m

/-- The core clock runs: the cores take steps (R1120). -/
def Power.cclk (p : Power) : Bool := p.mode == .fullOn || p.mode == .active

/-- The system clock runs: the peripherals take steps (R1120). -/
def Power.sclk (p : Power) : Bool := p.cclk || p.mode == .sleep

/-- The fields of a PLL_CTL value (R1110). -/
def PllCfg.ofCtl (v : HWord) : PllCfg :=
  { msel := v.extractLsb' 9 6, df := v.getLsbD 0, bypass := v.getLsbD 8, pllOff := v.getLsbD 1,
    stopck := v.getLsbD 3, pdwn := v.getLsbD 5 }

/-- The state with other power registers. -/
def State.setPower (s : State) (p : Power) : State := { s with sys := { s.sys with power := p } }

/-! ## Registers (R1108 to R1114) -/

/-- Core `id` is in the Idle state, or is Core B in its reset hold (R1131). -/
def State.idleOrHeld (s : State) : Bool := (s.cur.idle || s.cur.held) && (s.oth.idle || s.oth.held)

/-- A bit of a 32-bit word. -/
def bitAt (b : Bool) (n : Nat) : Word := if b then BitVec.ofNat 32 (2 ^ n) else 0

/-- PLL_STAT (R1112): PLL_LOCKED, unless the lock counter runs, and VSTAT become 1 at a moment that is free (D51). -/
def State.pllStat (s : State) : Word × State :=
  let p := s.sys.power
  let (l, s) := if p.locked || p.relock then (p.locked, s) else s.drawBit
  let (v, s) := if p.vstat then (true, s) else s.drawBit
  let m := p.mode
  (bitAt (m == .active && !p.applied.pllOff) 0 ||| bitAt (m == .fullOn) 1 ||| bitAt (m == .active && p.applied.pllOff) 2
    ||| bitAt (m == .deepSleep) 3 ||| bitAt (m == .sleep) 4 ||| bitAt l 5 ||| bitAt s.idleOrHeld 6 ||| bitAt v 7,
   s.setPower { p with locked := l, vstat := v })

/-- A load of a power register at offset `off` from 0xFFC00000 with `n` bytes. -/
def powerRead (off n : Nat) (s : State) : MmrRes :=
  let p := s.sys.power
  match off, n with
  | 0x00, 2 => .ok (ofH p.ctl) s
  | 0x04, 2 => .ok (ofH p.div) s
  | 0x08, 2 => .ok (ofH p.vr) s
  | 0x0C, 2 => let (v, s) := s.pllStat; .ok v s
  | 0x10, 2 => .ok (ofH p.lockcnt) s
  | _, _ => .error

/-- A store to a power register: PLL_CTL only stages (R1111); SSEL = 0 and a reserved VLEV are refused (R1104,
R1114). -/
def powerWrite (off n : Nat) (v : Word) (s : State) : MmrRes :=
  let p := s.sys.power
  let h := half .lo v
  match off, n with
  | 0x00, 2 => .ok 0 (s.setPower { p with ctl := h &&& 0xFFFB })
  | 0x04, 2 => if h.extractLsb' 0 4 = 0 then .refused .unitSetting else .ok 0 (s.setPower { p with div := h &&& 0x003F })
  | 0x08, 2 =>
    if h.extractLsb' 4 4 < 6 then .refused .unitSetting
    else .ok 0 (s.setPower { p with vr := h &&& 0x81FF, vrStored := true })
  | 0x0C, 2 => .ok 0 s
  | 0x10, 2 => .ok 0 (s.setPower { p with lockcnt := h })
  | _, _ => .error

/-! ## The PLL state machine (R1125 to R1133, R1140) -/

/-- PLL_CTL differs from what is applied, or VR_CTL has been stored to, and both cores are idle (R1131, R1132). -/
def State.pllApplies (s : State) : Bool :=
  let p := s.sys.power
  p.sclk && s.idleOrHeld && (p.vrStored || PllCfg.ofCtl p.ctl != p.applied)

/-- The transitions of Table 8-5; to stay in a mode is none (R1127). -/
def transitionOk (old new : PowerMode) : Bool :=
  match old, new with
  | .fullOn, .fullOn | .fullOn, .active | .fullOn, .sleep => true
  | .active, .active | .active, .fullOn | .active, .sleep | .active, .deepSleep => true
  | .sleep, .sleep | .sleep, .fullOn | .sleep, .active => true
  | _, _ => false

/-- Core `c` runs with channel 0, PLL Wakeup, unmasked in its controller: the assertion of the line latches the channel's
event at once (R1132; log entry 74). -/
def State.pllLatch (s : State) (c : Core) : Core :=
  let k := s.sys.sicOf c.id
  if !c.idle && !c.held && k.imask0.getLsbD 0 then { c with ev := { c.ev with ilat := c.ev.ilat ||| bitOf (k.ivg 0) } }
  else c

/-- The PLL Wakeup line is asserted at both controllers (R1132): at an idle core's it stays up until the core has left the
Idle state (R1133, D54), and a running core takes its event from the assertion alone. -/
def State.pllWake (s : State) : State :=
  let p := s.sys.power
  let s := s.setPower { p with wakeA := p.wakeA || (s.coreOf .a).idle, wakeB := p.wakeB || (s.coreOf .b).idle }
  { s with cur := s.pllLatch s.cur, oth := s.pllLatch s.oth }

/-- The PLL Wakeup line, channel 0, at the controller of core `id` (R1802, R1133). -/
def Power.wakeLine (p : Power) : CoreId → Bool
  | .a => p.wakeA
  | .b => p.wakeB

/-- A core leaves the Idle state: the PLL Wakeup line falls at its controller, which no longer shows it (R1133, D54). Where
the controller has the channel unmasked the core takes the interrupt on waking: it is latched before the line falls
(R1134). -/
def State.leaveIdle (s : State) : State :=
  let p := s.sys.power
  let id := s.cur.id
  let k := s.sys.sicOf id
  let ilat := if p.wakeLine id && k.imask0.getLsbD 0 then s.cur.ev.ilat ||| bitOf (k.ivg 0) else s.cur.ev.ilat
  let s := s.setPower (match id with | .a => { p with wakeA := false } | .b => { p with wakeB := false })
  let s := s.setSic id { k with isr0 := k.isr0 &&& 0xFFFFFFFE }
  s.setCur { s.cur with idle := false, ev := { s.cur.ev with ilat := ilat } }

/-- The SDRAM loses its contents unless it is in self-refresh (R1659 (c)). -/
def State.sdramDecay (s : State) : State := if s.sys.ebiu.selfRefresh then s else s.scrub 0 0x20000000

/-- Hibernate (R1140): everything on the chip loses its contents and nothing acts until a hardware reset. -/
def State.enterHibernate (s : State) : State :=
  let s := s.setPower { s.sys.power with hibernate := true }
  (s.sdramDecay.scrub Config.l2Base (Config.l2Base + 0x20000)).scrub 0xFF400000 0xFFC00000

/-- The apply transition (R1132, R1140). FREQ = 00 shuts off the internal regulator; where the board supplies the core itself
that changes nothing (R1140). -/
def State.pllApply (s : State) : Outcome :=
  let p := s.sys.power
  let new := PllCfg.ofCtl p.ctl
  let m := new.mode
  if !transitionOk p.applied.mode m then .refused .unitSetting
  else if (m == .fullOn || m == .sleep) && new.pllOff then .refused .unitSetting
  else if p.vr.extractLsb' 0 2 = 0 && !Config.externalSupply then .next s.enterHibernate
  else
    let relock := new.msel != p.applied.msel || new.df != p.applied.df || (p.applied.pllOff && !new.pllOff) || p.vrStored
    let q := { p with applied := new, vrStored := false, relock := p.relock || relock,
                      locked := p.locked && !relock, vstat := p.vstat && !p.vrStored }
    let s := s.setPower q
    match m with
    | .deepSleep => .next s.sdramDecay
    | .sleep => .next s
    | _ => .next (if q.relock then s else s.pllWake)

/-- The lock counter reaches its end (R1132, R1133). -/
def State.pllLocks (s : State) : State :=
  (s.setPower { s.sys.power with relock := false, locked := true }).pllWake

end Sys2Proof.Machine
end

