-- ==== Sys2Proof/Machine/GpTimer.lean ====
section
/-!
DEFINITION. The twelve general-purpose timers (62_timers.md sections 1 to 4).
-/

namespace Sys2Proof.Machine

/-! ## TIMERx_CONFIG (R1527) -/

/-- TMODE. -/
def GpTimer.tmode (t : GpTimer) : BitVec 2 := t.cfg.extractLsb' 0 2
/-- PULSE_HI. -/
def GpTimer.pulseHi (t : GpTimer) : Bool := t.cfg.getLsbD 2
/-- PERIOD_CNT. -/
def GpTimer.periodCnt (t : GpTimer) : Bool := t.cfg.getLsbD 3
/-- IRQ_ENA. -/
def GpTimer.irqEna (t : GpTimer) : Bool := t.cfg.getLsbD 4
/-- TIN_SEL. -/
def GpTimer.tinSel (t : GpTimer) : Bool := t.cfg.getLsbD 5
/-- OUT_DIS. -/
def GpTimer.outDis (t : GpTimer) : Bool := t.cfg.getLsbD 6
/-- CLK_SEL. -/
def GpTimer.clkSel (t : GpTimer) : Bool := t.cfg.getLsbD 7
/-- TOGGLE_HI, where it has an effect (R1536). -/
def GpTimer.toggle (t : GpTimer) : Bool := t.cfg.getLsbD 8 && t.periodCnt
/-- PWM_OUT mode. -/
def GpTimer.pwm (t : GpTimer) : Bool := t.tmode == 1
/-- WDTH_CAP mode. -/
def GpTimer.cap (t : GpTimer) : Bool := t.tmode == 2
/-- EXT_CLK mode. -/
def GpTimer.ext (t : GpTimer) : Bool := t.tmode == 3

/-! ## Events of a timer -/

/-- An interrupt condition: TIMIL is set if IRQ_ENA (R1525). -/
def GpTimer.interrupt (t : GpTimer) : GpTimer := { t with timil := t.timil || t.irqEna }

/-- An error: TOVF_ERR, ERR_TYP, and an interrupt condition (R1533). -/
def GpTimer.error (t : GpTimer) (typ : BitVec 2) : GpTimer := { t with tovf := true, errTyp := typ }.interrupt

/-- The level that asserts the pin: PULSE_HI, alternating with TOGGLE_HI (R1531, R1536). -/
def GpTimer.asserted (t : GpTimer) : Bool := t.pulseHi != (t.toggle && t.odd)

/-- The timer stops; what was written while it ran becomes active (R1529). -/
def GpTimer.stop (t : GpTimer) : GpTimer :=
  { t with timen := false, trun := false, pin := !t.pulseHi, period := t.periodBuf, width := t.widthBuf }

/-- Enabling by a store to TMRSy_ENABLE (R1530, R1540, R1545): a timer that is stopping goes on (R1535). -/
def GpTimer.enable (t : GpTimer) : GpTimer :=
  if t.trun then { t with timen := true }
  else
    let t := { t with timen := true, trun := true, errTyp := 0, odd := true, started := false }
    if t.pwm then
      let t := { t with counter := if t.clkSel then 0 else 1 }
      let t := { t with pin := t.asserted }
      if t.periodCnt && t.period.toNat ≤ 1 then t.error 2 else t
    else if t.cap then { t with counter := 1, period := 0, width := 0, periodBuf := 0, widthBuf := 0 }
    else
      let t := { t with counter := 0 }
      if t.period = 0 then t.error 2 else t

/-- Disabling by a store to TMRSy_DISABLE: in PWM_OUT mode a stop is pending, else the timer stops (R1523, R1535). -/
def GpTimer.disable (t : GpTimer) : GpTimer :=
  if t.pwm then { t with timen := false } else { t with timen := false, trun := false }

/-- The rollover check of PWM_OUT (R1533). -/
def GpTimer.rollover (t : GpTimer) : GpTimer :=
  if t.period = 0 then t.error 2
  else if t.period = 1 ∨ t.width = 0 ∨ t.period.toNat ≤ t.width.toNat then t.error 3
  else t

/-- A single pulse ends (R1532); one of WIDTH = 0 only once the counter has gone through its range (R1530), which `started`
says. -/
def GpTimer.pulseEnds (t : GpTimer) : Bool := t.counter == t.width && (t.width != 0 || t.started)

/-- One clock of a running PWM_OUT timer (R1531, R1532, R1535, R1536). -/
def GpTimer.pwmClock (t : GpTimer) : GpTimer :=
  if t.periodCnt then
    let t := if t.counter = t.width then { t with pin := !t.asserted } else t
    if t.counter = t.period then
      let t := t.rollover.interrupt
      let even := !t.odd
      let t := { t with period := t.periodBuf, width := t.widthBuf, odd := !t.odd }
      if !t.timen && (even || !t.toggle) then t.stop
      else { t with counter := 1, pin := t.asserted }
    else if t.counter = 0xFFFFFFFF then { t with counter := 0 }.error 1
    else { t with counter := t.counter + 1 }
  else if t.pulseEnds then t.interrupt.stop
  else if t.counter = 0xFFFFFFFF then { t with counter := 0, started := true }.error 1
  else { t with counter := t.counter + 1 }

/-- One SCLK count of a WDTH_CAP timer (R1540, R1541). -/
def GpTimer.capClock (t : GpTimer) : GpTimer :=
  if t.counter = 0xFFFFFFFF then { t with counter := 0 }.error 1 else { t with counter := t.counter + 1 }

/-- The timer counts system clocks. -/
def GpTimer.clocked (t : GpTimer) : Bool := t.trun && ((t.pwm && !t.clkSel) || (t.cap && t.started))

/-- One system clock of the timer. -/
def GpTimer.clock (t : GpTimer) : GpTimer := if t.pwm then t.pwmClock else t.capClock

/-- The measurement report (R1540). -/
def GpTimer.report (t : GpTimer) : GpTimer := { t with period := t.periodBuf, width := t.widthBuf }.interrupt

/-- An edge on the input of a timer, `rising` or not (R1540, R1545). With PERIOD = 0 in EXT_CLK every edge that finds COUNTER
= 0 counts as a rollover and sets the error, the first one after the enable too (DESIGN CHOICE, log entry 93). -/
def GpTimer.inputEdge (t : GpTimer) (rising : Bool) : GpTimer :=
  let leading := rising == t.pulseHi
  if !t.trun then t
  else if t.cap then
    if leading then
      if !t.started then { t with started := true }
      else
        let t := { t with periodBuf := t.counter, counter := 1 }
        if t.periodCnt then t.report else t
    else if t.started then
      let t := { t with widthBuf := t.counter }
      if t.periodCnt then t else t.report
    else t
  else if t.ext && leading then
    let t := if t.period = 0 ∧ t.counter = 0 then t.error 2 else t
    let t :=
      if t.counter = t.period ∧ t.counter ≠ 0 then { t with counter := 1 }
      else if t.counter = 0xFFFFFFFF then { t with counter := 0 }.error 1
      else { t with counter := t.counter + 1 }
    if t.counter = t.period then t.interrupt else t
  else t

/-- A rising edge of PWM_CLK, from PF15 or from PPI_CLK (R1537). -/
def GpTimer.pwmEdge (t : GpTimer) (ppi : Bool) : GpTimer :=
  if t.trun && t.pwm && t.clkSel && t.tinSel == ppi then t.pwmClock else t

/-! ## Registers -/

/-- Timer `x`. -/
def Sys.timer (y : Sys) (x : Nat) : GpTimer := y.timers.toList.getD x .reset

/-- The timer drives its pin (R1530). -/
def GpTimer.drives (t : GpTimer) : Bool := t.pwm && !t.outDis

/-- The timers changed by a function of their numbers. -/
def State.mapTimers (s : State) (f : Nat → GpTimer → GpTimer) : State :=
  { s with sys := { s.sys with timers := s.sys.timers.mapIdx f } }

/-- Replace timer `x`. -/
def State.setTimer (s : State) (x : Nat) (t : GpTimer) : State := s.mapTimers fun y u => if y = x then t else u

/-- TIMERx_CONFIG as a word (R1527). -/
def GpTimer.config (t : GpTimer) : Word := BitVec.ofNat 32 (t.cfg.toNat + t.errTyp.toNat * 2 ^ 14)

/-- A word with bit `base + x` for each timer `first + x` of `count` for which `f` holds. -/
def timerBits (y : Sys) (first count base : Nat) (f : GpTimer → Bool) : Word :=
  (List.range count).foldl (fun w x => if f (y.timer (first + x)) then w ||| BitVec.ofNat 32 (2 ^ (base + x)) else w) 0

/-- Half a status register: TIMIL, TOVF_ERR and TRUN of four timers (R1524). -/
def timerStatusHalf (y : Sys) (first : Nat) : Word :=
  timerBits y first 4 0 GpTimer.timil ||| timerBits y first 4 4 GpTimer.tovf ||| timerBits y first 4 12 GpTimer.trun

/-- TMRSy_STATUS of the group that starts at timer `first` (R1524). -/
def timerStatus (y : Sys) (first : Nat) : Word :=
  if first = 0 then timerStatusHalf y 0 ||| timerStatusHalf y 4 <<< 16 else timerStatusHalf y 8

/-- Bits written to the status field of one timer: W1C of TIMIL and TOVF_ERR; TRUN stops a stopping PWM_OUT timer
(R1524, R1535). -/
def GpTimer.clearStatus (t : GpTimer) (il ovf run : Bool) : GpTimer :=
  let t := { t with timil := t.timil && !il, tovf := t.tovf && !ovf }
  if run && t.pwm && t.trun && !t.timen then t.stop else t

/-- The low `n` bytes of a word. -/
def lowBytes (n : Nat) (w : Word) : Word := if n = 2 then w &&& 0xFFFF else w

/-- A load from the timers of a group (R1520, R1521): `first` is its first timer, `count` its number of timers, `shared`
the offset of its shared registers. -/
def timerRead (first count shared off n : Nat) (s : State) : MmrRes :=
  let y := s.sys
  if off < 0x10 * count then
    let t := y.timer (first + off / 0x10)
    match off % 0x10, n with
    | 0x0, 2 => .ok t.config s
    | 0x4, 4 => .ok t.counter s
    | 0x8, 4 => .ok t.period s
    | 0xC, 4 => .ok t.width s
    | _, _ => .error
  else if n = 2 ∨ n = 4 then
    if off = shared ∨ off = shared + 4 then .ok (timerBits y first count 0 GpTimer.timen) s
    else if off = shared + 8 then .ok (lowBytes n (timerStatus y first)) s
    else .error
  else .error

/-- TIMERx_CONFIG takes a value: the pin of a PWM_OUT timer that does not run is at the deasserted level (R1531). -/
def GpTimer.configure (t : GpTimer) (v : BitVec 10) : GpTimer :=
  let t := { t with cfg := v }
  if t.pwm then { t with pin := !t.pulseHi } else t

/-- A store to the registers of one timer (R1527 to R1529): TIMERx_CONFIG of a running timer is refused; COUNTER, and
PERIOD and WIDTH in WDTH_CAP mode, are ignored (D55). -/
def timerStore (x off n : Nat) (v : Word) (s : State) : MmrRes :=
  let t := s.sys.timer x
  match off, n with
  | 0x0, 2 => if t.trun then .refused .unitSetting else .ok 0 (s.setTimer x (t.configure (v.extractLsb' 0 10)))
  | 0x4, 4 => .ok 0 s
  | 0x8, 4 =>
    if t.cap then .ok 0 s
    else .ok 0 (s.setTimer x { t with periodBuf := v, period := if t.trun && t.pwm then t.period else v })
  | 0xC, 4 =>
    if t.cap then .ok 0 s
    else .ok 0 (s.setTimer x { t with widthBuf := v, width := if t.trun && t.pwm then t.width else v })
  | _, _ => .error

/-- A store to the timers of a group (R1522 to R1524): enabling a timer whose TMODE is 00 is refused (R1527). -/
def timerWrite (first count shared off n : Nat) (v : Word) (s : State) : MmrRes :=
  let hit (x b : Nat) : Bool := decide (first ≤ x ∧ x < first + count) && v.getLsbD (b + x - first)
  if off < 0x10 * count then timerStore (first + off / 0x10) (off % 0x10) n v s
  else if n = 2 ∨ n = 4 then
    if off = shared then
      if (List.range 12).any fun x => hit x 0 && (s.sys.timer x).tmode == 0 then .refused .unitSetting
      else .ok 0 (s.mapTimers fun x t => if hit x 0 then t.enable else t)
    else if off = shared + 4 then .ok 0 (s.mapTimers fun x t => if hit x 0 then t.disable else t)
    else if off = shared + 8 then
      let v := lowBytes n v
      let bit (x b : Nat) : Bool := v.getLsbD ((x - first) / 4 * 16 + b + (x - first) % 4)
      .ok 0 (s.mapTimers fun x t =>
        if first ≤ x ∧ x < first + count then t.clearStatus (bit x 0) (bit x 4) (bit x 12) else t)
    else .error
  else .error

end Sys2Proof.Machine
end

