-- ==== Sys2Proof/Machine/Ppi.lean ====
section
/-!
DEFINITION. The parallel ports PPI0 and PPI1 (69_ppi.md). Offsets are from 0xFFC01000 and 0xFFC01300.
-/

namespace Sys2Proof.Machine

/-- Port `x`. -/
def Sys.ppi (y : Sys) (x : Nat) : Ppi := y.ppis.toList.getD x .reset

/-- Replace port `x`. -/
def State.setPpi (s : State) (x : Nat) (p : Ppi) : State :=
  { s with sys := { s.sys with ppis := s.sys.ppis.setIfInBounds x p } }

/-! ## PPIx_CONTROL (R1304 to R1306) -/

/-- PORT_EN. -/
def Ppi.en (p : Ppi) : Bool := p.ctl.getLsbD 0
/-- PORT_DIR: transmit. -/
def Ppi.tx (p : Ppi) : Bool := p.ctl.getLsbD 1
/-- XFR_TYPE. -/
def Ppi.xfr (p : Ppi) : Nat := (p.ctl.extractLsb' 2 2).toNat
/-- PORT_CFG. -/
def Ppi.cfg (p : Ppi) : Nat := (p.ctl.extractLsb' 4 2).toNat
/-- FLD_SEL. -/
def Ppi.fldSel (p : Ppi) : Bool := p.ctl.getLsbD 6
/-- PACK_EN. -/
def Ppi.pack (p : Ppi) : Bool := p.ctl.getLsbD 7
/-- DMA32. -/
def Ppi.dma32 (p : Ppi) : Bool := p.ctl.getLsbD 8
/-- SKIP_EN. -/
def Ppi.skipEn (p : Ppi) : Bool := p.ctl.getLsbD 9
/-- SKIP_EO. -/
def Ppi.skipEo (p : Ppi) : Bool := p.ctl.getLsbD 10
/-- DLEN. -/
def Ppi.dlen (p : Ppi) : Nat := (p.ctl.extractLsb' 11 3).toNat
/-- POLS. -/
def Ppi.pols (p : Ppi) : Bool := p.ctl.getLsbD 15
/-- The port width (R1306). -/
def Ppi.width (p : Ppi) : Nat := if p.dlen = 0 then 8 else p.dlen + 9
/-- An ITU-R 656 input mode. -/
def Ppi.itu (p : Ppi) : Bool := !p.tx && p.xfr != 3
/-- A mode that receives with frame syncs or a trigger. -/
def Ppi.gpRx (p : Ppi) : Bool := !p.tx && p.xfr == 3
/-- A mode that transmits with frame syncs. -/
def Ppi.gpTx (p : Ppi) : Bool := p.tx && p.xfr == 3
/-- PPIx_FS2 has a part in the mode (R1330). -/
def Ppi.usesFs2 (p : Ppi) : Bool := (p.gpRx && (p.cfg == 1 || p.cfg == 2)) || (p.gpTx && p.cfg != 0)

/-! ## Frame syncs and timers (R1336) -/

/-- The timers of PPIx_FS1 and PPIx_FS2. -/
def fsTimer (x n : Nat) : Nat := 8 + 2 * x + n

/-- A timer is set up to generate a frame sync: PWM_OUT, CLK_SEL, TIN_SEL, the polarity of POLS. -/
def Ppi.timerOut (p : Ppi) (t : GpTimer) : Bool := t.pwm && t.clkSel && t.tinSel && t.pulseHi == !p.pols

/-- A timer is set up so that its pin is an input: TIMERx_CONFIG = 0x0003. -/
def timerIn (t : GpTimer) : Bool := t.cfg == 3

/-- The mode's frame syncs are generated by the timers. -/
def Sys.ppiInternal (y : Sys) (x : Nat) (p : Ppi) : Bool :=
  (p.gpRx && p.cfg == 1) || (p.gpTx && (y.timer (fsTimer x 0)).pwm)

/-- The PPI has the pin of timer `x`, one of 8 to 11, as a frame sync input: the timer neither reads nor drives it
(R1336). -/
def Sys.ppiTakes (y : Sys) (x : Nat) : Bool :=
  let p := y.ppi (x / 2 - 4)
  decide (8 ≤ x) && p.en && p.gpRx
    && ((p.cfg != 1 && x % 2 == 0 && !(p.cfg == 3 && p.fldSel)) || (p.cfg == 2 && x % 2 == 1))

/-- A setting that the port may not be enabled with (R1305, R1306, R1336). -/
def Sys.ppiBad (y : Sys) (x : Nat) (p : Ppi) : Bool :=
  let t0 := y.timer (fsTimer x 0)
  let t1 := y.timer (fsTimer x 1)
  (p.itu && decide (1 < p.dlen)) || (p.gpTx && p.cfg == 2)
    || (p.gpRx && p.cfg == 1 && !(p.timerOut t0 && p.timerOut t1))
    || (p.gpTx && p.cfg == 0 && !(p.timerOut t0 || timerIn t0))
    || (p.gpTx && p.cfg == 1 && !((p.timerOut t0 && p.timerOut t1) || (timerIn t0 && timerIn t1)))
    || (p.gpTx && p.cfg == 3 && !(p.timerOut t0 && p.timerOut t1))

/-! ## Status (R1310) -/

/-- Set bit `n` of PPIx_STATUS. -/
def Ppi.mark (p : Ppi) (n : Nat) : Ppi := { p with stat := p.stat ||| BitVec.ofNat 6 (2 ^ (n - 10)) }

/-- Write FLD. -/
def Ppi.setFld (p : Ppi) (b : Bool) : Ppi := { p with stat := (p.stat &&& 0x3E) ||| (if b then 1 else 0) }

/-- `PpiErrReq` (R1338). -/
def Ppi.errReq (p : Ppi) : Bool := p.stat &&& 0x2E != 0

/-! ## FIFO and packing (R1308, R1309, R1337) -/

/-- Bits of one sample within an element, and the number of samples in an element. -/
def Ppi.grain (p : Ppi) : Nat × Nat :=
  let small := p.pack && (p.tx || p.dlen == 0)
  (if small then 8 else 16, (if small then 2 else 1) * (if p.dma32 then 2 else 1))

/-- Samples put together, the earlier one lower. -/
def joinParts (w : Nat) (l : List HWord) : Word :=
  BitVec.ofNat 32 (l.foldr (fun s n => s.toNat % 2 ^ w + 2 ^ w * n) 0)

/-- A sample is selected for transfer. -/
def Ppi.gather (p : Ppi) (v : HWord) : Ppi :=
  let parts := p.parts ++ [v]
  if parts.length < p.grain.2 then { p with parts := parts }
  else if p.fifo.length < 16 then { p with parts := [], fifo := p.fifo ++ [joinParts p.grain.1 parts] }
  else { p with parts := [] }.mark 12

/-- Skipping applies: 656 modes and receive modes with external syncs (R1308). -/
def Ppi.skips (p : Ppi) : Bool := p.skipEn && (p.itu || (p.gpRx && (p.cfg == 0 || p.cfg == 2)))

/-- A sample that the mode selects, before skipping. -/
def Ppi.select (p : Ppi) (v : HWord) : Ppi :=
  let p' := { p with odd := !p.odd }
  if p.skips && p.odd != p.skipEo then p' else p'.gather v

/-- The samples of an element to send. -/
def Ppi.split (p : Ppi) (e : Word) : List HWord :=
  (List.range p.grain.2).map fun i => BitVec.ofNat 16 (e.toNat / 2 ^ (p.grain.1 * i) % 2 ^ p.grain.1)

/-- The samples that are next to be sent. -/
def Ppi.coming (p : Ppi) : List HWord :=
  if p.parts.isEmpty then (match p.fifo with | e :: _ => p.split e | [] => []) else p.parts

/-- A data slot of a transmit mode takes the next sample; UNDR where there is none (R1335, D94). -/
def Ppi.send (p : Ppi) : Ppi :=
  match p.coming with
  | [] => p.mark 13
  | [_] => { p with parts := [], fifo := p.fifo.drop 1 }
  | _ :: rest => { p with parts := rest }

/-- `PpiDmaReq`. -/
def Ppi.dmaReq (p : Ppi) : Bool :=
  p.en && (if p.tx then decide (p.fifo.length < 16) else !p.fifo.isEmpty)

/-- The fewest samples of a DMA work unit in the sync-less transmit mode (R1331). -/
def Ppi.fewest (p : Ppi) : Nat := if p.tx && p.xfr != 3 then (if p.dlen = 0 then 32 else 16) else 0

/-- A grant takes the element at the head (R1337): none where direction or width disagrees. -/
def Ppi.pop (p : Ppi) (wide : Bool) : Option (Word × Ppi) :=
  if p.tx || wide != p.dma32 then none
  else
    match p.fifo with
    | e :: es => some (e, { p with fifo := es })
    | [] => none

/-- A grant brings an element, one of `total` that make its work unit: none where direction, width or number is wrong
(R1331). -/
def Ppi.push (p : Ppi) (wide : Bool) (total : Nat) (e : Word) : Option Ppi :=
  if !p.tx || wide != p.dma32 || decide (total * p.grain.2 < p.fewest) then none
  else some { p with fifo := p.fifo ++ [e] }

/-! ## ITU-R 656 (R1320 to R1324) -/

/-- The eight valid control bytes (R1320). -/
def ituCodes : List Byte := [0x80, 0x9D, 0xAB, 0xB6, 0xC7, 0xDA, 0xEC, 0xF1]

/-- Two bytes differ in exactly one bit. -/
def oneBit (a b : Byte) : Bool := (List.range 8).any fun i => a ^^^ b == BitVec.ofNat 8 (2 ^ i)

/-- Decode a control byte (D91): whether it had to be corrected, and the valid byte. -/
def ituDecode (xy : Byte) : Option (Bool × Byte) :=
  if ituCodes.contains xy then some (false, xy) else (ituCodes.find? (oneBit xy)).map fun b => (true, b)

/-- Elements of the region after the control code (F, V, H) are transferred. -/
def Ppi.wants (p : Ppi) (f v h : Bool) : Bool :=
  p.synced &&
    (match p.xfr with
     | 0 => !h && !v && (!f || p.fldSel)
     | 1 => true
     | _ => v)

/-- Elements outside a control code: the last three are held back until it is known that they begin none. -/
def Ppi.ituData (p : Ppi) (e : HWord) : Ppi :=
  let held := p.held ++ [e]
  let p := if p.xfr == 1 && p.synced then p.select e else p
  if held.length ≤ 3 then { p with held := held }
  else
    let p := { p with held := held.drop 1 }
    match p.code with
    | some (f, v, h) => if p.xfr != 1 && p.wants f v h then p.select (held.headD 0) else p
    | none => p

/-- A decoded control code (R1324), whose four elements go with it where they are transferred (R1321, R1323). -/
def Ppi.ituCode (p : Ppi) (e : HWord) (f v h : Bool) : Ppi :=
  let was := p.code.map (·.1)
  let p :=
    if p.xfr == 1 && p.synced then p.select e
    else if p.xfr == 2 && p.synced && v then (p.held ++ [e]).foldl Ppi.select p
    else p
  let p := if was == some (!f) then p.setFld f else p
  let p :=
    if was == some true && !f then
      { (if p.synced && p.lines != p.frame.toNat then p.mark 11 else p) with synced := true, lines := 0 }
    else p
  { p with lines := if p.synced && !h then p.lines + 1 else p.lines, code := some (f, v, h), held := [],
           odd := p.odd || !h }

/-- One element of a 656 stream. -/
def Ppi.ituElement (p : Ppi) (e : HWord) : Ppi :=
  let ones := BitVec.ofNat 16 (2 ^ p.width - 1)
  let xy : Byte := if p.dlen = 0 then e.extractLsb' 0 8 else e.extractLsb' 2 8
  if p.held == [ones, 0, 0] then
    match ituDecode xy with
    | some (fixed, b) =>
      (if fixed then p.mark 14 else p).ituCode e (b.getLsbD 6) (b.getLsbD 5) (b.getLsbD 4)
    | none => ((p.mark 14).mark 15).ituData e
  else p.ituData e

/-! ## The line machine (R1327, R1332) -/

/-- A data slot: a sample received, or the next one sent. -/
def Ppi.transfer (p : Ppi) (v : HWord) : Ppi := if p.tx then p.send else p.select v

/-- PPIx_FS1 starts a line. -/
def Ppi.startLine (p : Ppi) : Ppi :=
  { p with phase := .delay (p.delay.toNat + (if p.tx then 1 else 0)), lines := p.lines + 1, odd := true }

/-- A clock without an assertion of PPIx_FS1. -/
def Ppi.lineClock (p : Ppi) (v : HWord) : Ppi :=
  match p.phase with
  | .idle => p
  | .delay (d + 1) => { p with phase := .delay d }
  | .delay 0 => { p.transfer v with phase := .data 1 }
  | .data c => if c ≤ p.count.toNat then { p.transfer v with phase := .data (c + 1) } else { p with phase := .idle }

/-- A frame starts: the lines of the last one are counted in the receive modes (R1313, R1328). -/
def Ppi.startFrame (p : Ppi) : Ppi :=
  { (if !p.tx && p.synced && decide (p.lines < p.frame.toNat) then p.mark 11 else p) with synced := true, lines := 0 }

/-- The PPIx_FS3 output toggles (R1329, D97); FLD follows it in receive modes. -/
def Ppi.toggleFs3 (p : Ppi) : Ppi :=
  let p' := { p with fs3 := !p.fs3 }
  if p.tx then p' else p'.setFld p'.fs3

/-- Assertions in the modes with two or three frame syncs (R1328, R1329, R1333, R1334); `ext3`: the level of the
PPIx_FS3 input in the externally framed receive mode. -/
def Ppi.syncs (p : Ppi) (a1 a2 ext3 : Bool) (v : HWord) : Ppi :=
  let ext := p.gpRx && p.cfg == 2
  let p := if a2 then (if p.gpTx && p.cfg == 3 then { p with fs2Seen := true }.toggleFs3 else { p with fs2Seen := true })
           else p
  if a1 then
    let p :=
      if p.fs2Seen then
        let p := { p with fs2Seen := false }
        if ext then (if p.synced || !ext3 then p.startFrame else p)
        else
          let p := p.startFrame
          if p.gpTx && p.cfg == 3 then p else p.toggleFs3
      else p
    if ext && !p.synced then p else p.startLine
  else p.lineClock v

/-! ## One period of PPIx_CLK (R1340) -/

/-- The mode's machine in one clock: `v` the sample, `a1`, `a2` the assertions of PPIx_FS1 and PPIx_FS2, `l3` the level
of the PPIx_FS3 input. -/
def Ppi.clock (p : Ppi) (v : HWord) (a1 a2 l3 : Bool) : Ppi :=
  if p.itu then p.ituElement v
  else if p.tx && p.xfr != 3 then
    if p.running then p.send
    else if p.fifo.isEmpty then p
    else { p with running := true }.send
  else if p.gpRx && p.cfg == 3 then
    if p.running then p.select v
    else if !p.fldSel && a1 then { p with running := true, unsure := true }.select v
    else p
  else if p.usesFs2 then
    let p := if p.gpRx && p.cfg == 2 && l3 != p.last3 then { p.setFld l3 with last3 := l3 } else p
    p.syncs a1 a2 l3 v
  else if a1 then p.startLine
  else p.lineClock v

/-- In a receive mode without frame syncs the first samples may be invalid (R1326): a free number of them are free. -/
def State.ppiSample (s : State) (x : Nat) (d : HWord) : HWord × State :=
  let p := s.sys.ppi x
  if p.gpRx && p.cfg == 3 && (p.unsure || !p.running) then
    let (bad, s) := s.drawBit
    let (w, s) := s.drawWord
    if bad then (half .lo w, s) else (d, if p.running then s.setPpi x { p with unsure := false } else s)
  else (d, s)

/-- The port gives its timers PPIx_CLK: in the sync-less transmit mode only with PORT_CFG = 10 (R1304, R1331). -/
def Ppi.timebase (p : Ppi) : Bool := !(p.tx && p.xfr != 3) || p.cfg == 2

/-- A level that is there only where the pin is an output. -/
def outLevel (out level : Bool) : Option Bool := if out then some level else none

/-- What the port drives in a clock that took it from `p` to `q`: in a transmit mode the sample of a data slot, a free
value otherwise (R1335); of the frame syncs those that the mode has as outputs (R1330, R1340): the timers' where they are
internal, PPIx_FS3 then and in the transmit mode with two external ones. -/
def State.ppiShows (s : State) (x : Nat) (p : Ppi) : State :=
  let q := s.sys.ppi x
  let int := s.sys.ppiInternal x q
  let level (n : Nat) : Bool := (s.sys.timer (fsTimer x n)).pin
  let fs1 := outLevel int (level 0)
  let fs2 := outLevel (int && q.usesFs2) (level 1)
  let fs3 := outLevel (int || (q.gpTx && q.cfg == 1)) q.fs3
  if q.tx then
    let (w, s) := s.drawWord
    let sent := q.parts != p.parts || q.fifo != p.fifo
    let d := if sent then p.coming.headD 0 else half .lo w
    s.emit (.ppiOut x (some (d &&& BitVec.ofNat 16 (2 ^ q.width - 1))) fs1 fs2 fs3)
  else s.emit (.ppiOut x none fs1 fs2 fs3)

/-- A rising edge of PPIx_CLK at the timers 0 to 7, which have no part in the PPI's frame syncs (R1537, R1546; which clock
each of them takes is `Config.timerPpi1`). -/
def State.ppiClkTimers (s : State) (x : Nat) : State :=
  s.mapTimers fun i t => if i < 8 ∧ Config.timerPpi1 i = (x == 1) then t.pwmEdge true else t

/-- One period of PPIx_CLK with the levels `d` on the data pins and `fs1` to `fs3` on the frame sync pins; a disabled
port ignores it (R1340), but not the timers that count it. -/
def State.ppiClk (s : State) (x : Nat) (d : HWord) (fs1 fs2 fs3 : Bool) : State :=
  let s := s.ppiClkTimers x
  if (s.sys.ppi x).en then
    let base := (s.sys.ppi x).timebase
    let s := s.mapTimers fun i t => if base ∧ i / 2 = 4 + x then t.pwmEdge true else t
    let p := s.sys.ppi x
    let int := s.sys.ppiInternal x p
    let l1 := (if int then (s.sys.timer (fsTimer x 0)).pin else fs1) != p.pols
    let l2 := (if int then (s.sys.timer (fsTimer x 1)).pin else fs2) != p.pols
    let s := s.setPpi x { p with last1 := l1, last2 := l2 }
    let (v, s) := s.ppiSample x (d &&& BitVec.ofNat 16 (2 ^ p.width - 1))
    let p' := s.sys.ppi x
    (s.setPpi x (p'.clock v (l1 && !p.last1) (l2 && !p.last2) fs3)).ppiShows x p'
  else s

/-! ## Registers (R1302, R1303) -/

/-- A load from port `x`: PPIx_STATUS is cleared by it (R1310). -/
def ppiRead (x off n : Nat) (s : State) : MmrRes :=
  let p := s.sys.ppi x
  match off, n with
  | 0x00, 2 => .ok (ofH p.ctl) s
  | 0x04, 2 => .ok (BitVec.ofNat 32 (p.stat.toNat * 0x400)) (s.setPpi x { p with stat := 0 })
  | 0x08, 2 => .ok (ofH p.count) s
  | 0x0C, 2 => .ok (ofH p.delay) s
  | 0x10, 2 => .ok (ofH p.frame) s
  | _, _ => .error

/-- A store to PPIx_CONTROL (R1303): with an internal trigger the port runs from there (R1326). -/
def ppiControl (x : Nat) (v : HWord) (s : State) : MmrRes :=
  let p := s.sys.ppi x
  if p.en then
    if !v.getLsbD 0 then .ok 0 (s.setPpi x .reset)
    else if v = p.ctl then .ok 0 s
    else .refused .unitSetting
  else
    let q := { p with ctl := v }
    if q.en && s.sys.ppiBad x q then .refused .unitSetting
    else
      let go := q.en && q.gpRx && q.cfg == 3 && q.fldSel
      .ok 0 (s.setPpi x { q with running := go, unsure := go })

/-- A store to port `x`: while it is enabled only PPIx_CONTROL takes one (D95). -/
def ppiWrite (x off n : Nat) (v : Word) (s : State) : MmrRes :=
  let p := s.sys.ppi x
  let h := half .lo v
  let set (q : Ppi) : MmrRes := if p.en then .refused .unitSetting else .ok 0 (s.setPpi x q)
  match off, n with
  | 0x00, 2 => ppiControl x h s
  | 0x04, 2 => .ok 0 s
  | 0x08, 2 => set { p with count := h }
  | 0x0C, 2 => set { p with delay := h }
  | 0x10, 2 => set { p with frame := h }
  | _, _ => .error

end Sys2Proof.Machine
end

