-- ==== Sys2Proof/Machine/Spi.lean ====
section
/-!
DEFINITION. The SPI port (68_serial.md section A). Offsets are from 0xFFC00500.
-/

namespace Sys2Proof.Machine

/-! ## SPI_CTL (R1254) -/

/-- TIMOD. -/
def Spi.timod (p : Spi) : BitVec 2 := p.ctl.extractLsb' 0 2
/-- SZ. -/
def Spi.sz (p : Spi) : Bool := p.ctl.getLsbD 2
/-- GM. -/
def Spi.gm (p : Spi) : Bool := p.ctl.getLsbD 3
/-- PSSE. -/
def Spi.psse (p : Spi) : Bool := p.ctl.getLsbD 4
/-- SIZE. -/
def Spi.size16 (p : Spi) : Bool := p.ctl.getLsbD 8
/-- EMISO. -/
def Spi.emiso (p : Spi) : Bool := p.ctl.getLsbD 5
/-- The SPI is enabled as a slave. -/
def Spi.slave (p : Spi) : Bool := p.spe && !p.mstr

/-- The level of the SPISS input, the pin PF0 (R1256). -/
def Sys.spiss (y : Sys) : Bool := (y.fio.toList.getD 0 (.reset 0)).level.getLsbD 0

/-! ## A transfer (R1263) -/

/-- The transfer of `w` has begun: the world sees its low bits and the slave selects (R1263, R1282); nothing of the word of
a slave that does not drive MISO, EMISO = 0 (R1265, R1280). -/
def State.spiShows (s : State) (w : HWord) : State :=
  let p := s.sys.spi
  if p.mstr || p.emiso then s.emit (.spiSent (if p.size16 then w else w &&& 0xFF) p.selects p.selLevels) else s

/-- `SpiBegin`: the shift register takes the word to send. -/
def State.spiBegin (s : State) : State :=
  let p := s.sys.spi
  let w := if p.txs then p.tdbr else if p.sz then 0 else p.tdbr
  let (zero, s) := if !p.txs && p.sz then s.drawBit else (false, s)
  (s.setSpi { p with txe := p.txe || !p.txs, tdbr := if zero then 0 else p.tdbr, sfdr := w, txs := false, spif := false,
                     busy := true, kick := false }).spiShows w

/-- `SpiEnd`: a received word; with 8-bit words the upper half of SPI_RDBR is free (D75). -/
def State.spiEnd (s : State) (w : HWord) : State :=
  let p := s.sys.spi
  let (u, s) := if p.size16 then (0, s) else s.drawWord
  let w := if p.size16 then w else (u.extractLsb' 0 8 ++ w.extractLsb' 0 8 : HWord)
  let take := !p.rxs || p.gm
  s.setSpi { p with rdbr := if take then w else p.rdbr, rbsy := p.rbsy || p.rxs, rxs := true, sfdr := w, spif := true,
                    busy := false }

/-- A master starts a transfer: `kick`, which in TIMOD = 01 is TXS (R1262). -/
def Spi.begins (p : Spi) : Bool := p.master && !p.busy && (if p.timod == 1 then p.txs else p.kick)

/-- A master's transfer can end: SCK runs (R1253, R1263). -/
def Spi.ends (p : Spi) : Bool := p.master && p.busy && decide (2 ≤ p.baud.toNat)

/-- The end of a master's transfer: the received word is free (R1261). -/
def State.spiMasterEnd (s : State) : State :=
  let (w, s) := s.drawWord
  s.spiEnd (half .lo w)

/-- A transfer that a write to SPI_TDBR does not cause is about to start: the other end's, or the SPI's own (R1270). -/
def State.spiRace (s : State) : Bool :=
  let p := s.sys.spi
  !p.busy && ((p.slave && !s.sys.spiss && s.inputs.head? == some .spiBegin) || p.begins)

/-- A write to SPI_TDBR by software or by the DMA (R1258). Where it races the start of a transfer that it does not cause,
it may collide with it (R1270). -/
def State.spiPut (s : State) (v : HWord) : State :=
  let p := s.sys.spi
  let (hit, s) := if s.spiRace then s.drawBit else (false, s)
  if hit then
    let (w, s) := s.drawWord
    let (f, s) := s.drawBit
    let w := half .lo w
    (s.setSpi { p with txcol := true, txe := p.txe || !p.txs, sfdr := w, tdbr := v, txs := f, spif := false,
                       busy := true, kick := false }).spiShows w
  else s.setSpi { p with tdbr := v, txs := true }

/-- SPE goes from 1 to 0 (R1277). -/
def Spi.disable (p : Spi) : Spi := { p with spif := true, fifo := [], busy := false, kick := false }

/-- A mode fault is due (R1267). -/
def State.spiFaults (s : State) : Bool := s.sys.spi.master && s.sys.spi.psse && !s.sys.spiss

/-- `SpiModeFault` (R1267). -/
def Spi.modeFault (p : Spi) : Spi := { p.disable with ctl := p.ctl &&& 0xAFFF, modf := true }

/-! ## DMA (R1274 to R1276) -/

/-- `SpiRxMove` is enabled. -/
def Spi.rxMoves (p : Spi) : Bool := p.spe && p.timod == 2 && p.rxs && decide (p.fifo.length < 4)

/-- `SpiRxMove`. -/
def Spi.rxMove (p : Spi) : Spi := { p with fifo := p.fifo ++ [p.rdbr], rxs := false, kick := p.kick || p.mstr }

/-- `SpiTxMove` is enabled. -/
def Spi.txMoves (p : Spi) : Bool := p.spe && p.timod == 3 && !p.txs && !p.fifo.isEmpty

/-- `SpiTxMove`: a write to SPI_TDBR. Of a master it initiates a transfer, which begins after one in progress (R1275), and
cannot collide with one (R1270). -/
def State.spiTxMove (s : State) : State :=
  let p := s.sys.spi
  let q := { p with fifo := p.fifo.drop 1 }
  let w := p.fifo.headD 0
  if p.mstr then s.setSpi { q with tdbr := w, txs := true, kick := true } else (s.setSpi q).spiPut w

/-- The data interrupt, which is the DMA request (R1272). -/
def Spi.dataReq (p : Spi) : Bool :=
  p.spe &&
    (match p.timod.toNat with
     | 0 => p.rxs
     | 1 => !p.txs
     | 2 => !p.fifo.isEmpty
     | _ => decide (p.fifo.length < 4))

/-- The error interrupt (R1273). -/
def Spi.errReq (p : Spi) : Bool := p.modf || (p.timod == 3 && p.txe) || (p.timod == 2 && p.rbsy)

/-- A DMA grant that takes a received word (R1274); none in another TIMOD. -/
def Spi.pop (p : Spi) : Option (HWord × Spi) :=
  if p.timod == 2 then
    match p.fifo with
    | w :: ws => some (w, { p with fifo := ws })
    | [] => none
  else none

/-- A DMA grant that brings a word to send (R1274); none in another TIMOD. -/
def Spi.push (p : Spi) (w : HWord) : Option Spi :=
  if p.timod == 3 && decide (p.fifo.length < 4) then some { p with fifo := p.fifo ++ [w] } else none

/-! ## Registers -/

/-- SPI_STAT (R1257). -/
def Spi.stat (p : Spi) : Word :=
  BitVec.ofNat 32 (p.spif.toNat + p.modf.toNat * 2 + p.txe.toNat * 4 + p.txs.toNat * 8 + p.rbsy.toNat * 16
    + p.rxs.toNat * 32 + p.txcol.toNat * 64)

/-- A load of SPI_RDBR: RXS is cleared; in a master with TIMOD = 00 a transfer is initiated, freely so while one is in
progress (R1259, R1262, D76). -/
def spiRdbr (s : State) : MmrRes :=
  let p := s.sys.spi
  let (k, s) :=
    if p.master && p.timod == 0 then (if p.busy then s.drawBit else (true, s)) else (false, s)
  .ok (ofH p.rdbr) (s.setSpi { p with rxs := false, kick := p.kick || k })

/-- A load of an SPI register. -/
def spiRead (off n : Nat) (s : State) : MmrRes :=
  let p := s.sys.spi
  match off, n with
  | 0x00, 2 => .ok (ofH p.ctl) s
  | 0x04, 2 => .ok (ofH p.flg) s
  | 0x08, 2 => .ok p.stat s
  | 0x0C, 2 => .ok (ofH p.tdbr) s
  | 0x10, 2 => spiRdbr s
  | 0x14, 2 => .ok (ofH p.baud) s
  | 0x18, 2 => .ok (ofH p.rdbr) s
  | _, _ => .error

/-- A store to SPI_CTL: while MODF is 1, SPE and MSTR stay 0 (R1267); a change during a transfer other than to disable is
refused (R1277, D80); entering DMA mode empties the buffers, and a receiving master starts (R1274, R1275). -/
def spiCtl (v : HWord) (s : State) : MmrRes :=
  let p := s.sys.spi
  let v := v &&& (if p.modf then 0x2F3F else 0x7F3F)
  if p.busy && v &&& 0xBFFF != p.ctl &&& 0xBFFF then .refused .unitSetting
  else
    let q := { p with ctl := v }
    let q := if p.spe && !q.spe then q.disable else q
    let dma := q.spe && q.timod.getLsbD 1
    let was := p.spe && p.timod.getLsbD 1
    .ok 0 (s.setSpi
      (if dma && !was then { q with txs := false, rxs := false, kick := q.kick || (q.mstr && q.timod == 2) } else q))

/-- A store to an SPI register. -/
def spiWrite (off n : Nat) (v : Word) (s : State) : MmrRes :=
  let p := s.sys.spi
  let h := half .lo v
  match off, n with
  | 0x00, 2 => spiCtl h s
  | 0x04, 2 => .ok 0 (s.setSpi { p with flg := (h &&& 0xFEFE) ||| 0x0100 })
  | 0x08, 2 =>
    .ok 0 (s.setSpi { p with modf := p.modf && !h.getLsbD 1, txe := p.txe && !h.getLsbD 2,
                             rbsy := p.rbsy && !h.getLsbD 4, txcol := p.txcol && !h.getLsbD 6 })
  | 0x0C, 2 => .ok 0 (s.spiPut h)
  | 0x10, 2 => .ok 0 s
  | 0x14, 2 => .ok 0 (s.setSpi { p with baud := h })
  | 0x18, 2 => .ok 0 s
  | _, _ => .error

end Sys2Proof.Machine
end

