-- ==== Sys2Proof/Machine/Sport.lean ====
section
/-!
DEFINITION. The serial ports SPORT0 and SPORT1 (68_sport.md; 68_sport_mcm.md). Offsets are from 0xFFC00800 and
0xFFC00900.
-/

namespace Sys2Proof.Machine

/-- Port `x`. -/
def Sys.sport (y : Sys) (x : Nat) : Sport := y.sports.toList.getD x .reset

/-- Replace port `x`. -/
def State.setSport (s : State) (x : Nat) (p : Sport) : State :=
  { s with sys := { s.sys with sports := s.sys.sports.setIfInBounds x p } }

/-! ## Fields (R1356 to R1359, R1401, R1402) -/

/-- TSPEN. -/
def Sport.tspen (p : Sport) : Bool := p.tcr1.getLsbD 0
/-- RSPEN. -/
def Sport.rspen (p : Sport) : Bool := p.rcr1.getLsbD 0
/-- TDTYPE. -/
def Sport.tdtype (p : Sport) : BitVec 2 := p.tcr1.extractLsb' 2 2
/-- RDTYPE. -/
def Sport.rdtype (p : Sport) : BitVec 2 := p.rcr1.extractLsb' 2 2
/-- ITFS. -/
def Sport.itfs (p : Sport) : Bool := p.tcr1.getLsbD 9
/-- IRFS. -/
def Sport.irfs (p : Sport) : Bool := p.rcr1.getLsbD 9
/-- TFSR. -/
def Sport.tfsr (p : Sport) : Bool := p.tcr1.getLsbD 10
/-- RFSR. -/
def Sport.rfsr (p : Sport) : Bool := p.rcr1.getLsbD 10
/-- DITFS. -/
def Sport.ditfs (p : Sport) : Bool := p.tcr1.getLsbD 11
/-- ITCLK. -/
def Sport.itclk (p : Sport) : Bool := p.tcr1.getLsbD 1
/-- IRCLK. -/
def Sport.irclk (p : Sport) : Bool := p.rcr1.getLsbD 1
/-- TSFSE. -/
def Sport.tsfse (p : Sport) : Bool := p.tcr2.getLsbD 9
/-- RSFSE. -/
def Sport.rsfse (p : Sport) : Bool := p.rcr2.getLsbD 9
/-- The SLEN field of a second configuration register. -/
def slen (cr2 : HWord) : Nat := (cr2.extractLsb' 0 5).toNat
/-- The transmit word length `n_t`. -/
def Sport.nt (p : Sport) : Nat := slen p.tcr2 + 1
/-- The receive word length `n_r`. -/
def Sport.nr (p : Sport) : Nat := slen p.rcr2 + 1
/-- TXSE. -/
def Sport.txse (p : Sport) : Bool := p.tcr2.getLsbD 8
/-- RXSE. -/
def Sport.rxse (p : Sport) : Bool := p.rcr2.getLsbD 8
/-- MCMEN. -/
def Sport.mcmen (p : Sport) : Bool := p.mcmc2.getLsbD 4
/-- MCDTXPE. -/
def Sport.txPacked (p : Sport) : Bool := p.mcmc2.getLsbD 2
/-- MCDRXPE. -/
def Sport.rxPacked (p : Sport) : Bool := p.mcmc2.getLsbD 3
/-- WOFF. -/
def Sport.woff (p : Sport) : Nat := (p.mcmc1.extractLsb' 0 10).toNat
/-- The number of channels of the active window (R1405). -/
def Sport.window (p : Sport) : Nat := 8 * ((p.mcmc1.extractLsb' 12 4).toNat + 1)
/-- MFD. -/
def Sport.mfd (p : Sport) : Nat := (p.mcmc2.extractLsb' 12 4).toNat
/-- `SportActive` (R1352). -/
def Sport.active (p : Sport) : Bool := p.tspen || p.rspen

/-! ## The clock dividers in force (R1360) -/

/-- The divider in force and the mark after a frame sync: a changed divider is taken up, but where the sync is internal and
not required (`late`) only at the second one. -/
def uptake (late : Bool) (inForce stored : HWord) (new : Bool) : HWord × Bool :=
  if late && inForce != stored && !new then (inForce, true) else (stored, false)

/-- A transmit frame sync, as the transmit clock sees it; ITFS and TFSR have no effect in multichannel mode (R1403). -/
def Sport.tclkSync (p : Sport) : Sport :=
  let u := uptake (p.itfs && !p.tfsr && !p.mcmen) p.tclk p.tclkdiv p.tclkNew
  { p with tclk := u.1, tclkNew := u.2 }

/-- A receive frame sync, as the receive clock sees it; RFSR has no effect in multichannel mode (R1403). -/
def Sport.rclkSync (p : Sport) : Sport :=
  let u := uptake (p.irfs && !p.rfsr && !p.mcmen) p.rclk p.rclkdiv p.rclkNew
  { p with rclk := u.1, rclkNew := u.2 }

/-- A store to SPORTx_TCLKDIV: only an internal clock that runs keeps its divider until a frame sync; in multichannel mode
ITCLK has no effect (R1403). -/
def Sport.setTclkdiv (p : Sport) (h : HWord) : Sport :=
  { p with tclkdiv := h, tclk := if p.tspen && p.itclk && !p.mcmen then p.tclk else h, tclkNew := false }

/-- A store to SPORTx_RCLKDIV; in multichannel mode both sides run on the receive clock (R1404). -/
def Sport.setRclkdiv (p : Sport) (h : HWord) : Sport :=
  { p with rclkdiv := h, rclk := if (p.rspen || (p.mcmen && p.tspen)) && p.irclk then p.rclk else h, rclkNew := false }

/-! ## Data formats (R1363 to R1366) -/

/-- The low `n` bits of a word. -/
def lowBits (n : Nat) (w : Word) : Word := w &&& BitVec.ofNat 32 (2 ^ n - 1)

/-- `w` with bit `n - 1` and up as its sign. -/
def signBits (n : Nat) (w : Word) : Word :=
  if w.getLsbD (n - 1) then lowBits n w ||| ~~~BitVec.ofNat 32 (2 ^ n - 1) else lowBits n w

/-- `RxFormat` (R1365): the word as the data register shows it, 16 bits wide for word lengths up to 16. -/
def Sport.rxFormat (p : Sport) (w : Word) : Word :=
  let w' :=
    match p.rdtype.toNat with
    | 0 => lowBits p.nr w
    | 1 => signBits p.nr w
    | 2 => ofH ((Config.expandMu (w.extractLsb' 0 8)).signExtend 16)
    | _ => ofH ((Config.expandA (w.extractLsb' 0 8)).signExtend 16)
  if p.nr ≤ 16 then lowBits 16 w' else w'

/-- A 16-bit value limited to `n` bits: a larger magnitude is compressed to the maximum positive or negative value
(R1366). -/
def saturate (n : Nat) (h : HWord) : BitVec n := BitVec.ofInt n (max (-2 ^ (n - 1)) (min h.toInt (2 ^ (n - 1) - 1)))

/-- `TxFormat` (R1365). -/
def Sport.txFormat (p : Sport) (v : Word) : Word :=
  match p.tdtype.toNat with
  | 2 => lowBits p.nt ((Config.compressMu (saturate 14 (half .lo v))).signExtend 32)
  | 3 => lowBits p.nt ((Config.compressA (saturate 13 (half .lo v))).signExtend 32)
  | _ => lowBits p.nt v

/-! ## Transmitting (R1370 to R1376) -/

/-- The occupancy of the transmit FIFO in 16-bit places. -/
def Sport.occ (p : Sport) : Nat := p.txq.foldl (fun n x => n + (if x.2 then 2 else 1)) 0

/-- TXF (R1384). -/
def Sport.txf (p : Sport) : Bool := decide (8 < p.occ + (if p.nt ≤ 16 then 1 else 2))

/-- `SportTxWrite` (R1371); `wide`: a 32-bit write. -/
def Sport.txWrite (p : Sport) (v : Word) (wide : Bool) : Sport :=
  if 8 < p.occ + (if wide then 2 else 1) then { p with tovf := true } else { p with txq := p.txq ++ [(v, wide)] }

/-- The number of FIFO words that a word time takes on the transmit side. -/
def Sport.txPair (p : Sport) : Nat := if p.txse then 2 else 1

/-- `SportTxLoad` is enabled (R1372). -/
def Sport.loads (p : Sport) : Bool := p.tspen && p.thold.isNone && decide (p.txPair ≤ p.txq.length)

/-- A value of the FIFO has the size that the word length asks for (R1371, D83). -/
def Sport.sizeOk (p : Sport) (x : Word × Bool) : Bool := x.2 == decide (16 < p.nt)

/-- `SportTxLoad`; none where a value has the wrong size (D83). -/
def Sport.load (p : Sport) : Option Sport :=
  let a := p.txq.headD (0, false)
  let b := (p.txq.drop 1).headD a
  if p.sizeOk a && (!p.txse || p.sizeOk b) then
    some { p with thold := some (p.txFormat a.1, if p.txse then p.txFormat b.1 else 0), txq := p.txq.drop p.txPair }
  else none

/-- A word starts: the hold register moves to the shift register, or the last word goes again (R1373, R1374); in stereo
mode the channels take turns (R1393). -/
def Sport.startWord (p : Sport) : Sport :=
  let p := { p with txBusy := true, right := p.right != p.tsfse }
  match p.thold with
  | some h => { p with tshift := h, thold := none }
  | none => { p with tuvf := true }

/-- What the world sees of the word that port `x` starts to send; `p` is the port before (R1373, R1407, R1419). -/
def State.showWord (s : State) (x : Nat) (p : Sport) : State :=
  let q := s.sys.sport x
  s.emit (.txWord x q.tshift.1 (if q.txse then q.tshift.2 else 0) q.tcr1 q.tcr2 q.tclk q.tfsdiv (p.right && q.tsfse)
    (if q.mcmen then some q.chan else none) q.mcmc2 q.rcr1 q.rclk q.rfsdiv)

/-- A transmit frame sync can be accepted: no word in progress, and in unframed mode the first one (R1373, R1376). -/
def Sport.takesTfs (p : Sport) : Bool := p.tspen && !p.mcmen && !p.txBusy && (p.tfsr || !p.txStarted)

/-- A transmit frame sync that starts a word (R1373, R1376): the transmit clock takes up its divider (R1360). -/
def Sport.tfs (p : Sport) : Sport := { p.tclkSync.startWord with txStarted := true }

/-- The port generates a transmit frame sync (R1373, R1375). -/
def Sport.makesTfs (p : Sport) : Bool := p.takesTfs && p.itfs && (p.ditfs || p.thold.isSome)

/-- `SportTxEnd` is enabled. -/
def Sport.txEnds (p : Sport) : Bool := p.tspen && !p.mcmen && p.txBusy

/-- `SportTxEnd`: in unframed mode the next word starts at once (R1376), without a frame sync. -/
def Sport.txEnd (p : Sport) : Sport := if p.tfsr then { p with txBusy := false } else p.startWord

/-! ## Receiving (R1380 to R1382) -/

/-- A receive frame sync can be accepted outside multichannel mode. -/
def Sport.takesRfs (p : Sport) : Bool := p.rspen && !p.mcmen && !p.rxBusy && (p.rfsr || !p.rxStarted)

/-- A receive frame sync starts a word (R1381); in stereo mode the channels take turns (R1393). -/
def Sport.rfs (p : Sport) : Sport :=
  { p.rclkSync with rxBusy := true, rxStarted := true, rxRight := p.rxRight != p.rsfse }

/-- A receive frame sync comes that starts no word: in unframed mode all but the first (R1376, R1381). -/
def Sport.idleRfs (p : Sport) : Bool := p.rspen && !p.mcmen && !p.rfsr && p.rxStarted

/-- A transmit frame sync comes that starts no word. -/
def Sport.idleTfs (p : Sport) : Bool := p.tspen && !p.mcmen && !p.tfsr && p.txStarted

/-- What the world sees of a receive frame sync that port `x` generates; `p` is the port before (R1419). -/
def State.showRfs (s : State) (x : Nat) (p : Sport) : State :=
  let q := s.sys.sport x
  s.emit (.rfsOut x (p.rxRight && q.rsfse) q.rcr1 q.rcr2 q.rclk q.rfsdiv)

/-- What the world sees of an external receive frame sync that port `x` has taken, of the internal clock too; `p` is the port
before (R1393, R1419). -/
def State.showTaken (s : State) (x : Nat) (p : Sport) : State :=
  let q := s.sys.sport x
  s.emit (.rfsTaken x (p.rxRight && q.rsfse) q.rcr1 q.rcr2 q.rclk)

/-- An internal transmit frame sync comes that starts no word: the pin still pulses (R1376). -/
def Sport.pulsesTfs (p : Sport) : Bool := p.idleTfs && p.itfs && (p.ditfs || p.thold.isSome)

/-- The end of a word time is due. -/
def Sport.rxEnds (p : Sport) : Bool := p.rspen && !p.mcmen && p.rxBusy

/-- `SportRxWordDone`. -/
def Sport.wordDone (p : Sport) (a b : Word) : Sport :=
  { p with rovf := p.rovf || p.rhold.isSome, rhold := some (lowBits p.nr a, if p.rxse then lowBits p.nr b else 0) }

/-- The end of a word time with these bits; in unframed mode the next word time starts at once. -/
def Sport.rxEnd (p : Sport) (a b : Word) : Sport :=
  { p.wordDone a b with rxBusy := !p.rfsr, rxRight := p.rxRight != (p.rsfse && !p.rfsr) }

/-- The number of words that a word time brings. -/
def Sport.rxPair (p : Sport) : Nat := if p.rxse then 2 else 1

/-- `SportRxMove` is enabled. -/
def Sport.rxMoves (p : Sport) : Bool :=
  p.rhold.isSome && decide (p.rxq.length + p.rxPair ≤ (if p.nr ≤ 16 then 8 else 4))

/-- `SportRxMove`. -/
def Sport.rxMove (p : Sport) : Sport :=
  match p.rhold with
  | some (a, b) =>
    { p with rxq := p.rxq ++ (if p.rxse then [p.rxFormat a, p.rxFormat b] else [p.rxFormat a]), rhold := none }
  | none => p

/-- `SportRxRead` (R1382): 16 or, `wide`, 32 bits; none where the size does not fit the word length (D83). -/
def Sport.rxRead (p : Sport) (wide : Bool) : Option (Word × Sport) :=
  if wide != decide (16 < p.nr) then none
  else
    let cut (v : Word) : Word := if wide then v else lowBits 16 v
    match p.rxq with
    | [] => some (cut p.lastRx, { p with ruvf := true })
    | v :: vs => some (cut v, { p with rxq := vs, lastRx := v })

/-! ## Multichannel mode (R1404 to R1409) -/

/-- The last channel of the frame, plus one (R1405). -/
def Sport.frameEnd (p : Sport) : Nat := Nat.min (p.woff + p.window) 1024

/-- Channel `c` is in the window (R1405). -/
def Sport.inWindow (p : Sport) (c : Nat) : Bool := decide (p.woff ≤ c ∧ c < p.frameEnd)

/-- Window index `i` is selected by the registers `v` (R1405, R1410). -/
def selected (v : Vector Word 4) (i : Nat) : Bool := (v.toList.getD (i / 32) 0).getLsbD (i % 32)

/-- A frame sync can start a frame. -/
def Sport.takesFrame (p : Sport) : Bool := p.mcmen && p.active && !p.frame

/-- A frame sync during the last channels of a frame starts the next one if what remains of the frame is at most MFD
clocks (R1404). Inside a slot the model does not know how much of it has gone: `maybe`. -/
def Sport.overlaps (p : Sport) (maybe : Bool) : Bool :=
  p.mcmen && p.active && p.frame && !p.again
    && (if maybe then p.slot && decide ((p.frameEnd - 1 - p.chan) * p.nr < p.mfd)
        else decide ((p.frameEnd - p.chan) * p.nr ≤ p.mfd))

/-- A frame starts at channel 0. -/
def Sport.startFrame (p : Sport) : Sport :=
  { p.tclkSync.rclkSync with frame := true, again := false, chan := 0, slot := false, chanFrom := 0, chanTo := 0 }

/-- A frame sync of port `x` in multichannel mode (R1404). -/
def State.frameSync (s : State) (x : Nat) : State :=
  let p := s.sys.sport x
  if p.takesFrame then s.setSport x p.startFrame
  else if p.overlaps false then s.setSport x { p with again := true }
  else if p.overlaps true then
    let (b, s) := s.drawBit
    s.setSport x { p with again := b }
  else s

/-- The transmitter sends in the slot of the current channel (R1407). -/
def Sport.transmits (p : Sport) : Bool := p.tspen && p.inWindow p.chan && selected p.mtcs (p.chan - p.woff)

/-- A time slot starts (R1407, R1410). -/
def Sport.slotStart (p : Sport) : Sport :=
  let sel := selected p.mtcs (p.chan - p.woff)
  let p' := { p with slot := true, txBusy := p.transmits, rxSel := selected p.mrcs (p.chan - p.woff) }
  if p.tspen && p.inWindow p.chan && (sel || !p.txPacked) then
    match p.thold with
    | some h => { p' with tshift := h, thold := none }
    | none => { p' with tuvf := p.tuvf || sel }
  else p'

/-- A time slot ends (R1408): a window channel that is not selected brings a placeholder unless words are packed. After
the last channel the frame is over (R1409). -/
def Sport.slotEnd (p : Sport) (a b : Word) : Sport :=
  let p := { p with txBusy := false }
  let p' := if p.rspen && p.inWindow p.chan && (p.rxSel || !p.rxPacked) then p.wordDone a b else p
  if p.chan + 1 < p.frameEnd then { p' with slot := false, chan := p.chan + 1, chanTo := p.chan + 1 }
  else if p.again then p'.startFrame
  else { p' with slot := false, frame := false, chan := 0 }

/-! ## Requests (R1385) -/

/-- `SportRxReq`. -/
def Sport.rxReq (p : Sport) : Bool := p.rspen && !p.rxq.isEmpty
/-- `SportTxReq`. -/
def Sport.txReq (p : Sport) : Bool := p.tspen && !p.txf
/-- `SportErrReq`. -/
def Sport.errReq (p : Sport) : Bool := p.ruvf || p.rovf || p.tuvf || p.tovf

/-! ## What the port does on its own -/

/-- The steps of a port. -/
inductive SportMove where
  | load | txStart | txEnd | rxStart | rxEnd | rxMove | frame | slotStart | slotEnd
  deriving DecidableEq, Repr

/-- Every step of a port. -/
def sportMoves : List SportMove := [.load, .txStart, .txEnd, .rxStart, .rxEnd, .rxMove, .frame, .slotStart, .slotEnd]

/-- A step of the port is enabled. An internal frame sync comes whether or not a word starts with it (R1404, R1376; log entry
98). -/
def Sport.can (p : Sport) : SportMove → Bool
  | .load => p.loads
  | .txStart => p.makesTfs || p.pulsesTfs
  | .txEnd => p.txEnds
  | .rxStart => (p.takesRfs || p.idleRfs) && p.irfs
  | .rxEnd => p.rxEnds
  | .rxMove => p.rxMoves
  | .frame => p.mcmen && p.active && p.irfs
  | .slotStart => p.frame && !p.slot
  | .slotEnd => p.frame && p.slot

/-- The word time in progress ends, with these bits on the two pins (R1381, R1408); a channel that is not selected brings
free bits. -/
def State.sportBits (s : State) (x : Nat) (a b : Word) : State :=
  let p := s.sys.sport x
  if p.rxEnds then s.setSport x (p.rxEnd a b)
  else if p.mcmen && p.frame && p.slot then
    if p.rxSel then s.setSport x (p.slotEnd a b)
    else
      let (a, s) := s.drawWord
      let (b, s) := s.drawWord
      s.setSport x (p.slotEnd a b)
  else s

/-- The word time ends with free bits on the pins: no input says what the world puts there. -/
def State.sportFreeBits (s : State) (x : Nat) : State :=
  let (a, s) := s.drawWord
  let (b, s) := s.drawWord
  s.sportBits x a b

/-- A step of port `x`; none where the FIFO holds a value of the wrong size (D83). -/
def State.sportMove (s : State) (x : Nat) (m : SportMove) : Option State :=
  let p := s.sys.sport x
  let set (q : Sport) : Option State := some (s.setSport x q)
  match m with
  | .load => p.load.map (s.setSport x)
  | .txStart => if p.makesTfs then some ((s.setSport x p.tfs).showWord x p) else set p.tclkSync
  | .txEnd =>
    let t := s.setSport x p.txEnd
    some (if p.tfsr then t else t.showWord x p)
  | .rxStart => some ((s.setSport x (if p.takesRfs then p.rfs else p.rclkSync)).showRfs x p)
  | .rxEnd => some (s.sportFreeBits x)
  | .rxMove => set p.rxMove
  | .frame => some ((s.frameSync x).showRfs x p)
  | .slotStart =>
    let t := s.setSport x p.slotStart
    some (if p.transmits then t.showWord x p else t)
  | .slotEnd => some (s.sportFreeBits x)

/-- An external transmit frame sync: where none can be accepted (R1373, R1376) at most the clock takes up its divider
(R1360); none in multichannel mode, where TFS is an output (R1404). -/
def State.sportTfsIn (s : State) (x : Nat) : State :=
  let p := s.sys.sport x
  if p.itfs then s
  else if p.takesTfs then (s.setSport x p.tfs).showWord x p
  else if p.idleTfs then s.setSport x p.tclkSync
  else s

/-- An external receive frame sync (R1381, R1404), which is reported (R1393, R1419), in multichannel mode while the port is
active and in unframed mode where it starts no word too. -/
def State.sportRfsIn (s : State) (x : Nat) : State :=
  let p := s.sys.sport x
  if p.irfs then s
  else if p.takesRfs then (s.setSport x p.rfs).showTaken x p
  else if p.idleRfs then (s.setSport x p.rclkSync).showTaken x p
  else if p.mcmen && p.active then (s.frameSync x).showTaken x p
  else s

/-! ## Enabling and disabling (R1367 to R1369) -/

/-- A setting of a second and first configuration register that no side may be enabled with (R1369 (a), (c)). -/
def badLength (dtype : BitVec 2) (cr2 : HWord) : Bool :=
  decide (slen cr2 < 2) || (dtype.getLsbD 1 && decide (15 < slen cr2))

/-- What multichannel mode asks of both sides (R1369 (e), (f), R1403). -/
def Sport.badMcm (p : Sport) : Bool :=
  p.mcmen &&
    (p.tcr1.getLsbD 13 || p.rcr1.getLsbD 13 || p.tcr2.getLsbD 9 || p.rcr2.getLsbD 9
      || p.tcr1.getLsbD 14 != p.rcr1.getLsbD 14 || p.nt != p.nr || p.mcmc2.extractLsb' 0 2 == 1)

/-- The transmitter may not be enabled so (R1369, R1368). -/
def Sport.badTx (p : Sport) : Bool :=
  badLength p.tdtype p.tcr2 || p.tdtype == 1 || (!p.mcmen && p.itfs && decide (p.tfsdiv.toNat < slen p.tcr2))
    || (p.mcmen && p.irfs && decide (p.rfsdiv.toNat < slen p.tcr2)) || p.badMcm || (p.mcmen && p.halfOff)

/-- The receiver may not be enabled so (R1369). -/
def Sport.badRx (p : Sport) : Bool :=
  badLength p.rdtype p.rcr2 || (p.irfs && decide (p.rfsdiv.toNat < slen p.rcr2)) || p.badMcm

/-- No frame is in progress. -/
def Sport.noFrame (p : Sport) : Sport :=
  { p with frame := false, again := false, chan := 0, slot := false, chanFrom := 0, chanTo := 0 }

/-- A store to SPORTx_TCR1 (R1362, R1368). -/
def sportTcr1 (x : Nat) (v : HWord) (s : State) : MmrRes :=
  let p := s.sys.sport x
  if v.getLsbD 0 then
    if p.tspen then .ok 0 s
    else
      let q := { p with tcr1 := v &&& 0x7E1F, right := p.tcr2.getLsbD 10, tclk := p.tclkdiv, tclkNew := false }
      if q.badTx then .refused .unitSetting else .ok 0 (s.setSport x q)
  else if p.tspen then
    let (a, s) := s.drawWord
    let (b, s) := s.drawWord
    let q := { p with tcr1 := p.tcr1 &&& 0xFFFE, txq := [], thold := none, txStarted := false, txBusy := false,
                      tshift := (a, b), tuvf := false, tovf := false, halfOff := p.mcmen && p.rspen }
    let s := s.setSport x (if p.rspen then q else q.noFrame)
    .ok 0 (if p.txBusy then s.emit (.txAbort x) else s)
  else .ok 0 (s.setSport x { p with tcr1 := v &&& 0x7E1F, tuvf := false, tovf := false })

/-- A store to SPORTx_RCR1 (R1362, R1368): in multichannel mode the receiver is not disabled before the transmitter. -/
def sportRcr1 (x : Nat) (v : HWord) (s : State) : MmrRes :=
  let p := s.sys.sport x
  if v.getLsbD 0 then
    if p.rspen then .ok 0 s
    else
      let q := { p with rcr1 := v &&& 0x761F, rxRight := p.rcr2.getLsbD 10, rclk := p.rclkdiv, rclkNew := false }
      if q.badRx then .refused .unitSetting else .ok 0 (s.setSport x q)
  else if p.rspen then
    if p.mcmen && p.tspen then .refused .unitSetting
    else
      let q := { p with rcr1 := p.rcr1 &&& 0xFFFE, rxq := [], rhold := none, rxStarted := false, rxBusy := false,
                        ruvf := false, rovf := false, halfOff := false }
      .ok 0 (s.setSport x (if p.tspen then q else q.noFrame))
  else .ok 0 (s.setSport x { p with rcr1 := v &&& 0x761F, ruvf := false, rovf := false })

/-! ## Registers (R1354, R1355) -/

/-- SPORTx_STAT (R1384). -/
def Sport.stat (p : Sport) : Word :=
  BitVec.ofNat 32 ((!p.rxq.isEmpty).toNat + p.ruvf.toNat * 2 + p.rovf.toNat * 4 + p.txf.toNat * 8 + p.tuvf.toNat * 16
    + p.tovf.toNat * 32 + p.thold.isNone.toNat * 64)

/-- A load of SPORTx_CHNL (R1409): one of the values that the channel number has had since the last load or since the
frame began; between frames ten free bits; 0 outside multichannel mode and of a port that is not enabled. -/
def sportChnl (x : Nat) (s : State) : MmrRes :=
  let p := s.sys.sport x
  if !p.mcmen || !p.active then .ok 0 s
  else if !p.frame then
    let (w, s) := s.drawWord
    .ok (lowBits 10 w) s
  else
    let (n, s) := s.drawNat
    let (now, s) := s.drawBit
    let c := if now && decide (p.chan < p.chanFrom) then p.chan else p.chanFrom + n % (p.chanTo - p.chanFrom + 1)
    .ok (BitVec.ofNat 32 c) (s.setSport x { p with chanFrom := p.chan, chanTo := p.chan })

/-- A load of SPORTx_RX (R1382). -/
def sportRx (x : Nat) (wide : Bool) (s : State) : MmrRes :=
  match (s.sys.sport x).rxRead wide with
  | some (v, p) => .ok v (s.setSport x p)
  | none => .refused .unitSetting

/-- A load from port `x`. -/
def sportRead (x off n : Nat) (s : State) : MmrRes :=
  let p := s.sys.sport x
  match off, n with
  | 0x00, 2 => .ok (ofH p.tcr1) s
  | 0x04, 2 => .ok (ofH p.tcr2) s
  | 0x08, 2 => .ok (ofH p.tclkdiv) s
  | 0x0C, 2 => .ok (ofH p.tfsdiv) s
  | 0x18, 2 => sportRx x false s
  | 0x18, 4 => sportRx x true s
  | 0x20, 2 => .ok (ofH p.rcr1) s
  | 0x24, 2 => .ok (ofH p.rcr2) s
  | 0x28, 2 => .ok (ofH p.rclkdiv) s
  | 0x2C, 2 => .ok (ofH p.rfsdiv) s
  | 0x30, 2 => .ok p.stat s
  | 0x34, 2 => sportChnl x s
  | 0x38, 2 => .ok (ofH p.mcmc1) s
  | 0x3C, 2 => .ok (ofH p.mcmc2) s
  | _, 4 =>
    if 0x40 ≤ off ∧ off < 0x60 ∧ off % 4 = 0 then
      .ok ((p.mtcs.toList ++ p.mrcs.toList).getD ((off - 0x40) / 4) 0) s
    else .error
  | _, _ => .error

/-- A store to a select register (R1410): refused where words are packed and the side is enabled. -/
def sportSelect (x off : Nat) (v : Word) (s : State) : MmrRes :=
  let p := s.sys.sport x
  if off % 4 ≠ 0 then .error
  else if 0x40 ≤ off ∧ off < 0x50 then
    if p.tspen && p.txPacked then .refused .unitSetting
    else .ok 0 (s.setSport x { p with mtcs := p.mtcs.setIfInBounds ((off - 0x40) / 4) v })
  else if 0x50 ≤ off ∧ off < 0x60 then
    if p.rspen && p.rxPacked then .refused .unitSetting
    else .ok 0 (s.setSport x { p with mrcs := p.mrcs.setIfInBounds ((off - 0x50) / 4) v })
  else .error

/-- A store to port `x` (R1362). -/
def sportWrite (x off n : Nat) (v : Word) (s : State) : MmrRes :=
  let p := s.sys.sport x
  let h := half .lo v
  let ok (q : Sport) : MmrRes := .ok 0 (s.setSport x q)
  match off, n with
  | 0x00, 2 => sportTcr1 x h s
  | 0x04, 2 => if p.tspen then .ok 0 s else ok { p with tcr2 := h &&& 0x071F }
  | 0x08, 2 => ok (p.setTclkdiv h)
  | 0x0C, 2 => if p.tspen then .ok 0 s else ok { p with tfsdiv := h }
  | 0x10, 2 => ok (p.txWrite (ofH h) false)
  | 0x10, 4 => ok (p.txWrite v true)
  | 0x20, 2 => sportRcr1 x h s
  | 0x24, 2 => if p.rspen then .ok 0 s else ok { p with rcr2 := h &&& 0x071F }
  | 0x28, 2 => ok (p.setRclkdiv h)
  | 0x2C, 2 => if p.rspen then .ok 0 s else ok { p with rfsdiv := h }
  | 0x30, 2 =>
    ok { p with ruvf := p.ruvf && !h.getLsbD 1, rovf := p.rovf && !h.getLsbD 2, tuvf := p.tuvf && !h.getLsbD 4,
                tovf := p.tovf && !h.getLsbD 5 }
  | 0x38, 2 => if p.active then .ok 0 s else ok { p with mcmc1 := h &&& 0xF3FF }
  | 0x3C, 2 => if p.active then .ok 0 s else ok { p with mcmc2 := h &&& 0xF09F }
  | _, 4 => sportSelect x off v s
  | _, _ => .error

end Sys2Proof.Machine
end

