-- ==== Sys2Proof/Machine/Uart.lean ====
section
/-!
DEFINITION. The UART (68_serial.md section B). Offsets are from 0xFFC00400.
-/

namespace Sys2Proof.Machine

/-- The state with another UART. -/
def State.setUart (s : State) (u : Uart) : State := { s with sys := { s.sys with uart := u } }

/-- DLAB (R1432). -/
def Uart.dlab (u : Uart) : Bool := u.lcr.getLsbD 7
/-- UCEN (R1436). -/
def Uart.ucen (u : Uart) : Bool := u.gctl.getLsbD 0
/-- PEN (R1432). -/
def Uart.pen (u : Uart) : Bool := u.lcr.getLsbD 3

/-- The bits of a word of the length that WLS selects (R1432, D81). -/
def Uart.wordMask (u : Uart) : Byte := BitVec.ofNat 8 (2 ^ (5 + (u.lcr.extractLsb' 0 2).toNat) - 1)

/-! ## Requests (R1441) -/

/-- The receive request. -/
def Uart.rxReq (u : Uart) : Bool := u.ier.getLsbD 0 && u.dr
/-- The transmit request. -/
def Uart.txReqLine (u : Uart) : Bool := u.ier.getLsbD 1 && u.txreq
/-- The line-status request. -/
def Uart.errReq (u : Uart) : Bool := u.ier.getLsbD 2 && (u.oe || u.pe || u.fe || u.bi)

/-! ## Transmitting and receiving (R1437, R1438) -/

/-- A store to UART_THR. -/
def Uart.putThr (u : Uart) (v : Byte) : Uart := { u with thr := v, thre := false, txreq := false }

/-- A load of UART_RBR. -/
def Uart.takeRbr (u : Uart) : Byte × Uart := (u.rbr, { u with dr := false })

/-- `UartLoad` is enabled. -/
def Uart.loads (u : Uart) : Bool := !u.thre && !u.tsrFull

/-- `UartLoad`. -/
def Uart.load (u : Uart) : Uart := { u with tsr := u.thr, tsrFull := true, thre := true, txreq := true }

/-- `UartRecv`: a frame arrives. -/
def Uart.recv (u : Uart) (d : Byte) (parityBad stopBad brk : Bool) : Uart :=
  { u with oe := u.oe || u.dr, rbr := d &&& u.wordMask, dr := true, pe := u.pe || (u.pen && parityBad),
           fe := u.fe || stopBad, bi := u.bi || brk }

/-- `UartSent` is enabled. -/
def Uart.sends (u : Uart) : Bool := u.tsrFull && u.ucen

/-- FPE (R1436). -/
def Uart.fpe (u : Uart) : Bool := u.gctl.getLsbD 4
/-- FFE (R1436). -/
def Uart.ffe (u : Uart) : Bool := u.gctl.getLsbD 5
/-- SB: the TX pin is forced low (R1432). -/
def Uart.sb (u : Uart) : Bool := u.lcr.getLsbD 6

/-- The parity bit of a frame with the data bits `d` (R1432). -/
def Uart.parity (u : Uart) (d : Byte) : Bool :=
  let odd := (List.range 8).foldl (fun b i => b != d.getLsbD i) false
  if u.lcr.getLsbD 5 then !u.lcr.getLsbD 4 else odd != !u.lcr.getLsbD 4

/-- The frame that carries the byte in the shift register, with the forced errors (R1436, R1437, R1448). -/
def Uart.frame (u : Uart) : Output :=
  let d := u.tsr &&& u.wordMask
  .uartSent (5 + (u.lcr.extractLsb' 0 2).toNat) d (if u.pen then some (u.parity d != u.fpe) else none) (!u.ffe) u.sb

/-- `UartSent`: in loopback the frame arrives at the receiver, and whether the TX pin carries it too is free (R1433,
R1437). -/
def State.uartSent (s : State) : State :=
  let u := s.sys.uart
  let u' := { u with tsrFull := false }
  if u.loop then
    let (b, s) := s.drawBit
    let s := s.setUart (u'.recv u.tsr u.fpe u.ffe false)
    if b then s.emit u.frame else s
  else (s.setUart u').emit u.frame

/-! ## Registers (R1431) -/

/-- A byte as a word. -/
def ofB (b : Byte) : Word := b.zeroExtend 32

/-- UART_LSR (R1434). -/
def Uart.lsr (u : Uart) : Word :=
  BitVec.ofNat 32 (u.dr.toNat + u.oe.toNat * 2 + u.pe.toNat * 4 + u.fe.toNat * 8 + u.bi.toNat * 16 + u.thre.toNat * 32
    + (u.thre && !u.tsrFull).toNat * 64)

/-- A load of UART_IIR (R1442). -/
def Uart.iir (u : Uart) : Word × Uart :=
  if u.errReq then (6, u) else if u.rxReq then (4, u) else if u.txReqLine then (2, { u with txreq := false }) else (1, u)

/-- A load from a UART register. -/
def uartRead (off n : Nat) (s : State) : MmrRes :=
  let u := s.sys.uart
  match off, n with
  | 0x00, 2 => if u.dlab then .ok (ofB u.dll) s else .ok (ofB u.rbr) (s.setUart u.takeRbr.2)
  | 0x04, 2 => .ok (if u.dlab then ofB u.dlh else u.ier.zeroExtend 32) s
  | 0x08, 2 => .ok u.iir.1 (s.setUart u.iir.2)
  | 0x0C, 2 => .ok (ofB u.lcr) s
  | 0x10, 2 => .ok (bitField u.loop 4) s
  | 0x14, 2 => .ok u.lsr (s.setUart { u with oe := false, pe := false, fe := false, bi := false })
  | 0x1C, 2 => .ok (ofB u.scr) s
  | 0x24, 2 => .ok (u.gctl.zeroExtend 32) s
  | _, _ => .error
where
  /-- A word with bit `n` as `b`. -/
  bitField (b : Bool) (n : Nat) : Word := if b then BitVec.ofNat 32 (2 ^ n) else 0

/-- A store to a UART register: setting ETBEI while UART_THR is empty raises the transmit request (R1440, R1441). -/
def uartWrite (off n : Nat) (v : Word) (s : State) : MmrRes :=
  let u := s.sys.uart
  let b := v.extractLsb' 0 8
  match off, n with
  | 0x00, 2 => .ok 0 (s.setUart (if u.dlab then { u with dll := b } else u.putThr b))
  | 0x04, 2 =>
    .ok 0 (s.setUart
      (if u.dlab then { u with dlh := b }
       else { u with ier := v.extractLsb' 0 3, txreq := u.txreq || (v.getLsbD 1 && !u.ier.getLsbD 1 && u.thre) }))
  | 0x08, 2 => .ok 0 s
  | 0x0C, 2 =>
    let t := s.setUart { u with lcr := b }
    .ok 0 (if u.sb = b.getLsbD 6 then t else t.emit (.uartBreak (b.getLsbD 6)))
  | 0x10, 2 => .ok 0 (s.setUart { u with loop := v.getLsbD 4 })
  | 0x14, 2 => .ok 0 s
  | 0x1C, 2 => .ok 0 (s.setUart { u with scr := b })
  | 0x24, 2 => .ok 0 (s.setUart { u with gctl := v.extractLsb' 0 6 })
  | _, _ => .error

end Sys2Proof.Machine
end

