-- ==== Sys2Proof/Machine/Dma.lean ====
section
/-!
DEFINITION. The DMA controllers (65_buses_dma.md). Channel numbers: 0 to 15 are DMA1, 16 to 31 DMA2, 32 to 35 IMDMA.
-/

namespace Sys2Proof.Machine

/-- Channel `i`. -/
def Sys.chan (y : Sys) (i : Nat) : DmaChan := y.dma.chans.toList.getD i (.reset (fun _ => 0) 0)

/-- Replace channel `i`. -/
def State.setChan (s : State) (i : Nat) (c : DmaChan) : State :=
  { s with sys := { s.sys with dma := { s.sys.dma with chans := s.sys.dma.chans.setIfInBounds i c } } }

/-! ## DMA_CONFIG (R1160) -/

/-- DMAEN. -/
def DmaChan.en (c : DmaChan) : Bool := c.cfg.getLsbD 0
/-- WNR: the channel writes memory. -/
def DmaChan.wnr (c : DmaChan) : Bool := c.cfg.getLsbD 1
/-- WDSIZE. -/
def DmaChan.wdsize (c : DmaChan) : BitVec 2 := c.cfg.extractLsb' 2 2
/-- DMA2D. -/
def DmaChan.twoD (c : DmaChan) : Bool := c.cfg.getLsbD 4
/-- DI_SEL. -/
def DmaChan.diSel (c : DmaChan) : Bool := c.cfg.getLsbD 6
/-- DI_EN. -/
def DmaChan.diEn (c : DmaChan) : Bool := c.cfg.getLsbD 7
/-- NDSIZE. -/
def DmaChan.ndsize (c : DmaChan) : Nat := (c.cfg.extractLsb' 8 4).toNat
/-- FLOW. -/
def DmaChan.flow (c : DmaChan) : Nat := (c.cfg.extractLsb' 12 3).toNat
/-- The element size in bytes (R1163). -/
def DmaChan.esize (c : DmaChan) : Nat := 2 ^ c.wdsize.toNat

/-- `invalid` (R1230): bit 15, WDSIZE, FLOW, and NDSIZE by Table 9-8. -/
def DmaChan.invalid (c : DmaChan) : Bool :=
  c.cfg.getLsbD 15 || c.wdsize == 3 ||
    !(match c.flow with
      | 0 | 1 => c.ndsize == 0
      | 4 => decide (0 < c.ndsize ∧ c.ndsize ≤ 7)
      | 6 => decide (0 < c.ndsize ∧ c.ndsize ≤ 8)
      | 7 => decide (0 < c.ndsize ∧ c.ndsize ≤ 9)
      | _ => false)

/-! ## What a channel is (R1152, R1172, R1200) -/

/-- Number of a channel within its controller; the IMDMA channels count as the memory channels 12 to 15. -/
def chanNo (i : Nat) : Nat := if i < 32 then i % 16 else 12 + (i - 32)

/-- A memory DMA channel. -/
def isMdma (i : Nat) : Bool := decide (12 ≤ chanNo i)

/-- The source channel of a stream: an odd number. -/
def isSource (i : Nat) : Bool := i % 2 == 1

/-- The other channel of a stream. -/
def partner (i : Nat) : Nat := if isSource i then i - 1 else i + 1

/-- The peripherals with DMA (R1172). -/
inductive Periph where
  | ppi (x : Nat)
  | sportRx (x : Nat)
  | sportTx (x : Nat)
  | spi
  | uartRx
  | uartTx
  deriving DecidableEq, Repr

/-- The peripheral that PMAP code `p` names for a channel of DMA1 (false) or DMA2 (true). -/
def periphOf (dma2 : Bool) (p : Nat) : Option Periph :=
  if dma2 then
    (if p < 4 then some (if p % 2 = 0 then .sportRx (p / 2) else .sportTx (p / 2))
     else if p = 4 then some .spi else if p = 5 then some .uartRx else if p = 6 then some .uartTx else none)
  else if p < 2 then some (.ppi p) else none

/-- The peripheral connected to channel `i`: of several channels with one PMAP the highest-numbered has it (R1172). -/
def Sys.connected (y : Sys) (i : Nat) : Option Periph :=
  if isMdma i then none
  else
    let p := (y.chan i).pmap
    if (List.range 12).any fun k => decide (i % 16 < k) && (y.chan (i / 16 * 16 + k)).pmap == p then none
    else periphOf (i / 16 == 1) p.toNat

/-- The request line of a peripheral (R1196). -/
def Sys.request (y : Sys) : Periph → Bool
  | .ppi x => (y.ppi x).dmaReq
  | .sportRx x => (y.sport x).rxReq
  | .sportTx x => (y.sport x).txReq
  | .spi => y.spi.dataReq
  | .uartRx => y.uart.rxReq
  | .uartTx => y.uart.txReqLine

/-- The capacity of a channel's FIFO (R1195). -/
def chanCap (i : Nat) (c : DmaChan) : Nat := if isMdma i then 8 else if c.esize = 4 then 2 else 4

/-- The channel whose FIFO channel `i` uses: a stream has one, kept by its source channel. -/
def fifoOf (i : Nat) : Nat := if isMdma i && !isSource i then i + 1 else i

/-! ## Stopping (R1193, R1230) -/

/-- `stop`: issued accesses still complete, without DMA_DONE. The FIFO of a memory stream is its source's: stopping the
destination alone leaves in it what has been read (DESIGN CHOICE, log entry 107). -/
def DmaChan.stop (c : DmaChan) : DmaChan :=
  { c with phase := .off, run := false, dfetch := false, fifo := [], chain := none,
           pending := c.pending.map fun a => { a with done := false } }

/-- A DMA error of channel `i`: the Current registers become free, the FIFO of its stream is emptied, and the accesses
that it has issued are dropped (DESIGN CHOICE, log entry 107). -/
def State.dmaError (s : State) (i : Nat) : State :=
  let c := s.sys.chan i
  let (a, s) := s.drawWord
  let (d, s) := s.drawWord
  let (x, s) := s.drawWord
  let s := s.setChan i { c.stop with err := true, pending := [], currAddr := a, currDesc := d, currX := half .lo x,
                                     currY := half .hi x }
  s.setChan (fifoOf i) { s.sys.chan (fifoOf i) with fifo := [] }

/-! ## Memory as a channel reaches it (R1151) -/

/-- An external address (D60). -/
def isExternal (a : Word) : Bool := decide (a.toNat < 0xEF000000)

/-- On-chip memory that channel `i` reaches: L2, either core's L1 SRAM, and for a read the boot ROM; IMDMA reaches no
boot ROM. -/
def State.dmaOnChip (s : State) (i x : Nat) (write : Bool) : Bool :=
  let sram (c : Core) : Bool := c.isDataSram x || c.isInstSram x
  inRange Config.l2Base 0x20000 x || sram s.cur || sram s.oth || (inRange 0xEF000000 0x800 x && !write && decide (i < 32))

/-- An access of channel `i` at `a`: `ext` for external memory, `int` for memory on the chip; in Sleep none but external
memory can be reached (R1120). -/
def State.dmaReach {α : Type} (s : State) (i : Nat) (a : Word) (write : Bool) (ext int : BusRes α) : BusRes α :=
  if isExternal a then (if 32 ≤ i then .error s else ext)
  else if !s.dmaOnChip i a.toNat write then .error s
  else if s.sys.power.mode == .sleep then .refused .unitSetting
  else int

/-- Channel `i` reads `n` bytes at `a`. -/
def State.dmaLoad (s : State) (i : Nat) (a : Word) (n : Nat) : BusRes Nat :=
  s.dmaReach i a false (s.extRead (.dma i) a.toNat n) (.ok (s.mem.loadN a.toNat n) s)

/-- Channel `i` writes `n` bytes at `a`. -/
def State.dmaPut (s : State) (i : Nat) (a : Word) (n v : Nat) : BusRes Unit :=
  s.dmaReach i a true (s.extWrite (.dma i) a.toNat n v) (.ok () (s.memStore a.toNat n v))

/-! ## What a channel may not be set to (R1232, R1061) -/

/-- The direction of the channel is the peripheral's; of a PPI and of the SPI as far as they are enabled, for their
directions follow from registers that may be stored later. -/
def Sys.dirOk (y : Sys) (c : DmaChan) : Periph → Bool
  | .sportRx _ | .uartRx => c.wnr
  | .sportTx _ | .uartTx => !c.wnr
  | .ppi x => !(y.ppi x).en || c.wnr != (y.ppi x).tx
  | .spi => !(y.spi.spe && y.spi.timod.getLsbD 1) || c.wnr != y.spi.timod.getLsbD 0

/-- WDSIZE fits the SPI (D78). -/
def Spi.sizeOk (p : Spi) (c : DmaChan) : Bool := c.wdsize == 1 || (c.wdsize == 0 && !p.size16)

/-- The peripheral takes elements of this size (R1308, R1386, D78, R1440), as far as it is enabled: a SPORT 32-bit ones for
word lengths above 16 (R1386, against R1061; log entry 82). -/
def Sys.sizeOk (y : Sys) (c : DmaChan) : Periph → Bool
  | .ppi x => c.wdsize != 0 && (!(y.ppi x).en || (c.wdsize == 2) == (y.ppi x).dma32)
  | .sportRx x => c.wdsize != 0 && (!(y.sport x).rspen || (c.wdsize == 2) == decide (16 < (y.sport x).nr))
  | .sportTx x => c.wdsize != 0 && (!(y.sport x).tspen || (c.wdsize == 2) == decide (16 < (y.sport x).nt))
  | .spi => c.wdsize != 2 && (!y.spi.spe || y.spi.sizeOk c)
  | .uartRx | .uartTx => c.wdsize == 0

/-- The channel has the direction and the element size of its peripheral, or the element size of the other channel of its
stream where that has begun (R1232). -/
def State.dmaAgrees (s : State) (i : Nat) (c : DmaChan) : Bool :=
  if isMdma i then
    let d := s.sys.chan (partner i)
    !(d.run && d.chain.isSome) || c.wdsize == d.wdsize
  else
    match s.sys.connected i with
    | some p => s.sys.dirOk c p && s.sys.sizeOk c p
    | none => true

/-- One of the prohibited situations that the source says nothing more of (R1232): X_COUNT = 1 in 2D, a change of
direction, size or memory space along a chain, the wrong direction or size for the stream or the peripheral, RESTART on a
read or memory channel. -/
def State.dmaProhibited (s : State) (i : Nat) (c : DmaChan) : Bool :=
  (c.twoD && c.xcount == 1) || c.chain.any (· != (isExternal c.start, c.wnr, c.wdsize))
    || (isMdma i && c.wnr == isSource i) || (c.cfg.getLsbD 5 && (isMdma i || !c.wnr)) || !s.dmaAgrees i c

/-- A channel of the UART has elements that are not yet delivered: it may not be disabled so, by a store or by a descriptor
(R1444). -/
def State.uartLeft (s : State) (i : Nat) : Bool :=
  let c := s.sys.chan i
  match s.sys.connected i with
  | some .uartTx | some .uartRx => !c.fifo.isEmpty || !c.pending.isEmpty
  | _ => false

/-! ## Work units (R1191, R1168) -/

/-- The elements of the channel's work unit. -/
def DmaChan.total (c : DmaChan) : Nat :=
  let n (v : HWord) : Nat := if v = 0 then 65536 else v.toNat
  n c.xcount * (if c.twoD then n c.ycount else 1)

/-- Steps 3 to 5: a DMA_CONFIG value that is invalid is an error, one with DMAEN = 0 stops the channel, else a work unit
begins. What the source prohibits without detecting it is refused (R1232). -/
def State.dmaBegin (s : State) (i : Nat) : Outcome :=
  let c := s.sys.chan i
  if c.invalid then .next (s.dmaError i)
  else if !c.en then (if s.uartLeft i then .refused .unitSetting else .next (s.setChan i c.stop))
  else if s.dmaProhibited i c then .refused .unitSetting
  else
    .next (s.setChan i { c with currAddr := c.start, currX := c.xcount, currY := c.ycount, dfetch := false,
                                phase := .transfer, chain := some (isExternal c.start, c.wnr, c.wdsize) })

/-- Step 1: test FLOW; `first`: on a start by software. -/
def State.dmaUnit (s : State) (i : Nat) (first : Bool) : Outcome :=
  let c := s.sys.chan i
  if c.flow < 2 then
    if c.flow = 0 && !first then .next (s.setChan i { c with phase := .off, run := false })
    else s.dmaBegin i
  else
    .next (s.setChan i { c with dfetch := true, phase := .fetch c.flow c.ndsize 0,
                                currDesc := if c.flow = 4 then c.currDesc else c.next })

/-- Element `k` of a descriptor for FLOW `f` goes to its register (R1180, Table 9-7): rows count from NDPL. -/
def DmaChan.loadElement (c : DmaChan) (f k : Nat) (e : HWord) : DmaChan :=
  match (if f = 4 then k + 2 else if f = 6 ∧ 0 < k then k + 1 else k) with
  | 0 => { c with next := withHalf .lo c.next e }
  | 1 => { c with next := withHalf .hi c.next e }
  | 2 => { c with start := withHalf .lo c.start e }
  | 3 => { c with start := withHalf .hi c.start e }
  | 4 => { c with cfg := e }
  | 5 => { c with xcount := e }
  | 6 => { c with xmod := e }
  | 7 => { c with ycount := e }
  | _ => { c with ymod := e }

/-- Steps 2 to 4: one element of the descriptor is read (R1181). -/
def State.dmaFetch (s : State) (i f n k : Nat) : Outcome :=
  let c := s.sys.chan i
  if c.currDesc.getLsbD 0 then .next (s.dmaError i)
  else
    match s.dmaLoad i c.currDesc 2 with
    | .ok v s =>
      let e := BitVec.ofNat 16 v
      let c := { c.loadElement f k e with currDesc := c.currDesc + 2, phase := .fetch f n (k + 1) }
      let s := s.setChan i c
      if k + 1 < n then .next s else s.dmaBegin i
    | .error s => .next (s.dmaError i)
    | .wait s => .next s
    | .refused r => .refused r

/-- The element loop's register update (R1168): the address and counts after one element, and whether a row and the
work unit end. A count of 0 stands for 65,536 (R1166, D62). -/
def DmaChan.advance (c : DmaChan) : DmaChan × Bool × Bool :=
  let x := c.xmod.signExtend 32
  if !c.twoD then
    let c' := { c with currAddr := c.currAddr + x, currX := c.currX - 1 }
    (c', false, c'.currX == 0)
  else if c.currX != 1 then ({ c with currAddr := c.currAddr + x, currX := c.currX - 1 }, false, false)
  else if c.currY != 1 then
    ({ c with currAddr := c.currAddr + c.ymod.signExtend 32, currY := c.currY - 1, currX := c.xcount }, true, false)
  else ({ c with currAddr := c.currAddr + x, currX := 0 }, true, true)

/-- Step 6, the registers: an access is issued; a write takes its element from the FIFO. A peripheral that has been enabled
meanwhile may now disagree with the channel (R1232). -/
def State.dmaIssue (s : State) (i : Nat) : Outcome :=
  let c := s.sys.chan i
  let src := s.sys.chan (fifoOf i)
  if !s.dmaAgrees i c then .refused .unitSetting
  else
    let (c', row, last) := c.advance
    let acc : DmaAccess := ⟨c.currAddr, if c.wnr then (src.fifo.headD (0, 0)).1 else 0, c.diEn && (last || (row && c.diSel)), c.wnr,
      c.esize, c.chain.any (·.1)⟩
    let s := if c.wnr && isMdma i then s.setChan (fifoOf i) { src with fifo := src.fifo.drop 1 } else s
    .next (s.setChan i
      { c' with pending := c.pending ++ [acc], phase := if last then .finish else .transfer,
                fifo := if c.wnr && !isMdma i then c.fifo.drop 1 else c.fifo })

/-- Step 6, the memory: the oldest access is performed, after the checks of R1231; DMA_DONE follows it (R1240). What a
read of a stopped channel gives is dropped (R1193). -/
def State.dmaAccess (s : State) (i : Nat) : Outcome :=
  let c := s.sys.chan i
  match c.pending with
  | [] => .next s
  | a :: rest =>
    let c := { c with pending := rest, done := c.done || a.done }
    if a.addr.toNat % a.size ≠ 0 ∨ a.ext ≠ isExternal a.addr then .next (s.dmaError i)
    else if a.write then
      match s.dmaPut i a.addr a.size a.data.toNat with
      | .ok _ s => .next (s.setChan i c)
      | .error s => .next (s.dmaError i)
      | .wait s => .next s
      | .refused r => .refused r
    else
      match s.dmaLoad i a.addr a.size with
      | .ok v s => .next (s.setChan i { c with fifo := if c.run then c.fifo ++ [(BitVec.ofNat 32 v, c.total)] else c.fifo })
      | .error s => .next (s.dmaError i)
      | .wait s => .next s
      | .refused r => .refused r

/-! ## The peripheral side (R1196) -/

/-- A grant moves one element from a receiver: none where direction or size is wrong (R1232). -/
def State.takeFrom (s : State) (c : DmaChan) : Periph → Option (Word × State)
  | .ppi x =>
    if c.wdsize == 0 then none
    else ((s.sys.ppi x).pop (c.wdsize == 2)).map fun r => (r.1, s.setPpi x r.2)
  | .sportRx x =>
    if c.wdsize == 0 then none
    else ((s.sys.sport x).rxRead (c.wdsize == 2)).map fun r => (r.1, s.setSport x r.2)
  | .spi => if s.sys.spi.sizeOk c then s.sys.spi.pop.map fun r => (ofH r.1, s.setSpi r.2) else none
  | .uartRx =>
    if c.wdsize == 0 then some (ofB s.sys.uart.takeRbr.1, s.setUart s.sys.uart.takeRbr.2) else none
  | _ => none

/-- A grant brings one element, of a work unit of `n`, to a transmitter: none where direction, size or number is wrong
(R1232, R1331). -/
def State.giveTo (s : State) (c : DmaChan) (e : Word) (n : Nat) : Periph → Option State
  | .ppi x =>
    if c.wdsize == 0 then none else ((s.sys.ppi x).push (c.wdsize == 2) n e).map (s.setPpi x)
  | .sportTx x =>
    if c.wdsize == 0 then none else some (s.setSport x ((s.sys.sport x).txWrite e (c.wdsize == 2)))
  | .spi => if s.sys.spi.sizeOk c then (s.sys.spi.push (half .lo e)).map s.setSpi else none
  | .uartTx => if c.wdsize == 0 then some (s.setUart (s.sys.uart.putThr (e.extractLsb' 0 8))) else none
  | _ => none

/-- The first descriptor of a start by software has been loaded, or there is none. -/
def DmaChan.begun (c : DmaChan) : Bool := c.run && c.chain.isSome

/-- A grant to channel `i` is due. -/
def State.dmaGrants (s : State) (i : Nat) : Bool :=
  let c := s.sys.chan i
  c.en && c.begun &&
    (match s.sys.connected i with
     | none => false
     | some p => s.sys.request p && (if c.wnr then decide (c.fifo.length < chanCap i c) else !c.fifo.isEmpty))

/-- A grant (R1195, R1196). -/
def State.dmaGrant (s : State) (i : Nat) : Outcome :=
  let c := s.sys.chan i
  match s.sys.connected i with
  | none => .next s
  | some p =>
    if c.wnr then
      match s.takeFrom c p with
      | some (e, s) => .next (s.setChan i { c with fifo := c.fifo ++ [(e, c.total)] })
      | none => .refused .unitSetting
    else
      let e := c.fifo.headD (0, 0)
      match s.giveTo c e.1 e.2 p with
      | some s => .next (s.setChan i { c with fifo := c.fifo.drop 1 })
      | none => .refused .unitSetting

/-! ## What a channel does on its own -/

/-- The steps of a channel. -/
inductive DmaMove where
  | fetch | issue | access | next | grant
  deriving DecidableEq, Repr

/-- Every step of a channel. -/
def dmaMoves : List DmaMove := [.fetch, .issue, .access, .next, .grant]

/-- A source channel moves only while its destination runs and fetches nothing (R1201). -/
def State.streamOpen (s : State) (i : Nat) : Bool :=
  !isMdma i || !isSource i ||
    (let d := s.sys.chan (i - 1)
     d.run && !d.dfetch)

/-- How far the registers may run ahead of the accesses (R1241); those of a read channel stop while its FIFO is filled,
reads issued and not yet finished included. -/
def lag (i : Nat) (c : DmaChan) : Nat := chanCap i c + (if isExternal c.currAddr then 3 else 6)

/-- A step of channel `i` is enabled. The read of element `i + k` may precede the write of element `i` for `k` up to the
capacity of the FIFO (R1202). -/
def State.dmaCan (s : State) (i : Nat) (m : DmaMove) : Bool :=
  let c := s.sys.chan i
  match m with
  | .fetch => (match c.phase with | .fetch _ _ _ => s.streamOpen i | _ => false)
  | .issue =>
    c.phase == .transfer && s.streamOpen i && decide (c.pending.length < lag i c)
      && (if c.wnr then !(s.sys.chan (fifoOf i)).fifo.isEmpty
          else decide (c.fifo.length + c.pending.length < chanCap i c))
  | .access =>
    (match c.pending with
     | [] => false
     | a :: _ =>
       a.write || !c.run ||
         decide (c.fifo.length < chanCap i c
           ∧ c.fifo.length + (if isMdma i then (s.sys.chan (partner i)).pending.length else 0) ≤ chanCap i c))
  | .next => c.phase == .finish && c.pending.isEmpty && (c.wnr || c.flow != 0 || c.fifo.isEmpty)
  | .grant => s.dmaGrants i

/-- A step of channel `i`. -/
def State.dmaStep (s : State) (i : Nat) (m : DmaMove) : Outcome :=
  match m with
  | .fetch =>
    (match (s.sys.chan i).phase with
     | .fetch f n k => s.dmaFetch i f n k
     | _ => .next s)
  | .issue => s.dmaIssue i
  | .access => s.dmaAccess i
  | .next => s.dmaUnit i false
  | .grant => s.dmaGrant i

/-! ## Registers (R1153, R1154, R1156) -/

/-- A register access that ends like a step. -/
def toMmr (o : Outcome) : MmrRes :=
  match o with
  | .next s => .ok 0 s
  | .refused r => .refused r
  | .fault _ => .error

/-- The UART is switched to or from DMA without the waits of R1444: of the transmit channel DMA_RUN has to be clear, of
either channel nothing may be left to deliver. -/
def State.uartMixes (s : State) (i : Nat) (on : Bool) : Bool :=
  let u := s.sys.uart
  if on then s.sys.connected i == some .uartTx && (!u.thre || u.tsrFull)
  else (s.sys.connected i == some .uartTx && (s.sys.chan i).run) || s.uartLeft i

/-- A store to DMA_CONFIG (R1190, R1162, R1201). -/
def dmaConfig (i : Nat) (v : HWord) (s : State) : MmrRes :=
  let old := s.sys.chan i
  let c := { old with cfg := v }
  if old.run && c.en then .ok 0 (s.dmaError i)
  else if !c.en then
    if old.en && s.uartMixes i false then .refused .unitSetting else .ok 0 (s.setChan i c.stop)
  else if c.invalid then .ok 0 ((s.setChan i c).dmaError i)
  else if !old.pending.isEmpty || (v.getLsbD 5 && (isMdma i || !c.wnr)) || (isMdma i && c.wnr == isSource i)
      || (isMdma i && !isSource i && !(s.sys.chan (partner i)).en) || (!old.en && s.uartMixes i true)
      || (match s.sys.connected i with | some p => !s.sys.dirOk c p | none => false) then
    .refused .unitSetting
  else
    let clear := !isMdma i && c.wnr && (!old.en || v.getLsbD 5)
    let c := { c with run := true, chain := none, fifo := if clear then [] else c.fifo }
    toMmr ((s.setChan i c).dmaUnit i true)

/-- PERIPHERAL_MAP (R1172, D63). -/
def mapWord (i : Nat) (c : DmaChan) : Word := if isMdma i then 0x0040 else BitVec.ofNat 32 (c.pmap.toNat * 0x1000)

/-- IRQ_STATUS (R1173). -/
def DmaChan.irqStatus (c : DmaChan) : Word :=
  BitVec.ofNat 32 (c.done.toNat + c.err.toNat * 2 + c.dfetch.toNat * 4 + c.run.toNat * 8)

/-- The low half of a pointer register, or all of it (R1154). -/
def pointerRead (v : Word) (n : Nat) : Word := if n = 4 then v else ofH (half .lo v)

/-- A pointer register with its low half, or all of it, replaced. -/
def pointerWrite (old v : Word) (n : Nat) : Word := if n = 4 then v else withHalf .lo old (half .lo v)

/-- A load from channel `i`. -/
def dmaRead (i off n : Nat) (s : State) : MmrRes :=
  let c := s.sys.chan i
  if n = 2 ∨ (n = 4 ∧ (off = 0x00 ∨ off = 0x04 ∨ off = 0x20 ∨ off = 0x24)) then
    match off with
    | 0x00 => .ok (pointerRead c.next n) s
    | 0x04 => .ok (pointerRead c.start n) s
    | 0x08 => .ok (ofH c.cfg) s
    | 0x10 => .ok (ofH c.xcount) s
    | 0x14 => .ok (ofH c.xmod) s
    | 0x18 => .ok (ofH c.ycount) s
    | 0x1C => .ok (ofH c.ymod) s
    | 0x20 => .ok (pointerRead c.currDesc n) s
    | 0x24 => .ok (pointerRead c.currAddr n) s
    | 0x28 => .ok c.irqStatus s
    | 0x2C => .ok (mapWord i c) s
    | 0x30 => .ok (ofH c.currX) s
    | 0x38 => .ok (ofH c.currY) s
    | _ => .error
  else .error

/-- Channel `i` with a Parameter, Current or map register stored to; none where there is no register. -/
def DmaChan.put (c : DmaChan) (i off n : Nat) (v : Word) : Option DmaChan :=
  let h := half .lo v
  match off with
  | 0x00 => some { c with next := pointerWrite c.next v n }
  | 0x04 => some { c with start := pointerWrite c.start v n }
  | 0x10 => some { c with xcount := h }
  | 0x14 => some { c with xmod := h }
  | 0x18 => some { c with ycount := h }
  | 0x1C => some { c with ymod := h }
  | 0x20 => some { c with currDesc := pointerWrite c.currDesc v n }
  | 0x24 => some { c with currAddr := pointerWrite c.currAddr v n }
  | 0x2C => some (if isMdma i then c else { c with pmap := h.extractLsb' 12 4 })
  | 0x30 => some { c with currX := h }
  | 0x38 => some { c with currY := h }
  | _ => none

/-- A store to channel `i`: while it runs, only DMA_CONFIG and IRQ_STATUS take one, any other is a DMA error (R1156,
D61). -/
def dmaWrite (i off n : Nat) (v : Word) (s : State) : MmrRes :=
  let c := s.sys.chan i
  if n = 2 ∨ (n = 4 ∧ (off = 0x00 ∨ off = 0x04 ∨ off = 0x20 ∨ off = 0x24)) then
    if off = 0x08 then dmaConfig i (half .lo v) s
    else if off = 0x28 then
      .ok 0 (s.setChan i { c with done := c.done && !v.getLsbD 0, err := c.err && !v.getLsbD 1 })
    else
      match c.put i off n v with
      | none => .error
      | some c' => .ok 0 (if c.run then s.dmaError i else s.setChan i c')
  else .error

/-- A load from the traffic registers of a controller with TC_PER `per` (R1211, D65): each field of TC_CNT is a free
value not above that of TC_PER. -/
def trafficRead (per : HWord) (off n : Nat) (s : State) : MmrRes :=
  match off, n with
  | 0x0C, 2 => .ok (ofH per) s
  | 0x10, 2 =>
    let f (lo w k : Nat) : Nat := Config.freeNat (s.free + k) % ((per.extractLsb' lo w).toNat + 1) * 2 ^ lo
    .ok (BitVec.ofNat 32 (f 11 5 0 + f 8 3 1 + f 4 4 2 + f 0 4 3)) { s with free := s.free + 4 }
  | _, _ => .error

/-- A store to the traffic registers of DMA1 (false) or DMA2. -/
def trafficWrite (dma2 : Bool) (off n : Nat) (v : Word) (s : State) : MmrRes :=
  let d := s.sys.dma
  match off, n with
  | 0x0C, 2 =>
    let d := if dma2 then { d with tcPer2 := half .lo v } else { d with tcPer1 := half .lo v }
    .ok 0 { s with sys := { s.sys with dma := d } }
  | 0x10, 2 => .ok 0 s
  | _, _ => .error

end Sys2Proof.Machine
end

