-- ==== Sys2Proof/Machine/Pf.lean ====
section
/-!
DEFINITION. The programmable flags PF0 to PF47 (67_pf.md): three blocks of sixteen pins. Offsets are from 0xFFC00700,
0xFFC01500 and 0xFFC01700.
-/

namespace Sys2Proof.Machine

/-- Block `n`. -/
def Sys.flags (y : Sys) (n : Nat) : FlagBlock := y.fio.toList.getD n (.reset 0)

/-! ## Which pins a peripheral has (R1482, D74) -/

/-- The timer drives or listens to its pin (R1530, R1540, R1545). -/
def GpTimer.usesPin (t : GpTimer) : Bool :=
  t.trun && (if t.pwm then !t.outDis else if t.cap then !t.tinSel else true)

/-- A word with bit `b` set for each pin `b` below 16 for which `f` holds. -/
def pinMask (f : Nat → Bool) : HWord :=
  (List.range 16).foldl (fun w b => if f b then w ||| BitVec.ofNat 16 (2 ^ b) else w) 0

/-- The flag pins that a PPI has as data pins (69_ppi.md R1301). -/
def Sys.ppiPins (y : Sys) (n : Nat) : HWord :=
  let upper (x : Nat) : Nat := if (y.ppi x).en then 2 ^ ((y.ppi x).width - 8) - 1 else 0
  if n = 2 then BitVec.ofNat 16 (upper 1 + 2 ^ 8 * upper 0) else 0

/-- The flag pins that another peripheral has. -/
def Sys.ownedPins (y : Sys) (n : Nat) : HWord :=
  let p := y.spi
  match n with
  | 0 =>
    pinMask fun b =>
      decide (b < 8) && ((y.timer b).usesPin
        || (if b = 0 then p.spe && (!p.mstr || p.psse) else p.master && p.flg.getLsbD b))
  | 1 =>
    (if (y.sport 0).active then 0x301F else 0) ||| (if (y.sport 1).active then 0xC3E0 else 0)
      ||| (if y.uart.ucen then 0x0C00 else 0)
  | _ => 0

/-! ## What the flag logic sees (R1483 to R1489) -/

/-- PF15 is an input whatever FIO0_DIR says while a timer counts it (R1483). -/
def Sys.forcedInput (y : Sys) (n : Nat) : HWord :=
  if n = 0 ∧ y.timers.toList.any (fun t => t.pwm && t.clkSel && !t.tinSel) then 0x8000 else 0

/-- The direction in force. -/
def Sys.direction (y : Sys) (n : Nat) : HWord := (y.flags n).dir &&& ~~~ y.forcedInput n

/-- The pins of block `n` that the flag registers drive, and their levels (R1485, R1497). -/
def Sys.driven (y : Sys) (n : Nat) : HWord := y.direction n &&& ~~~ y.ownedPins n &&& ~~~ y.ppiPins n

/-- Replace block `n`. -/
def State.setFlags (s : State) (n : Nat) (f : FlagBlock) : State :=
  { s with sys := { s.sys with fio := s.sys.fio.setIfInBounds n f } }

/-- The level to which the flag registers drive pin PF`i`, if they do (R1497). -/
def Sys.flagLevel (y : Sys) (i : Nat) : Option Bool :=
  if (y.driven (i / 16)).getLsbD (i % 16) then some ((y.flags (i / 16)).flag.getLsbD (i % 16)) else none

/-- The level to which timer `x` drives its pin, if it does: not while a PPI has the pin (R1531, R1336). -/
def Sys.timerLevel (y : Sys) (x : Nat) : Option Bool :=
  let t := y.timer x
  if t.drives && !y.ppiTakes x then some t.pin else none

/-- State `t`, reached from `s` by a step: the world sees each flag and timer pin that is now driven to another level, or
again driven, whatever made it so (R1497, R1531). -/
def State.showPins (t s : State) : State :=
  let y := t.sys
  let seen (old new : Option Bool) (o : Bool → Output) (t : State) : State :=
    match new with
    | some v => if old == new then t else t.emit (o v)
    | none => t
  let t := (List.range 12).foldl (fun t x => seen (s.sys.timerLevel x) (y.timerLevel x) (.timerPin x) t) t
  (List.range 48).foldl (fun t i => seen (s.sys.flagLevel i) (y.flagLevel i) (.pinDrive i) t) t

/-- `Sense` of the pins of block `n` (R1485). -/
def State.sense (s : State) (n : Nat) : HWord :=
  let y := s.sys
  let f := y.flags n
  let d := y.direction n
  let v := (d &&& f.flag) ||| (~~~ d &&& f.inen &&& ((~~~ f.edge &&& (f.level ^^^ f.polar)) ||| (f.edge &&& f.flag)))
  let own := y.ownedPins n
  (if own = 0 then v else (v &&& ~~~ own) ||| (Config.freePins s.free n &&& own)) &&& ~~~ y.ppiPins n

/-- `Trig` of the pins of block `n` (R1489, R1494). -/
def State.trig (s : State) (n : Nat) : HWord :=
  let f := s.sys.flags n
  let out := s.sys.direction n &&& ~~~ s.sys.ownedPins n
  (out &&& f.inen &&& f.flag) ||| (~~~ out &&& s.sense n)

/-- The request of block `n` on interrupt A (false) or B. -/
def State.flagReq (s : State) (n : Nat) (b : Bool) : Bool :=
  let f := s.sys.flags n
  let m := if b then f.maskb else f.maska
  m != 0 && s.trig n &&& m != 0

/-- The level of a pin changes (R1487): an edge is captured on an edge-sensitive input that no peripheral has. -/
def State.pinChange (s : State) (i : Nat) (level : Bool) : State :=
  let n := i / 16
  let m := BitVec.ofNat 16 (2 ^ (i % 16))
  let f := s.sys.flags n
  let y := s.sys
  let was := f.level &&& m != 0
  let listens :=
    (~~~ y.direction n &&& f.inen &&& f.edge &&& ~~~ y.ownedPins n &&& ~~~ y.ppiPins n) &&& m != 0
  let hits := was != level && (f.both &&& m != 0 || level == (f.polar &&& m == 0))
  let f := { f with level := if level then f.level ||| m else f.level &&& ~~~ m }
  s.setFlags n (if listens && hits then { f with flag := f.flag ||| m } else f)

/-! ## Registers (R1481, R1486, R1488) -/

/-- A store through the data, clear, set or toggle view. -/
def viewStore (view : Nat) (old v : HWord) : HWord :=
  match view with
  | 0 => v
  | 1 => old &&& ~~~ v
  | 2 => old ||| v
  | _ => old ^^^ v

/-- A load from block `n`. -/
def flagRead (n off size : Nat) (s : State) : MmrRes :=
  let f := s.sys.flags n
  if size = 2 ∧ off % 4 = 0 then
    match off / 16, off / 4 % 4 with
    | 0, _ => .ok (ofH (s.sense n)) { s with free := s.free + 1 }
    | 1, _ => .ok (ofH f.maska) s
    | 2, _ => .ok (ofH f.maskb) s
    | 3, 0 => .ok (ofH f.dir) s
    | 3, 1 => .ok (ofH f.polar) s
    | 3, 2 => .ok (ofH f.edge) s
    | 3, 3 => .ok (ofH f.both) s
    | 4, 0 => .ok (ofH f.inen) s
    | _, _ => .error
  else .error

/-- Block `n` with free values in the flag bits `m` (R1493). -/
def State.drawFlags (s : State) (n : Nat) (m : HWord) : FlagBlock × State :=
  let (w, s) := s.drawWord
  let f := s.sys.flags n
  ({ f with flag := (f.flag &&& ~~~ m) ||| (half .lo w &&& m) }, s)

/-- A store to block `n`: the flag bit of a pin that becomes an output, or an edge-sensitive input, may be free
(R1493). -/
def flagWrite (n off size : Nat) (w : Word) (s : State) : MmrRes :=
  let f := s.sys.flags n
  let v := half .lo w
  let view := off / 4 % 4
  let ok (f : FlagBlock) : MmrRes := .ok 0 (s.setFlags n f)
  if size = 2 ∧ off % 4 = 0 then
    match off / 16, view with
    | 0, _ => ok { f with flag := viewStore view f.flag v }
    | 1, _ => ok { f with maska := viewStore view f.maska v }
    | 2, _ => ok { f with maskb := viewStore view f.maskb v }
    | 3, 0 =>
      let (w, s) := s.drawFlags n (v &&& ~~~ f.dir &&& ~~~ (f.inen &&& f.edge))
      .ok 0 (s.setFlags n { w with dir := v })
    | 3, 1 => ok { f with polar := v }
    | 3, 2 =>
      let (w, s) := s.drawFlags n (v &&& ~~~ f.edge &&& ~~~ s.sys.direction n)
      .ok 0 (s.setFlags n { w with edge := v })
    | 3, 3 => ok { f with both := v }
    | 4, 0 => ok { f with inen := v }
    | _, _ => .error
  else .error

end Sys2Proof.Machine
end

