-- ==== Sys2Proof/Machine/Watchdog.lean ====
section
/-!
DEFINITION. The watchdog timers (62_timers.md section 6). Offsets are from 0xFFC00200 (Core A) and 0xFFC01200 (Core B).
-/

namespace Sys2Proof.Machine

/-- The watchdog of a core. -/
def Sys.wdog (y : Sys) : CoreId → Watchdog
  | .a => y.wdogA
  | .b => y.wdogB

/-- Replace the watchdog of a core. -/
def State.setWdog (s : State) (id : CoreId) (w : Watchdog) : State :=
  match id with
  | .a => { s with sys := { s.sys with wdogA := w } }
  | .b => { s with sys := { s.sys with wdogB := w } }

/-- The watchdog is enabled: WDEN is not the disable key (R1571). -/
def Watchdog.enabled (w : Watchdog) : Bool := w.wden != 0xAD

/-- Event `n` is latched in core `id`, unless it is held (R1717, R1925). -/
def State.latchEvent (s : State) (id : CoreId) (n : Nat) : State :=
  let up (c : Core) : Core :=
    if c.id = id ∧ !c.held then { c with ev := { c.ev with ilat := c.ev.ilat ||| BitVec.ofNat 16 (2 ^ n) } } else c
  { s with cur := up s.cur, oth := up s.oth }

/-- The interrupt line of a watchdog: asserted by an expiry into the general-purpose interrupt, it follows WDRO from then
on, whatever WDEV becomes (R1574, D57; log entry 84). -/
def Watchdog.line (w : Watchdog) : Bool := w.wdro && w.gpi

/-- The count of watchdog `id` has reached 0: WDRO, and the selected event (R1574, R1926, R1575). -/
def State.watchdogExpire (s : State) (id : CoreId) : State :=
  let w := { s.sys.wdog id with wdro := true }
  match w.wdev.toNat with
  | 0 =>
    let s := s.softReset (match id with | .a => 0x08 | .b => 0x04)
    s.setWdog id { s.sys.wdog id with wdro := true }
  | 1 => (s.setWdog id w).latchEvent id 2
  | 2 => s.setWdog id { w with gpi := true }
  | _ => s.setWdog id w

/-- The watchdog counts: it is enabled and not at 0 (R1574). -/
def Watchdog.counting (w : Watchdog) : Bool := w.enabled && w.stat != 0

/-- One count of watchdog `id` (R1574). -/
def State.watchdogStep (s : State) (id : CoreId) : State :=
  let w := s.sys.wdog id
  let s := s.setWdog id { w with stat := w.stat - 1 }
  if w.stat = 1 then s.watchdogExpire id else s

/-- WDOG_CTL (R1571). -/
def Watchdog.ctl (w : Watchdog) : Word :=
  BitVec.ofNat 32 (w.wdro.toNat * 2 ^ 15 + w.wden.toNat * 2 ^ 4 + w.wdev.toNat * 2)

/-- A load from a watchdog register. -/
def wdogRead (id : CoreId) (off n : Nat) (s : State) : MmrRes :=
  let w := s.sys.wdog id
  match off, n with
  | 0x0, 2 => .ok w.ctl s
  | 0x4, 4 => .ok w.cnt s
  | 0x8, 4 => .ok w.stat s
  | _, _ => .error

/-- A store to a watchdog register: WDRO is cleared by writing 1 to it while the watchdog is disabled (R1571); enabling
with a zero count expires at once (R1574, D57); WDOG_CNT keeps its value while the watchdog is enabled (R1572); any store
to WDOG_STAT reloads it (R1573). -/
def wdogWrite (id : CoreId) (off n : Nat) (v : Word) (s : State) : MmrRes :=
  let w := s.sys.wdog id
  match off, n with
  | 0x0, 2 =>
    let clear := v.getLsbD 15 && !w.enabled
    let w' := { w with wden := v.extractLsb' 4 8, wdev := v.extractLsb' 1 2, wdro := w.wdro && !clear,
                       gpi := w.gpi && !clear }
    let s := s.setWdog id w'
    .ok 0 (if w'.enabled && !w.enabled && w.stat == 0 then s.watchdogExpire id else s)
  | 0x4, 4 => .ok 0 (if w.enabled then s else s.setWdog id { w with cnt := v, stat := v })
  | 0x8, 4 => .ok 0 (s.setWdog id { w with stat := w.cnt })
  | _, _ => .error

end Sys2Proof.Machine
end

