-- ==== Sys2Proof/Machine/Inputs.lean ====
section
/-!
DEFINITION. What the outside world does to the chip (92_eei_decisions.md section 3): the effect of each `Input`.
-/

namespace Sys2Proof.Machine

/-- The RESET pin: out of Hibernate it leads only with VR_CTL.WAKE = 1 (R1140). -/
def State.resetPin (s : State) (bm : BitVec 2) (bypass : Bool) : State :=
  let p := s.sys.power
  if p.hibernate && !p.vr.getLsbD 8 then s else s.hardwareReset bm bypass

/-- An edge on flag pin `i` as the timers see it: PF0 to PF7 are TMR0 to TMR7, PF15 is PWM_CLK, PF27 is the UART's RX pin,
which a capturing timer with TIN_SEL = 1 samples (R1537, R1540, R1543, R1545). -/
def State.timerEdges (s : State) (i : Nat) (rising : Bool) : State :=
  s.mapTimers fun x t =>
    let t := if i = 15 ∧ rising then t.pwmEdge false else t
    let fromRx := t.cap && t.tinSel
    if (if fromRx then i = 27 else x < 8 ∧ i = x) then t.inputEdge rising else t

/-- The level of flag pin `i` changes. -/
def State.pinInput (s : State) (i : Nat) (level : Bool) : State :=
  let was := (s.sys.flags (i / 16)).level.getLsbD (i % 16)
  let t := s.pinChange i level
  if was != level then t.timerEdges i level else t

/-- An edge on one of the pins TMR8 to TMR11, unless a PPI takes it as an input frame sync (R1336). -/
def State.timerInput (s : State) (x : Nat) (rising : Bool) : State :=
  let t := s.sys.timer x
  if s.sys.ppiTakes x || (t.cap && t.tinSel) || decide (x < 8) then s else s.setTimer x (t.inputEdge rising)

/-- The external master has the bus, which it gets only while no external access is pending, or gives it back (R1660). -/
def State.busGrant (s : State) (granted : Bool) : State :=
  if granted && s.ebiuBusy then s else s.setEbiu { s.sys.ebiu with granted := granted }

/-- A store by the external master while it has the bus, to external memory (R1660 (b)). -/
def State.masterStore (s : State) (a : Word) (b : Byte) : State := if s.sys.ebiu.granted then s.masterWrite a b else s

/-- An input while the system clock runs. -/
def State.clockedInput (s : State) : Input → State
  | .nmi id => s.latchEvent id 2
  | .timerPin x rising => s.timerInput x rising
  | .ppiClk x d fs1 fs2 fs3 => s.ppiClk x d fs1 fs2 fs3
  | .spiBegin => if s.sys.spi.slave && !s.sys.spi.busy && !s.sys.spiss then s.spiBegin else s
  | .spiEnd w => if s.sys.spi.slave && s.sys.spi.busy then s.spiEnd w else s
  | .uartRecv d p f b =>
    let u := s.sys.uart
    if u.ucen && !u.loop then s.setUart (u.recv d p f b) else s
  | .sportTfs x => s.sportTfsIn x
  | .sportRfs x => s.sportRfsIn x
  | .pin i level => s.pinInput i level
  | .busGrant g => s.busGrant g
  | .masterStore a b => s.masterStore a b
  | .sportRxBits x p q => s.sportBits x p q
  | .spiReceived w => if s.sys.spi.ends then s.spiEnd w else s
  | .hardwareReset _ _ => s

/-- The effect of an input. In Deep Sleep and Hibernate only a reset has one on the chip (R1126, R1140). -/
def State.input (s : State) (i : Input) : State :=
  match i with
  | .hardwareReset bm bypass => s.resetPin bm bypass
  | i => if s.sys.power.sclk then s.clockedInput i else s

/-- The next input has its effect. -/
def State.takeInput (s : State) : State :=
  match s.inputs with
  | [] => s
  | i :: rest => { s with inputs := rest }.input i

end Sys2Proof.Machine
end

