-- ==== Sys2Proof/Machine/Lines.lean ====
section
/-!
DEFINITION. The 64 interrupt channels (61_sic_multicore.md R1802): the level that each peripheral presents to the two
system interrupt controllers.
-/

namespace Sys2Proof.Machine

/-- A word of 32 bits, bit 0 first. -/
def packBits (l : List Bool) : Word := BitVec.ofNat 32 (l.foldr (fun b n => (if b then 1 else 0) + 2 * n) 0)

/-- The line of peripheral channel `i` (R1174): its own interrupt while it is enabled, else its peripheral's request. -/
def Sys.chanLine (y : Sys) (i : Nat) : Bool :=
  let c := y.chan i
  if c.en then c.done
  else
    match y.connected i with
    | some p => y.request p
    | none => false

/-- One of `n` channels from `first` on has DMA_ERR = 1 (R1174). -/
def Sys.dmaErr (y : Sys) (first n : Nat) : Bool := (List.range n).any fun k => (y.chan (first + k)).err

/-- The line of the stream whose destination is channel `i` (R1174). -/
def Sys.streamLine (y : Sys) (i : Nat) : Bool := (y.chan i).done || (y.chan (i + 1)).done

/-- The levels of channels 0 to 34 at the controller of `id`: channel 0, PLL Wakeup, differs by core. -/
def State.linesLow (s : State) (id : CoreId) : List Bool :=
  let y := s.sys
  [y.power.wakeLine id, y.dmaErr 0 16, y.dmaErr 16 16, y.dmaErr 32 4, (y.ppi 0).errReq, (y.ppi 1).errReq, (y.sport 0).errReq,
   (y.sport 1).errReq, y.spi.errReq, y.uart.errReq, false]
    ++ (List.range 12).map y.chanLine ++ (List.range 12).map fun k => y.chanLine (16 + k)

/-- The levels of channels 35 to 63 at the controller of `id`: channel 59, its watchdog, and the supplemental
interrupts 62 and 63 differ by core. -/
def State.linesHigh (s : State) (id : CoreId) : List Bool :=
  let y := s.sys
  let supp (n : Nat) : Bool := y.ctl.supp.getLsbD (match id with | .a => 2 * n | .b => 2 * n + 1)
  (List.range 12).map (fun x => (y.timer x).timil)
    ++ [s.flagReq 0 false, s.flagReq 0 true, s.flagReq 1 false, s.flagReq 1 true, s.flagReq 2 false, s.flagReq 2 true,
        y.streamLine 12, y.streamLine 14, y.streamLine 28, y.streamLine 30, y.streamLine 32, y.streamLine 34,
        (y.wdog id).line, false, false, supp 0, supp 1]

/-- The levels of the 64 channels at the controller of `id`. -/
def State.lines (s : State) (id : CoreId) : List Bool := s.linesLow id ++ s.linesHigh id

/-- The levels of channels 0 to 31 at the controller of `id` as a word. -/
def State.live0 (s : State) (id : CoreId) : Word := packBits ((s.lines id).take 32)

/-- The levels of channels 32 to 63 at the controller of `id` as a word. -/
def State.live1 (s : State) (id : CoreId) : Word := packBits ((s.lines id).drop 32)

/-- The channels whose level the controller of `id` has not sampled yet. -/
def State.unsampled (s : State) (id : CoreId) : List Nat :=
  let k := s.sys.sicOf id
  (List.range 64).filter (chan (k.isr0 ^^^ s.live0 id) (k.isr1 ^^^ s.live1 id))

/-- The controller of `id` samples one of these levels, at a moment that is free (R1805). -/
def State.sample (s : State) (id : CoreId) : State :=
  let cs := s.unsampled id
  let (n, s) := if cs.length ≤ 1 then (0, s) else s.drawNat
  let k := s.sys.sicOf id
  match cs[n % cs.length]? with
  | none => s
  | some c =>
    s.setSic id (if c < 32 then { k with isr0 := k.isr0 ^^^ BitVec.ofNat 32 (2 ^ c) }
                 else { k with isr1 := k.isr1 ^^^ BitVec.ofNat 32 (2 ^ (c - 32)) })

/-- A channel whose source has withdrawn its request and that the controller of `id` still shows: what an SSYNC waits for
(R1750, R1805; log entry 83). -/
def State.staleLine (s : State) (id : CoreId) : Bool :=
  let k := s.sys.sicOf id
  (k.isr0 &&& ~~~ s.live0 id) != 0 || (k.isr1 &&& ~~~ s.live1 id) != 0

end Sys2Proof.Machine
end

