-- ==== Sys2Proof/Machine/SysMmr.lean ====
section
/-!
DEFINITION. The map of the system memory-mapped registers (12_system_mmrs.md R251 to R262): which unit answers at an
offset from 0xFFC00000, with which width. Every other offset is the System MMR error (R250).
-/

namespace Sys2Proof.Machine

/-- A load from a SIC block (R253). -/
def sicBlockRead (id : CoreId) (off n : Nat) (s : State) : MmrRes :=
  if off = 0 then (if id = .a ∧ n = 2 then swrstRead s else .error)
  else if off = 4 then
    (if n = 2 then .ok (match id with | .a => s.sys.ctl.syscr | .b => s.sys.ctl.syscrB) s else .error)
  else if n = 4 then
    match sicRead (s.sys.sicOf id) off with
    | some v => .ok v s
    | none => .error
  else .error

/-- A store to a SIC block (R253). -/
def sicBlockWrite (id : CoreId) (off n : Nat) (v : Word) (s : State) : MmrRes :=
  if off = 0 then (if id = .a ∧ n = 2 then swrstWrite v s else .error)
  else if off = 4 then
    (if n = 2 then (match id with | .a => syscrWrite v s | .b => syscrBWrite v s) else .error)
  else if n = 4 then sicWrite id off v s
  else .error

/-- While the System Software reset lasts, no register but SICA_SWRST may be accessed (R1934). -/
def State.heldInReset (s : State) (off : Nat) : Bool := s.sys.ctl.swrst == 7 && off != 0x100

/-- The DMA channel whose registers lie at an offset (R1153): DMA2, DMA1, IMDMA. -/
def chanAt (off : Nat) : Option Nat :=
  if 0x0C00 ≤ off ∧ off < 0x1000 then some (16 + (off - 0x0C00) / 0x40)
  else if 0x1C00 ≤ off ∧ off < 0x2000 then some ((off - 0x1C00) / 0x40)
  else if 0x1800 ≤ off ∧ off < 0x1900 then some (32 + (off - 0x1800) / 0x40)
  else none

/-- A load of `n` bytes at offset `off` of system MMR space (R251). -/
def sysMmrRead (off n : Nat) (s : State) : MmrRes :=
  let lo := off % 0x100
  if s.heldInReset off then .refused .unitSetting
  else
    match off / 0x100 with
    | 0x00 => powerRead lo n s
    | 0x01 => sicBlockRead .a lo n s
    | 0x02 => wdogRead .a lo n s
    | 0x04 => uartRead lo n s
    | 0x05 => spiRead lo n s
    | 0x06 => timerRead 0 8 0x80 lo n s
    | 0x07 => flagRead 0 lo n s
    | 0x08 => sportRead 0 lo n s
    | 0x09 => sportRead 1 lo n s
    | 0x0A => ebiuRead lo n s
    | 0x0B => trafficRead s.sys.dma.tcPer2 lo n s
    | 0x10 => ppiRead 0 lo n s
    | 0x11 => sicBlockRead .b lo n s
    | 0x12 => wdogRead .b lo n s
    | 0x13 => ppiRead 1 lo n s
    | 0x15 => flagRead 1 lo n s
    | 0x16 => timerRead 8 4 0x40 lo n s
    | 0x17 => flagRead 2 lo n s
    | 0x1B => trafficRead s.sys.dma.tcPer1 lo n s
    | _ =>
      match chanAt off with
      | some i => dmaRead i (off % 0x40) n s
      | none => .error

/-- The unit at offset `off` of system MMR space takes a store of `n` bytes (R251). -/
def unitWrite (off n : Nat) (v : Word) (s : State) : MmrRes :=
  let lo := off % 0x100
  if s.heldInReset off then .refused .unitSetting
  else
    match off / 0x100 with
    | 0x00 => powerWrite lo n v s
    | 0x01 => sicBlockWrite .a lo n v s
    | 0x02 => wdogWrite .a lo n v s
    | 0x04 => uartWrite lo n v s
    | 0x05 => spiWrite lo n v s
    | 0x06 => timerWrite 0 8 0x80 lo n v s
    | 0x07 => flagWrite 0 lo n v s
    | 0x08 => sportWrite 0 lo n v s
    | 0x09 => sportWrite 1 lo n v s
    | 0x0A => ebiuWrite lo n v s
    | 0x0B => trafficWrite true lo n v s
    | 0x10 => ppiWrite 0 lo n v s
    | 0x11 => sicBlockWrite .b lo n v s
    | 0x12 => wdogWrite .b lo n v s
    | 0x13 => ppiWrite 1 lo n v s
    | 0x15 => flagWrite 1 lo n v s
    | 0x16 => timerWrite 8 4 0x40 lo n v s
    | 0x17 => flagWrite 2 lo n v s
    | 0x1B => trafficWrite false lo n v s
    | _ =>
      match chanAt off with
      | some i => dmaWrite i (off % 0x40) n v s
      | none => .error

/-- A store of `n` bytes at offset `off` of system MMR space, which the world may see on the flag and timer pins (R251,
R1497). -/
def sysMmrWrite (off n : Nat) (v : Word) (s : State) : MmrRes :=
  match unitWrite off n v s with
  | .ok w t => .ok w (t.showPins s)
  | r => r

end Sys2Proof.Machine
end

