-- ==== Sys2Proof/Machine/Access.lean ====
section
/-!
DEFINITION. A core's loads and stores (20_memory.md R330, R331, R335 to R337): the exception check, the watchpoints on
data addresses, and the memory, cache or register that answers. A load is performed at
once, or has been performed ahead, before an older one (R340; `Core.early`). A store into the cache is performed at once;
every other store joins the core's pending stores (R331, R341), which are performed one by one, by steps of their own, in an
order that is free but for overlapping ones and for core MMRs (R150, R340; log entry 16).
-/

namespace Sys2Proof.Machine

/-! ## Data watchpoints (R1856, R1857) -/

/-- Data watchpoint `n` (0 or 1) matches the access (R1857); with the range enabled, index 0 stands for it. -/
def WatchUnit.dataHit (w : WatchUnit) (n : Nat) (a : Word) (write dag1 : Bool) : Bool :=
  let da (k : Nat) : Nat := (w.da.toList.getD k 0).toNat
  let src := w.dactl.extractLsb' (if n = 0 then 6 else 10) 2
  let acc := w.dactl.extractLsb' (if n = 0 then 8 else 12) 2
  let adr :=
    if w.dactl.getLsbD 0 then
      n == 0 && (decide (da 0 < a.toNat ∧ a.toNat ≤ da 1) != w.dactl.getLsbD 1)
    else w.dactl.getLsbD (2 + n) && da n == a.toNat
  adr && (if dag1 then src.getLsbD 1 else src.getLsbD 0) && (if write then acc.getLsbD 0 else acc.getLsbD 1)

/-- One match of data watchpoint `n`: counted, or it sets its status bit (R1857). -/
def State.dataWatchOne (s : State) (n : Nat) (a : Word) (write dag1 : Bool) : State :=
  let w := s.cur.wp
  if w.dataHit n a write dag1 then
    let cnt := w.dacnt.toList.getD n 0
    if w.dactl.getLsbD (4 + n) && cnt != 0 then s.setCur { s.cur with wp := { w with dacnt := vset w.dacnt n (cnt - 1) } }
    else
      let s := s.setCur { s.cur with wp := { w with stat := w.stat ||| BitVec.ofNat 8 (2 ^ (6 + n)) } }
      { s with issue := { s.issue with watch := true } }
  else s

/-- The watchpoint unit sees a data access (R1857). -/
def State.dataWatch (s : State) (a : Word) (write dag1 : Bool) : State :=
  if s.cur.wp.iactl.getLsbD 0 then (s.dataWatchOne 0 a write dag1).dataWatchOne 1 a write dag1 else s

/-! ## Loads and stores -/

/-- The exception check of an access (R335); a misaligned one leaves a free DCPLB_STATUS (D42). -/
def State.checkData (s : State) (dag1 : Bool) (a : Word) (n : Nat) (write : Bool) : Option (Exc × State) :=
  match s.cur.dataCheck a n write dag1 (Config.freeWord s.free) with
  | none => none
  | some e => some (e, if e.code = 0x24 then { s with free := s.free + 1 } else s)

/-- A page that makes MMR space or L1 data SRAM cacheable (R412): refused (93_implementation_defined.md section 2.2). -/
def Core.badPage (c : Core) (a : Word) : Bool :=
  c.dmem.endcplb &&
    (match c.region a.toNat with
     | .sysMmr | .coreMmr | .dataSram => (cplbHits c.dmem.cplb a).any fun e => e.cacheable
     | _ => false)

/-- A load of `n` bytes from the MMR at `x`. -/
def State.mmrLoad (s : State) (x n : Nat) (e : Exc) : Res Nat :=
  if 0xFFE00000 ≤ x then
    if n = 4 then
      match coreMmrRead (x - 0xFFE00000) s with
      | .ok v s => .ok v.toNat s
      | .error => .exc e s
      | .refused r => .refused r
    else .exc e s
  else
    match sysMmrRead (x - 0xFFC00000) n s with
    | .ok v s => .ok v.toNat s
    | .error => let (v, s) := s.drawBytes n; .ok v (s.hwError 0x02)
    | .refused r => .refused r

/-- A load of `n` bytes from the MMR at `x` as the core sees it: where its pending stores hold every byte the register is
not reached, else they are seen over what the register gives (R330, R342). -/
def State.mmrSeen (s : State) (x n : Nat) (e : Exc) : Res Nat :=
  if covered s.cur.stores x n then .ok (overlay s.cur.stores x n 0) s
  else (s.mmrLoad x n e).bind fun v s => .ok (overlay s.cur.stores x n v) s

/-- A load of `n` bytes at `a` that the checks allow, performed now. At a core MMR that does not exist or has another size
it is the exception 0x23 (D38), with FAULT_ILLADDR = 1 (DESIGN CHOICE, log entry 86). -/
def State.performLoad (s : State) (a : Word) (n : Nat) (dag1 : Bool) : Res Nat :=
  let c := s.cur
  let x := a.toNat
  if c.badPage a then .refused .coreMmrSetting
  else
    match c.region x with
    | .dataSram | .scratchpad => .ok (overlay c.stores x n (s.mem.loadN x n)) s
    | .coreMmr | .sysMmr => s.mmrSeen x n (c.dataExc 0x23 13 a false dag1 true)
    | .reserved => s.uncachedLoad x n
    | _ => if (c.dataPage a).isSome then s.cachedLoad x n else s.uncachedLoad x n

/-- There is a core MMR at the offset, and it is accessed with 32 bits (R151, R336). -/
def State.coreMmrThere (s : State) (x n : Nat) : Bool :=
  n == 4 && (match coreMmrWrite (x - 0xFFE00000) 0 s with | .error => false | _ => true)

/-- The load of `n` bytes at `a` by the instruction at the pc has been performed ahead (R340). -/
def Core.earlyRead (c : Core) (a n : Nat) : Option EarlyRead :=
  c.early.find? fun e => e.path == [c.pc] && e.addr == a && e.size == n

/-- A load of `n` bytes at `a` that the checks allow: the value that the core has read ahead for it, else the location's
now. -/
def State.takeLoad (s : State) (a : Word) (n : Nat) (dag1 : Bool) : Res Nat :=
  match s.cur.earlyRead a.toNat n with
  | some e => .ok e.val s
  | none => s.performLoad a n dag1

/-- A store of the low `n` bytes of `v` at `a` that the checks allow. For a core MMR that does not exist see
`State.performLoad`. -/
def State.performStore (s : State) (a : Word) (n : Nat) (v : Nat) (dag1 : Bool) : Res Unit :=
  let c := s.cur
  let x := a.toNat
  if c.badPage a then .refused .coreMmrSetting
  else
    match c.region x with
    | .coreMmr => if s.coreMmrThere x n then .ok () (s.pend x n v) else .exc (c.dataExc 0x23 13 a true dag1 true) s
    | .dataSram | .scratchpad | .sysMmr | .reserved => .ok () (s.pend x n v)
    | _ =>
      match c.dataPage a with
      | some page => s.cachedStore page x n v
      | none => .ok () (s.pend x n v)

/-- The access of `n` bytes at `a` is to no core MMR, though in their space: it raises 0x23 (D38). -/
def State.mmrHole (s : State) (a n : Nat) : Bool := s.cur.region a == .coreMmr && !s.coreMmrThere a n

/-- The watchpoint unit sees an access that the checks allow, unless it is to no core MMR (R1857; DESIGN CHOICE, log entry
92). -/
def State.watched (s : State) (a : Word) (n : Nat) (write dag1 : Bool) : State :=
  if s.mmrHole a.toNat n then s else s.dataWatch a write dag1

/-- `MemRead(a, n)` through DAG0 or DAG1 (R330). An access that raises an exception matches no data watchpoint, nor does
the access of slot 2 once slot 1 has raised one: it is not made (R1857; DESIGN CHOICE, log entry 92). -/
def State.loadAt (s : State) (dag1 : Bool) (a : Word) (n : Nat) : Res Nat :=
  match s.checkData dag1 a n false with
  | some (e, s') => .exc e s'
  | none => (s.watched a n false dag1).takeLoad a n dag1

/-- `MemWrite(a, n, v)` through DAG0 or DAG1 (R331); for data watchpoints as `State.loadAt`. -/
def State.storeAt (s : State) (dag1 : Bool) (a : Word) (n : Nat) (v : Nat) : Res Unit :=
  match s.checkData dag1 a n true with
  | some (e, s') => .exc e s'
  | none => (s.watched a n true dag1).performStore a n v dag1

/-- The DAG of the current slot: the second memory slot of a bundle uses DAG1 (R936, R506 (i)). -/
def State.dag1 (s : State) : Bool := s.issue.slot == .slot2

/-- The `n` bytes at `a` are among those that the other part of the bundle stores to. -/
def Issue.clashes (i : Issue) (a n : Nat) : Bool :=
  match i.clash with
  | none => false
  | some (b, k) => decide (a < b + k) && decide (b < a + n)

/-- A load by the current instruction. One from an address that the other part of its bundle stores to gives a free
value (70_reset_and_hazards.md R1950 row 22). -/
def State.load (s : State) (a : Word) (n : Nat) : Res Nat :=
  (s.loadAt s.dag1 a n).bind fun v s =>
    if s.issue.clashes a.toNat n then
      let (w, s) := s.drawWord
      .ok (w.toNat % 2 ^ (8 * n)) s
    else .ok v s

/-- A store by the current instruction. -/
def State.store (s : State) (a : Word) (n : Nat) (v : Nat) : Res Unit := s.storeAt s.dag1 a n v

/-! ## Pending stores are performed (R340, R341) -/

/-- Two MMR accesses at `x` and `y`, one of them to a core MMR: they keep their order, but for loads that pass stores (R150,
R342). -/
def mmrOrder (x y : Nat) : Bool :=
  decide (0xFFC00000 ≤ x) && decide (0xFFC00000 ≤ y) && (decide (0xFFE00000 ≤ x) || decide (0xFFE00000 ≤ y))

/-- The older store `q` is performed before `p`: it writes one of the same bytes (G4), or both are to MMRs and one to a core
MMR (R150). -/
def PendStore.before (q p : PendStore) : Bool :=
  (decide (q.addr < p.addr + p.size) && decide (p.addr < q.addr + q.size)) || mmrOrder q.addr p.addr

/-- The places of the pending stores that may be performed next. -/
def drainable (ps : List PendStore) : List Nat :=
  (List.range ps.length).filter fun k =>
    match ps[k]? with
    | some p => (ps.take k).all fun q => !q.before p
    | none => false

/-- The store `p` of the current core is performed, `t` being the state without it: a register takes it, or L1 memory, or
the memory behind L1; an error is reported by the hardware error interrupt (R336, R337). -/
def State.performPending (s t : State) (p : PendStore) : Outcome :=
  let v := BitVec.ofNat 32 p.val
  if 0xFFE00000 ≤ p.addr then
    match coreMmrWrite (p.addr - 0xFFE00000) v t with
    | .ok _ t => .next t
    | .error => .next t
    | .refused r => .refused r
  else if 0xFFC00000 ≤ p.addr then
    match sysMmrWrite (p.addr - 0xFFC00000) p.size v t with
    | .ok _ t => .next t
    | .error => .next (t.hwError 0x02)
    | .refused r => .refused r
  else if 0xFF400000 ≤ p.addr then .next { t with mem := t.mem.storeN p.addr p.size p.val }
  else
    match s.behindWrite (.store s.cur.id) p.addr p.size p.val with
    | .ok _ u => .next (u.setCur { u.cur with stores := t.cur.stores })
    | .error u => .next ({ u with cur := { u.cur with stores := t.cur.stores } }.hwError 0x03)
    | .wait u => .next u
    | .refused r => .refused r

/-- Word `j` of a pending store of a whole line. -/
def PendStore.word (p : PendStore) (j : Nat) : PendStore := ⟨p.addr + 4 * j, 4, p.val / 2 ^ (32 * j) % 2 ^ 32⟩

/-- What is left of a pending store of a whole line when its word `j` has been performed. -/
def PendStore.without (p : PendStore) (j : Nat) : List PendStore :=
  [⟨p.addr, 4 * j, p.val % 2 ^ (32 * j)⟩, ⟨p.addr + 4 * (j + 1), p.size - 4 * (j + 1), p.val / 2 ^ (32 * (j + 1))⟩].filter
    fun q => q.size != 0

/-- One of the current core's pending stores is performed; which one is free. A cache line goes to on-chip memory at once,
to external memory word by word (R1063), in an order that is free (log entry 97). -/
def State.drain (s : State) : Outcome :=
  let ks := drainable s.cur.stores
  let (n, s) := if ks.length ≤ 1 then (0, s) else s.drawNat
  let k := ks.getD (n % ks.length) 0
  match s.cur.stores[k]? with
  | none => .next s
  | some p =>
    if p.size ≤ 4 || s.cur.region p.addr != .external then
      s.performPending (s.setCur { s.cur with stores := s.cur.stores.eraseIdx k }) p
    else
      let (m, s) := s.drawNat
      let j := m % (p.size / 4)
      let rest := s.cur.stores.take k ++ p.without j ++ s.cur.stores.drop (k + 1)
      s.performPending (s.setCur { s.cur with stores := rest }) (p.word j)

/-! ## What stays of a step that is taken back -/

/-- The external master's stores among inputs that have had their effect. -/
def State.replay (s : State) (is : List Input) : State :=
  is.foldl (fun s i => match i with | .masterStore a b => s.masterWrite a b | _ => s) s

/-- The line fill `f`, without the stores that have joined it since it was `old`. -/
def Fill.unmerged (f : Fill) (old : Option Fill) : Fill :=
  { f with stores := (old.map (·.stores)).getD [], dirty := old.any (·.dirty) }

/-- The state `s0` before an instruction with what its execution `t` has done on the bus, which cannot be taken back: the
EBIU, the line fills (but for the stores of the instruction itself, which does not commit: R450, R1720), what was read, a
bus error, what the outside world did meanwhile (R344, R412). -/
def State.keepBus (s0 t : State) : State :=
  let s := s0.replay (s0.inputs.take (s0.inputs.length - t.inputs.length))
  let c := s.cur
  { s with
    cur := { c with dfill := t.cur.dfill.map fun f => f.unmerged c.dfill, ifill := t.cur.ifill,
                    waiting := t.cur.waiting, progress := t.cur.progress,
                    seqstat := { c.seqstat with hwerrcause := t.cur.seqstat.hwerrcause },
                    ev := { c.ev with ilat := c.ev.ilat ||| t.cur.ev.ilat } }
    sys := { s.sys with ebiu := t.sys.ebiu }
    free := t.free
    inputs := t.inputs
    out := t.out }

/-- End an instruction with its access: go on with the value, or raise, wait, refuse or stop. -/
def Res.run {α : Type} (x : Res α) (f : α → State → Outcome) : Outcome :=
  match x with
  | .ok a s => f a s
  | .exc e s => raise e s
  | .stall s => waitBus s
  | .refused r => .refused r
  | .fault f => .fault f

end Sys2Proof.Machine
end

