-- ==== Sys2Proof/Machine/LoadStore.lean ====
section
/-!
DEFINITION. Loads, stores and address arithmetic (45_loadstore.md).
-/

namespace Sys2Proof.Machine

/-! ## Addressing modes (R901 to R909, R930) -/

/-- The pointer update of `[Preg++]`, `[Preg--]`, `[Preg]` after an access of `n` bytes (R901 to R903). -/
def State.postP (s : State) (a : PostMod) (p : PReg) (n : Nat) : State :=
  match a with
  | .inc => s.setP p (s.p p + BitVec.ofNat 32 n)
  | .dec => s.setP p (s.p p - BitVec.ofNat 32 n)
  | .keep => s

/-- `circ` on the values of I, B and L (R930); the sums are exact (D34). -/
def circ (i b l : Word) (m : Int) : Word :=
  let t := (i.toNat : Int) + m
  let bt := (b.toNat : Int)
  let ln := (l.toNat : Int)
  if l = 0 then BitVec.ofInt 32 t
  else if 0 ≤ m then BitVec.ofInt 32 (if t < bt + ln then t else t - ln)
  else BitVec.ofInt 32 (if bt ≤ t then t else t + ln)

/-- `I[i] <- circ(i, m)` (R930). -/
def State.circI (s : State) (i : DagN) (m : Int) : State := s.setI i (circ (s.i i) (s.b i) (s.l i) m)

/-- The index update of `[Ireg++]`, `[Ireg--]`, `[Ireg]` after an access of `n` bytes (R907, R908). -/
def State.postI (s : State) (a : PostMod) (i : DagN) (n : Nat) : State :=
  match a with
  | .inc => s.circI i n
  | .dec => s.circI i (-(n : Int))
  | .keep => s

/-- `[Preg + imm]` with a short positive offset of `k`-byte units (R904). -/
def State.eaShort (s : State) (p : PReg) (o : BitVec 4) (k : Nat) : Word := s.p p + BitVec.ofNat 32 (k * o.toNat)

/-- `[Preg + imm]` with a long signed offset of `k`-byte units (R904, R542). -/
def State.eaLong (s : State) (p : PReg) (o : BitVec 16) (k : Nat) : Word := s.p p + BitVec.ofInt 32 (k * o.toInt)

/-- `[FP - imm]` (R905, R541). -/
def State.eaFp (s : State) (o : BitVec 5) : Word := s.p .fp - BitVec.ofNat 32 (4 * (32 - o.toNat))

/-- The effective address of a 32-bit load through an index register: DISALGNEXCPT in the bundle clears its two low
bits (R912). -/
def State.eaI32 (s : State) (i : DagN) : Word := if s.issue.noAlign then s.i i &&& 0xFFFFFFFC else s.i i

/-! ## One access -/

/-- An instruction of length `len` that loads `n` bytes at `a` and goes on with their value. -/
def State.loading (s : State) (len : Nat) (a : Word) (n : Nat) (f : Nat → State → State) : Outcome :=
  (s.load a n).run fun v s => done len (f v s)

/-- An instruction of length `len` that stores the low `n` bytes of `v` at `a`. -/
def State.storing (s : State) (len : Nat) (a : Word) (n : Nat) (v : Word) (f : State → State) : Outcome :=
  (s.store a n (v.toNat % 2 ^ (8 * n))).run fun _ s => done len (f s)

/-- Zero extension of a loaded value (R900). -/
def loadZ (v : Nat) : Word := BitVec.ofNat 32 v

/-- Sign extension of a loaded half word (R918). -/
def loadX16 (v : Nat) : Word := (BitVec.ofNat 16 v).signExtend 32

/-- Sign extension of a loaded byte (R922). -/
def loadX8 (v : Nat) : Word := (BitVec.ofNat 8 v).signExtend 32

/-! ## DISALGNEXCPT -/

/-- `DISALGNEXCPT` (R912): it acts on the other parts of its bundle; alone it has no effect. -/
def execDisalgnexcpt (s : State) : Outcome := done 4 { s with issue := { s.issue with noAlign := true } }

/-! ## Loads and stores through a pointer register -/

/-- `Preg = [Preg++ | Preg-- | Preg]` (R915): a load into the pointer that it modifies is refused. -/
def execLoadP (a : PostMod) (d p : PReg) (s : State) : Outcome :=
  if d = p ∧ a ≠ .keep then .refused .loadIntoOwnPointer
  else s.loading 2 (s.p p) 4 fun v s => (s.setP d (loadZ v)).postP a p 4

/-- `Dreg = [Preg++ | Preg-- | Preg]` (R916). -/
def execLoadD (a : PostMod) (d : DReg) (p : PReg) (s : State) : Outcome :=
  s.loading 2 (s.p p) 4 fun v s => (s.setD d (loadZ v)).postP a p 4

/-- `Dreg = W [Preg++ | Preg-- | Preg] (Z)` (R917). -/
def execLoadWZ (a : PostMod) (d : DReg) (p : PReg) (s : State) : Outcome :=
  s.loading 2 (s.p p) 2 fun v s => (s.setD d (loadZ v)).postP a p 2

/-- `Dreg = W [Preg++ | Preg-- | Preg] (X)` (R918). -/
def execLoadWX (a : PostMod) (d : DReg) (p : PReg) (s : State) : Outcome :=
  s.loading 2 (s.p p) 2 fun v s => (s.setD d (loadX16 v)).postP a p 2

/-- `Dreg = B [Preg++ | Preg-- | Preg] (Z)` (R921). -/
def execLoadBZ (a : PostMod) (d : DReg) (p : PReg) (s : State) : Outcome :=
  s.loading 2 (s.p p) 1 fun v s => (s.setD d (loadZ v)).postP a p 1

/-- `Dreg = B [Preg++ | Preg-- | Preg] (X)` (R922). -/
def execLoadBX (a : PostMod) (d : DReg) (p : PReg) (s : State) : Outcome :=
  s.loading 2 (s.p p) 1 fun v s => (s.setD d (loadX8 v)).postP a p 1

/-- `[Preg++ | Preg-- | Preg] = Preg` (R923): the old value of the register is stored. -/
def execStoreP (a : PostMod) (p r : PReg) (s : State) : Outcome :=
  s.storing 2 (s.p p) 4 (s.p r) fun s => s.postP a p 4

/-- `[Preg++ | Preg-- | Preg] = Dreg` (R924). -/
def execStoreD (a : PostMod) (p : PReg) (r : DReg) (s : State) : Outcome :=
  s.storing 2 (s.p p) 4 (s.d r) fun s => s.postP a p 4

/-- `W [Preg++ | Preg-- | Preg] = Dreg` (R927). -/
def execStoreW (a : PostMod) (p : PReg) (r : DReg) (s : State) : Outcome :=
  s.storing 2 (s.p p) 2 (s.d r) fun s => s.postP a p 2

/-- `B [Preg++ | Preg-- | Preg] = Dreg` (R928). -/
def execStoreB (a : PostMod) (p : PReg) (r : DReg) (s : State) : Outcome :=
  s.storing 2 (s.p p) 1 (s.d r) fun s => s.postP a p 1

/-! ## Indexed by an immediate -/

/-- `Dreg = [Preg + uimm6m4]` (R916). -/
def execLoadDOff (d : DReg) (p : PReg) (o : BitVec 4) (s : State) : Outcome :=
  s.loading 2 (s.eaShort p o 4) 4 fun v s => s.setD d (loadZ v)

/-- `Dreg = W [Preg + uimm5m2] (Z)` (R917). -/
def execLoadWZOff (d : DReg) (p : PReg) (o : BitVec 4) (s : State) : Outcome :=
  s.loading 2 (s.eaShort p o 2) 2 fun v s => s.setD d (loadZ v)

/-- `Dreg = W [Preg + uimm5m2] (X)` (R918). -/
def execLoadWXOff (d : DReg) (p : PReg) (o : BitVec 4) (s : State) : Outcome :=
  s.loading 2 (s.eaShort p o 2) 2 fun v s => s.setD d (loadX16 v)

/-- `Preg = [Preg + uimm6m4]` (R915). -/
def execLoadPOff (d p : PReg) (o : BitVec 4) (s : State) : Outcome :=
  s.loading 2 (s.eaShort p o 4) 4 fun v s => s.setP d (loadZ v)

/-- `[Preg + uimm6m4] = Dreg` (R924). -/
def execStoreDOff (p : PReg) (o : BitVec 4) (r : DReg) (s : State) : Outcome :=
  s.storing 2 (s.eaShort p o 4) 4 (s.d r) id

/-- `W [Preg + uimm5m2] = Dreg` (R927). -/
def execStoreWOff (p : PReg) (o : BitVec 4) (r : DReg) (s : State) : Outcome :=
  s.storing 2 (s.eaShort p o 2) 2 (s.d r) id

/-- `[Preg + uimm6m4] = Preg` (R923). -/
def execStorePOff (p : PReg) (o : BitVec 4) (r : PReg) (s : State) : Outcome :=
  s.storing 2 (s.eaShort p o 4) 4 (s.p r) id

/-- `Dreg|Preg = [FP - uimm7m4]` (R915, R916). -/
def execLoadFp (d : DPReg) (o : BitVec 5) (s : State) : Outcome :=
  s.loading 2 (s.eaFp o) 4 fun v s => s.setDp d (loadZ v)

/-- `[FP - uimm7m4] = Dreg|Preg` (R923, R924). -/
def execStoreFp (o : BitVec 5) (r : DPReg) (s : State) : Outcome := s.storing 2 (s.eaFp o) 4 (s.dp r) id

/-- `Dreg = [Preg + imm17m4]` (R916). -/
def execLoadDLong (d : DReg) (p : PReg) (o : BitVec 16) (s : State) : Outcome :=
  s.loading 4 (s.eaLong p o 4) 4 fun v s => s.setD d (loadZ v)

/-- `Preg = [Preg + imm17m4]` (R915). -/
def execLoadPLong (d p : PReg) (o : BitVec 16) (s : State) : Outcome :=
  s.loading 4 (s.eaLong p o 4) 4 fun v s => s.setP d (loadZ v)

/-- `Dreg = W [Preg + imm16m2] (Z)` (R917). -/
def execLoadWZLong (d : DReg) (p : PReg) (o : BitVec 16) (s : State) : Outcome :=
  s.loading 4 (s.eaLong p o 2) 2 fun v s => s.setD d (loadZ v)

/-- `Dreg = W [Preg + imm16m2] (X)` (R918). -/
def execLoadWXLong (d : DReg) (p : PReg) (o : BitVec 16) (s : State) : Outcome :=
  s.loading 4 (s.eaLong p o 2) 2 fun v s => s.setD d (loadX16 v)

/-- `Dreg = B [Preg + imm16] (Z)` (R921). -/
def execLoadBZLong (d : DReg) (p : PReg) (o : BitVec 16) (s : State) : Outcome :=
  s.loading 4 (s.eaLong p o 1) 1 fun v s => s.setD d (loadZ v)

/-- `Dreg = B [Preg + imm16] (X)` (R922). -/
def execLoadBXLong (d : DReg) (p : PReg) (o : BitVec 16) (s : State) : Outcome :=
  s.loading 4 (s.eaLong p o 1) 1 fun v s => s.setD d (loadX8 v)

/-- `[Preg + imm17m4] = Dreg` (R924). -/
def execStoreDLong (p : PReg) (o : BitVec 16) (r : DReg) (s : State) : Outcome :=
  s.storing 4 (s.eaLong p o 4) 4 (s.d r) id

/-- `[Preg + imm17m4] = Preg` (R923). -/
def execStorePLong (p : PReg) (o : BitVec 16) (r : PReg) (s : State) : Outcome :=
  s.storing 4 (s.eaLong p o 4) 4 (s.p r) id

/-- `W [Preg + imm16m2] = Dreg` (R927). -/
def execStoreWLong (p : PReg) (o : BitVec 16) (r : DReg) (s : State) : Outcome :=
  s.storing 4 (s.eaLong p o 2) 2 (s.d r) id

/-- `B [Preg + imm16] = Dreg` (R928). -/
def execStoreBLong (p : PReg) (o : BitVec 16) (r : DReg) (s : State) : Outcome :=
  s.storing 4 (s.eaLong p o 1) 1 (s.d r) id

/-! ## Post-modified by a pointer register (R906) -/

/-- `P[p] <- P[p] + P[x]` (R906). -/
def State.addP (s : State) (p x : PReg) : State := s.setP p (s.p p + s.p x)

/-- The same, but for the pattern with one pointer twice, which is `[Preg]` and modifies nothing (R906, R920). -/
def State.addPOrKeep (s : State) (p x : PReg) : State := if p = x then s else s.addP p x

/-- `Dreg = [Preg ++ Preg]` (R916): a pointer modified by itself is refused. -/
def execLoadDIdx (d : DReg) (p x : PReg) (s : State) : Outcome :=
  if p = x then .refused .selfPostModify
  else s.loading 2 (s.p p) 4 fun v s => (s.setD d (loadZ v)).addP p x

/-- `Dreg_lo = W [Preg ++ Preg]`, `W [Preg]` (R920). -/
def execLoadLoIdx (d : DReg) (p x : PReg) (s : State) : Outcome :=
  s.loading 2 (s.p p) 2 fun v s => (s.setDh d .lo (BitVec.ofNat 16 v)).addPOrKeep p x

/-- `Dreg_hi = W [Preg ++ Preg]`, `W [Preg]` (R919). -/
def execLoadHiIdx (d : DReg) (p x : PReg) (s : State) : Outcome :=
  s.loading 2 (s.p p) 2 fun v s => (s.setDh d .hi (BitVec.ofNat 16 v)).addPOrKeep p x

/-- `Dreg = W [Preg ++ Preg] (Z)` (R917): a pointer modified by itself is refused. -/
def execLoadWZIdx (d : DReg) (p x : PReg) (s : State) : Outcome :=
  if p = x then .refused .selfPostModify
  else s.loading 2 (s.p p) 2 fun v s => (s.setD d (loadZ v)).addP p x

/-- `Dreg = W [Preg ++ Preg] (X)` (R918): a pointer modified by itself is refused. -/
def execLoadWXIdx (d : DReg) (p x : PReg) (s : State) : Outcome :=
  if p = x then .refused .selfPostModify
  else s.loading 2 (s.p p) 2 fun v s => (s.setD d (loadX16 v)).addP p x

/-- `[Preg ++ Preg] = Dreg` (R924): a pointer modified by itself is refused. -/
def execStoreDIdx (p x : PReg) (r : DReg) (s : State) : Outcome :=
  if p = x then .refused .selfPostModify
  else s.storing 2 (s.p p) 4 (s.d r) fun s => s.addP p x

/-- `W [Preg ++ Preg] = Dreg_lo`, `W [Preg] = Dreg_lo` (R926). -/
def execStoreLoIdx (p x : PReg) (r : DReg) (s : State) : Outcome :=
  s.storing 2 (s.p p) 2 (s.d r) fun s => s.addPOrKeep p x

/-- `W [Preg ++ Preg] = Dreg_hi`, `W [Preg] = Dreg_hi` (R925). -/
def execStoreHiIdx (p x : PReg) (r : DReg) (s : State) : Outcome :=
  s.storing 2 (s.p p) 2 ((s.dh r .hi).zeroExtend 32) fun s => s.addPOrKeep p x

/-! ## Through an index register -/

/-- `Dreg = [Ireg++ | Ireg-- | Ireg]` (R916). -/
def execLoadDI (a : PostMod) (d : DReg) (i : DagN) (s : State) : Outcome :=
  s.loading 2 (s.eaI32 i) 4 fun v s => (s.setD d (loadZ v)).postI a i 4

/-- `Dreg_lo = W [Ireg++ | Ireg-- | Ireg]` (R920). -/
def execLoadLoI (a : PostMod) (d : DReg) (i : DagN) (s : State) : Outcome :=
  s.loading 2 (s.i i) 2 fun v s => (s.setDh d .lo (BitVec.ofNat 16 v)).postI a i 2

/-- `Dreg_hi = W [Ireg++ | Ireg-- | Ireg]` (R919). -/
def execLoadHiI (a : PostMod) (d : DReg) (i : DagN) (s : State) : Outcome :=
  s.loading 2 (s.i i) 2 fun v s => (s.setDh d .hi (BitVec.ofNat 16 v)).postI a i 2

/-- `[Ireg++ | Ireg-- | Ireg] = Dreg` (R924). -/
def execStoreDI (a : PostMod) (i : DagN) (r : DReg) (s : State) : Outcome :=
  s.storing 2 (s.i i) 4 (s.d r) fun s => s.postI a i 4

/-- `W [Ireg++ | Ireg-- | Ireg] = Dreg_lo` (R926). -/
def execStoreLoI (a : PostMod) (i : DagN) (r : DReg) (s : State) : Outcome :=
  s.storing 2 (s.i i) 2 (s.d r) fun s => s.postI a i 2

/-- `W [Ireg++ | Ireg-- | Ireg] = Dreg_hi` (R925). -/
def execStoreHiI (a : PostMod) (i : DagN) (r : DReg) (s : State) : Outcome :=
  s.storing 2 (s.i i) 2 ((s.dh r .hi).zeroExtend 32) fun s => s.postI a i 2

/-- `Dreg = [Ireg ++ Mreg]` (R916, R909). -/
def execLoadDIM (d : DReg) (i m : DagN) (s : State) : Outcome :=
  s.loading 2 (s.eaI32 i) 4 fun v s => (s.setD d (loadZ v)).circI i (s.m m).toInt

/-- `[Ireg ++ Mreg] = Dreg` (R924, R909). -/
def execStoreDIM (i m : DagN) (r : DReg) (s : State) : Outcome :=
  s.storing 2 (s.i i) 4 (s.d r) fun s => s.circI i (s.m m).toInt

/-! ## Address arithmetic -/

/-- `Ireg += Mreg` (R931). -/
def execAddIM (i m : DagN) (s : State) : Outcome := done 2 (s.circI i (s.m m).toInt)

/-- `Ireg -= Mreg` (R932). -/
def execSubIM (i m : DagN) (s : State) : Outcome := done 2 (s.circI i (-(s.m m).toInt))

/-- The sum whose carries go from the most significant bit down (R933). -/
def addBrev (a b : Word) : Word := rev32 (rev32 a + rev32 b)

/-- `Ireg += Mreg (BREV)` (R933): no circular buffer. -/
def execAddIMBrev (i m : DagN) (s : State) : Outcome := done 2 (s.setI i (addBrev (s.i i) (s.m m)))

/-- `Preg += Preg (BREV)` (R934). -/
def execAddPregBrev (d r : PReg) (s : State) : Outcome := done 2 (s.setP d (addBrev (s.p d) (s.p r)))

/-- `Ireg += 2` (R935). -/
def execAddI2 (i : DagN) (s : State) : Outcome := done 2 (s.circI i 2)

/-- `Ireg -= 2` (R935). -/
def execSubI2 (i : DagN) (s : State) : Outcome := done 2 (s.circI i (-2))

/-- `Ireg += 4` (R935). -/
def execAddI4 (i : DagN) (s : State) : Outcome := done 2 (s.circI i 4)

/-- `Ireg -= 4` (R935). -/
def execSubI4 (i : DagN) (s : State) : Outcome := done 2 (s.circI i (-4))

end Sys2Proof.Machine
end

