-- ==== Sys2Proof/Machine/Mac.lean ====
section
/-!
DEFINITION. Multiplier and multiply-accumulate instructions (42_mac.md). They write AV0, AV0S, AV1, AV1S, V and VS and
no other flag.
-/

namespace Sys2Proof.Machine

/-! ## Shared operations -/

/-- The product of the halves that `x` names (R701, R705). -/
def State.mul (s : State) (m : MMod) (mm : Bool) (x : MulSrc) : Int := product m mm (s.dh x.s x.sh) (s.dh x.t x.th)

/-- The sources of one unit of a dual form (R701). -/
def halfSrc (h : HalfSel) (s t : DReg) : MulSrc := ⟨h.s, h.t, s, t⟩

/-- One accumulation with the product `p`: the accumulator and its overflow flags (R706). -/
def State.accumulate (s : State) (m : MMod) (mm : Bool) (a : AccN) (op : MacOp) (p : Int) : State :=
  let put (x : Int) : State :=
    let v := accClamp m mm x
    (s.setAcc a (BitVec.ofInt 40 v)).flags fun f => f.setAv a (decide (v ≠ x))
  match op with
  | .set => put p
  | .add => put (s.accValue m mm a + p)
  | .sub => put (s.accValue m mm a - p)
  | .none => s

/-- `V <- o`, VS sticky (R714). -/
def State.setV (s : State) (o : Bool) : State := s.flags fun f => f.setV o

/-- A half of a data register takes the value `x` (R712), with its V. -/
def State.resultHalf (s : State) (o : MMod) (x : Int) (d : DReg) (h : Half) : State :=
  let (s, _, v) := s.putHalf o x d h
  s.setV v

/-- A data register takes the value `x` (R713), with its V. -/
def State.resultWord (s : State) (o : MMod) (x : Int) (d : DReg) : State :=
  let (s, _, v) := s.putWord o x d
  s.setV v

/-- The results of a dual form: `x1` from MAC1 and `x0` from MAC0, each where it is written, to the halves of `d`, or
with `pair` to the pair of `d`; V is the OR of the two and is written only if something is extracted (R740, R714). -/
def State.resultDual (s : State) (m : MMod) (mm pair : Bool) (x1 x0 : Option Int) (d : DReg) : State :=
  let put (s : State) (o : MMod) (x : Option Int) (h : Half) (r : DReg) : State × Bool :=
    match x with
    | none => (s, false)
    | some x =>
      if pair then
        let (s, _, v) := s.putWord o x r
        (s, v)
      else
        let (s, _, v) := s.putHalf o x d h
        (s, v)
  let (s, v1) := put s (optExtract m mm) x1 .hi (DReg.pairHi d)
  let (s, v0) := put s m x0 .lo d
  if x1.isSome || x0.isSome then s.setV (v1 || v0) else s

/-- An accumulation in A0 whose result also goes to a low half (R727 to R729). -/
def State.mac0Lo (s : State) (m : MMod) (op : MacOp) (d : DReg) (x : MulSrc) : State :=
  let s := s.accumulate m false .a0 op (s.mul m false x)
  s.resultHalf m (s.accValue m false .a0) d .lo

/-- An accumulation in A1 whose result also goes to a high half (R730 to R732). -/
def State.mac1Hi (s : State) (m : MMod) (mm : Bool) (op : MacOp) (d : DReg) (x : MulSrc) : State :=
  let s := s.accumulate m mm .a1 op (s.mul m mm x)
  s.resultHalf (optExtract m mm) (s.accValue m mm .a1) d .hi

/-- An accumulation in A0 whose result also goes to an even register (R733 to R735). -/
def State.mac0Even (s : State) (m : MMod) (op : MacOp) (d : DReg) (x : MulSrc) : State :=
  let s := s.accumulate m false .a0 op (s.mul m false x)
  s.resultWord m (s.accValue m false .a0) d

/-- An accumulation in A1 whose result also goes to the odd register of the pair of `d` (R733 to R735). -/
def State.mac1Odd (s : State) (m : MMod) (mm : Bool) (op : MacOp) (d : DReg) (x : MulSrc) : State :=
  let s := s.accumulate m mm .a1 op (s.mul m mm x)
  s.resultWord (optExtract m mm) (s.accValue m mm .a1) (DReg.pairHi d)

/-! ## Multiply without accumulate -/

/-- `Dreg_lo = Dreg_lo_hi * Dreg_lo_hi` (R720). -/
def execMulLo (m : MMod) (d : DReg) (x : MulSrc) (s : State) : Outcome :=
  done 4 (s.resultHalf m (s.mul m false x) d .lo)

/-- `Dreg_hi = Dreg_lo_hi * Dreg_lo_hi` (R721). -/
def execMulHi (m : MMod) (mm : Bool) (d : DReg) (x : MulSrc) (s : State) : Outcome :=
  done 4 (s.resultHalf (optExtract m mm) (s.mul m mm x) d .hi)

/-- `Dreg_even = Dreg_lo_hi * Dreg_lo_hi` (R722). Here and in every form that writes a register of a pair: a word whose
register field is odd raises 0x22 (DESIGN CHOICE, log entry 101). -/
def execMulEven (m : MMod) (d : DReg) (x : MulSrc) (s : State) : Outcome :=
  legal d.even s <| done 4 (s.resultWord m (s.mul m false x) d)

/-- `Dreg_odd = Dreg_lo_hi * Dreg_lo_hi` (R722). -/
def execMulOdd (m : MMod) (mm : Bool) (d : DReg) (x : MulSrc) (s : State) : Outcome :=
  legal d.even s <| done 4 (s.resultWord (optExtract m mm) (s.mul m mm x) (DReg.pairHi d))

/-- The dual multiplication (R723). -/
def execMulDual (m : MMod) (mm pair : Bool) (d : DReg) (h1 h0 : HalfSel) (a b : DReg) (s : State) : Outcome :=
  legal (!pair || d.even) s <|
    done 4 (s.resultDual m mm pair (some (s.mul m mm (halfSrc h1 a b))) (some (s.mul m false (halfSrc h0 a b))) d)

/-! ## Multiply to accumulator and multiply-accumulate -/

/-- `A0 = Dreg_lo_hi * Dreg_lo_hi` (R724). -/
def execMacA0Set (m : MMod) (x : MulSrc) (s : State) : Outcome :=
  done 4 (s.accumulate m false .a0 .set (s.mul m false x))

/-- `A1 = Dreg_lo_hi * Dreg_lo_hi` (R724). -/
def execMacA1Set (m : MMod) (mm : Bool) (x : MulSrc) (s : State) : Outcome :=
  done 4 (s.accumulate m mm .a1 .set (s.mul m mm x))

/-- `Dreg_lo = (A0 = Dreg_lo_hi * Dreg_lo_hi)` (R727). -/
def execMacA0SetLo (m : MMod) (d : DReg) (x : MulSrc) (s : State) : Outcome := done 4 (s.mac0Lo m .set d x)

/-- `Dreg_hi = (A1 = Dreg_lo_hi * Dreg_lo_hi)` (R730). -/
def execMacA1SetHi (m : MMod) (mm : Bool) (d : DReg) (x : MulSrc) (s : State) : Outcome :=
  done 4 (s.mac1Hi m mm .set d x)

/-- `Dreg_even = (A0 = Dreg_lo_hi * Dreg_lo_hi)` (R733). -/
def execMacA0SetEven (m : MMod) (d : DReg) (x : MulSrc) (s : State) : Outcome :=
  legal d.even s <| done 4 (s.mac0Even m .set d x)

/-- `Dreg_odd = (A1 = Dreg_lo_hi * Dreg_lo_hi)` (R733). -/
def execMacA1SetOdd (m : MMod) (mm : Bool) (d : DReg) (x : MulSrc) (s : State) : Outcome :=
  legal d.even s <| done 4 (s.mac1Odd m mm .set d x)

/-- `A0 += Dreg_lo_hi * Dreg_lo_hi` (R725). -/
def execMacA0Add (m : MMod) (x : MulSrc) (s : State) : Outcome :=
  done 4 (s.accumulate m false .a0 .add (s.mul m false x))

/-- `A1 += Dreg_lo_hi * Dreg_lo_hi` (R725). -/
def execMacA1Add (m : MMod) (mm : Bool) (x : MulSrc) (s : State) : Outcome :=
  done 4 (s.accumulate m mm .a1 .add (s.mul m mm x))

/-- `Dreg_lo = (A0 += Dreg_lo_hi * Dreg_lo_hi)` (R728). -/
def execMacA0AddLo (m : MMod) (d : DReg) (x : MulSrc) (s : State) : Outcome := done 4 (s.mac0Lo m .add d x)

/-- `Dreg_hi = (A1 += Dreg_lo_hi * Dreg_lo_hi)` (R731). -/
def execMacA1AddHi (m : MMod) (mm : Bool) (d : DReg) (x : MulSrc) (s : State) : Outcome :=
  done 4 (s.mac1Hi m mm .add d x)

/-- `Dreg_even = (A0 += Dreg_lo_hi * Dreg_lo_hi)` (R734). -/
def execMacA0AddEven (m : MMod) (d : DReg) (x : MulSrc) (s : State) : Outcome :=
  legal d.even s <| done 4 (s.mac0Even m .add d x)

/-- `Dreg_odd = (A1 += Dreg_lo_hi * Dreg_lo_hi)` (R734). -/
def execMacA1AddOdd (m : MMod) (mm : Bool) (d : DReg) (x : MulSrc) (s : State) : Outcome :=
  legal d.even s <| done 4 (s.mac1Odd m mm .add d x)

/-- `A0 -= Dreg_lo_hi * Dreg_lo_hi` (R726). -/
def execMacA0Sub (m : MMod) (x : MulSrc) (s : State) : Outcome :=
  done 4 (s.accumulate m false .a0 .sub (s.mul m false x))

/-- `A1 -= Dreg_lo_hi * Dreg_lo_hi` (R726). -/
def execMacA1Sub (m : MMod) (mm : Bool) (x : MulSrc) (s : State) : Outcome :=
  done 4 (s.accumulate m mm .a1 .sub (s.mul m mm x))

/-- `Dreg_lo = (A0 -= Dreg_lo_hi * Dreg_lo_hi)` (R729). -/
def execMacA0SubLo (m : MMod) (d : DReg) (x : MulSrc) (s : State) : Outcome := done 4 (s.mac0Lo m .sub d x)

/-- `Dreg_hi = (A1 -= Dreg_lo_hi * Dreg_lo_hi)` (R732). -/
def execMacA1SubHi (m : MMod) (mm : Bool) (d : DReg) (x : MulSrc) (s : State) : Outcome :=
  done 4 (s.mac1Hi m mm .sub d x)

/-- `Dreg_even = (A0 -= Dreg_lo_hi * Dreg_lo_hi)` (R735). -/
def execMacA0SubEven (m : MMod) (d : DReg) (x : MulSrc) (s : State) : Outcome :=
  legal d.even s <| done 4 (s.mac0Even m .sub d x)

/-- `Dreg_odd = (A1 -= Dreg_lo_hi * Dreg_lo_hi)` (R735). -/
def execMacA1SubOdd (m : MMod) (mm : Bool) (d : DReg) (x : MulSrc) (s : State) : Outcome :=
  legal d.even s <| done 4 (s.mac1Odd m mm .sub d x)

/-- The dual MAC (R740): both units on the state before the instruction. A unit with the operation none that writes its
register writes what its accumulator extracts to, with V and VS and no other flag (DESIGN CHOICE, log entry 102). -/
def execMacDual (m : MMod) (mm pair : Bool) (u1 u0 : MacUnit) (d a b : DReg) (s : State) : Outcome :=
  legal (!pair || d.even || !(u1.write || u0.write)) s <|
    let p1 := s.mul m mm (halfSrc u1.sel a b)
    let p0 := s.mul m false (halfSrc u0.sel a b)
    let s := (s.accumulate m mm .a1 u1.op p1).accumulate m false .a0 u0.op p0
    let x1 := if u1.write then some (s.accValue m mm .a1) else none
    let x0 := if u0.write then some (s.accValue m false .a0) else none
    done 4 (s.resultDual m mm pair x1 x0 d)

/-- `Dreg *= Dreg` (R745). -/
def execMulDreg (d r : DReg) (s : State) : Outcome := done 2 (s.setD d (s.d d * s.d r))

end Sys2Proof.Machine
end

