-- ==== Sys2Proof/Machine/Shift.lean ====
section
/-!
DEFINITION. Shifter, rotate, bit and field instructions, and the operations that the spec names without an effect: BXOR
and the video operations (43_shifter_video.md).
-/

namespace Sys2Proof.Machine

/-! ## Bit operations -/

/-- `1 << n` (R763). -/
def bitMask (n : BitVec 5) : Word := (1 : Word) <<< n.toNat

/-- `BITCLR (Dreg, uimm5)` (R763). -/
def execBitclr (d : DReg) (n : BitVec 5) (s : State) : Outcome := done 2 (s.logicResult d (s.d d &&& ~~~ bitMask n))

/-- `BITSET (Dreg, uimm5)` (R764). -/
def execBitset (d : DReg) (n : BitVec 5) (s : State) : Outcome := done 2 (s.logicResult d (s.d d ||| bitMask n))

/-- `BITTGL (Dreg, uimm5)` (R765). -/
def execBittgl (d : DReg) (n : BitVec 5) (s : State) : Outcome := done 2 (s.logicResult d (s.d d ^^^ bitMask n))

/-- `CC = BITTST (Dreg, uimm5)` (R766). -/
def execCcBittst (r : DReg) (n : BitVec 5) (s : State) : Outcome := done 2 (s.setCc ((s.d r).getLsbD n.toNat))

/-- `CC = !BITTST (Dreg, uimm5)` (R767). -/
def execCcNotBittst (r : DReg) (n : BitVec 5) (s : State) : Outcome := done 2 (s.setCc (!(s.d r).getLsbD n.toNat))

/-! ## Field deposit and extract, bit multiplex, ones count, pack -/

/-- The position of a field: bits 12:8 of the pattern (R768). -/
def fieldPos (p : Word) : Nat := (p.extractLsb' 8 5).toNat

/-- The length of a field: bits 4:0 of the pattern (R768). -/
def fieldLen (p : Word) : Nat := (p.extractLsb' 0 5).toNat

/-- The mask of a field of `len` bits. -/
def fieldMask (len : Nat) : Word := BitVec.ofNat 32 (2 ^ len - 1)

/-- DEPOSIT: the background with the field in it; with `fill` every bit above the field is that bit (R768). -/
def depositValue (bg fg : Word) (fill : Option Bool) : Word :=
  let pos := fieldPos fg
  let mask := fieldMask (fieldLen fg)
  let f := (fg >>> 16) &&& mask
  let v := (bg &&& ~~~ (mask <<< pos)) ||| (f <<< pos)
  match fill with
  | none => v
  | some b =>
    let low := fieldMask (min 32 (pos + fieldLen fg))
    (v &&& low) ||| (if b then ~~~ low else 0)

/-- `Dreg = DEPOSIT (Dreg, Dreg) [(X)]` (R768). A field of length 0 has no top bit: with (X) the bits above its place
are then a free bit (log entry 22). -/
def execDeposit (x : Bool) (d bg fg : DReg) (s : State) : Outcome :=
  let b := s.d bg
  let f := s.d fg
  if x then
    if fieldLen f = 0 then
      let (t, s) := s.drawBit
      done 4 (s.logicResult d (depositValue b f (some t)))
    else done 4 (s.logicResult d (depositValue b f (some (((f >>> 16) &&& fieldMask (fieldLen f)).getLsbD (fieldLen f - 1)))))
  else done 4 (s.logicResult d (depositValue b f none))

/-- EXTRACT (R769): the field, zero-extended or sign-extended; a field of length 0 is the number 0. -/
def extractValue (x : Bool) (scene pat : Word) : Word :=
  let len := fieldLen pat
  let f := (scene >>> fieldPos pat) &&& fieldMask len
  if x && decide (0 < len) && f.getLsbD (len - 1) then f ||| ~~~ fieldMask len else f

/-- `Dreg = EXTRACT (Dreg, Dreg_lo) (Z|X)` (R769). -/
def execExtract (x : Bool) (d scene pat : DReg) (s : State) : Outcome :=
  done 4 (s.logicResult d (extractValue x (s.d scene) (s.d pat)))

/-- `BITMUX (Dreg, Dreg, A0) (ASR|ASL)` (R770): the two registers must differ; the same one twice is the illegal
combination, exception 0x22 (DESIGN CHOICE, log entry 91). -/
def execBitmux (asl : Bool) (a b : DReg) (s : State) : Outcome :=
  legal (decide (a ≠ b)) s <|
    let x := s.d a
    let y := s.d b
    let acc : Acc :=
      if asl then (s.cur.a0.extractLsb' 0 38) ++ BitVec.ofBool y.msb ++ BitVec.ofBool x.msb
      else BitVec.ofBool (y.getLsbD 0) ++ BitVec.ofBool (x.getLsbD 0) ++ (s.cur.a0.extractLsb' 2 38)
    let sh (w : Word) : Word := if asl then w <<< 1 else w >>> 1
    done 4 (((s.setAcc .a0 acc).setD a (sh x)).setD b (sh y))

/-- `Dreg_lo = ONES Dreg` (R771). -/
def execOnes (d r : DReg) (s : State) : Outcome := done 4 (s.setDh d .lo (BitVec.ofNat 16 (onesCount (s.d r))))

/-- `Dreg = PACK (Dreg_lo_hi, Dreg_lo_hi)` (R772). -/
def execPack (d : DReg) (ah bh : Half) (a b : DReg) (s : State) : Outcome :=
  done 4 (s.setD d (word (s.dh a ah) (s.dh b bh)))

/-! ## Results of shifts -/

/-- A data register takes a shifted value; V cleared (R762). -/
def State.shiftResult (s : State) (d : DReg) (v : Word) : State := (s.setD d v).znFlags [v]

/-- A data register takes an arithmetically shifted value, with V (R762). -/
def State.shiftResultV (s : State) (d : DReg) (r : Result 32) : State := (s.setD d r.val).znvFlags [(r.val, r.ovf)]

/-- Both halves take shifted values; V cleared (R779). -/
def State.shiftVec (s : State) (d : DReg) (h l : HWord) : State := (s.setD d (word h l)).znFlags [h, l]

/-- Both halves take arithmetically shifted values, with V (R781). -/
def State.shiftVecV (s : State) (d : DReg) (h l : Result 16) : State :=
  (s.setD d (word h.val l.val)).znvFlags [(h.val, h.ovf), (l.val, l.ovf)]

/-- A half takes a shifted value; V cleared (R782). -/
def State.shiftHalf (s : State) (d : DReg) (dh : Half) (v : HWord) : State := (s.setDh d dh v).znFlags [v]

/-- A half takes an arithmetically shifted value, with V (R784). -/
def State.shiftHalfV (s : State) (d : DReg) (dh : Half) (r : Result 16) : State :=
  (s.setDh d dh r.val).znvFlags [(r.val, r.ovf)]

/-- The plain left shift `<<` of three operands: the logical value, V as of the arithmetic one (R778, D30). -/
def lslR {w : Nat} (a : BitVec w) (n : Int) : Result w := shiftA false a n

/-- The magnitude of an immediate count must lie below `w`: 16 for `uimm4`, 32 for `uimm5` (R761). An operand outside
its range is refused (R503, 93_implementation_defined.md section 2.2); a count of the other sign than the row's operator
shifts the other way (R546; DESIGN CHOICE, log entry 65). -/
def immCount (w : Nat) (n : BitVec 6) (k : Outcome) : Outcome :=
  if countOk w n then k else .refused .operandRange

/-! ## Shifts of a data register by an immediate -/

/-- `Dreg >>>= uimm5` (R773). -/
def execAsrImmTo (d : DReg) (n : BitVec 5) (s : State) : Outcome :=
  done 2 (s.shiftResult d ((s.d d).sshiftRight n.toNat))

/-- `Dreg >>= uimm5` (R774). -/
def execLsrImmTo (d : DReg) (n : BitVec 5) (s : State) : Outcome := done 2 (s.shiftResult d (s.d d >>> n.toNat))

/-- `Dreg <<= uimm5` (R775). -/
def execLslImmTo (d : DReg) (n : BitVec 5) (s : State) : Outcome := done 2 (s.shiftResult d (s.d d <<< n.toNat))

/-- `Dreg = Dreg >>> uimm5` (R776). The signed field `n` is negative for a right shift; a positive one shifts left
(R546). -/
def execAsrImm (d r : DReg) (n : BitVec 6) (s : State) : Outcome :=
  immCount 32 n <| done 4 (s.shiftResultV d (shiftA false (s.d r) n.toInt))

/-- `Dreg = Dreg >> uimm5` (R777, R546). -/
def execLsrImm (d r : DReg) (n : BitVec 6) (s : State) : Outcome :=
  immCount 32 n <| done 4 (s.shiftResult d (shiftL (s.d r) n.toInt))

/-- `Dreg = Dreg << uimm5` (R778, D30). -/
def execLslImm (d r : DReg) (n : BitVec 6) (s : State) : Outcome :=
  immCount 32 n <| done 4 (s.shiftResultV d (lslR (s.d r) n.toInt))

/-- `Dreg = Dreg << uimm5 (S)` (R778). -/
def execLslImmSat (d r : DReg) (n : BitVec 6) (s : State) : Outcome :=
  immCount 32 n <| done 4 (s.shiftResultV d (shiftA true (s.d r) n.toInt))

/-- `Dreg = Dreg >>> uimm4 (V)` (R779, R546). -/
def execAsrImmVec (d r : DReg) (n : BitVec 6) (s : State) : Outcome :=
  immCount 16 n <| done 4 (s.shiftVecV d (shiftA false (s.dh r .hi) n.toInt) (shiftA false (s.dh r .lo) n.toInt))

/-- `Dreg = Dreg >> uimm4 (V)` (R780, R546). -/
def execLsrImmVec (d r : DReg) (n : BitVec 6) (s : State) : Outcome :=
  immCount 16 n <| done 4 (s.shiftVec d (shiftL (s.dh r .hi) n.toInt) (shiftL (s.dh r .lo) n.toInt))

/-- `Dreg = Dreg << uimm4 (V)` (R781). -/
def execLslImmVec (d r : DReg) (n : BitVec 6) (s : State) : Outcome :=
  immCount 16 n <| done 4 (s.shiftVecV d (lslR (s.dh r .hi) n.toInt) (lslR (s.dh r .lo) n.toInt))

/-- `Dreg = Dreg << uimm4 (V, S)` (R781). -/
def execLslImmVecSat (d r : DReg) (n : BitVec 6) (s : State) : Outcome :=
  immCount 16 n <| done 4 (s.shiftVecV d (shiftA true (s.dh r .hi) n.toInt) (shiftA true (s.dh r .lo) n.toInt))

/-- `Dreg_lo_hi = Dreg_lo_hi >>> uimm4` (R782, R546). -/
def execAsrImmHalf (dh : Half) (d : DReg) (rh : Half) (r : DReg) (n : BitVec 6) (s : State) : Outcome :=
  immCount 16 n <| done 4 (s.shiftHalfV d dh (shiftA false (s.dh r rh) n.toInt))

/-- `Dreg_lo_hi = Dreg_lo_hi >> uimm4` (R783, R546). -/
def execLsrImmHalf (dh : Half) (d : DReg) (rh : Half) (r : DReg) (n : BitVec 6) (s : State) : Outcome :=
  immCount 16 n <| done 4 (s.shiftHalf d dh (shiftL (s.dh r rh) n.toInt))

/-- `Dreg_lo_hi = Dreg_lo_hi << uimm4` (R784). -/
def execLslImmHalf (dh : Half) (d : DReg) (rh : Half) (r : DReg) (n : BitVec 6) (s : State) : Outcome :=
  immCount 16 n <| done 4 (s.shiftHalfV d dh (lslR (s.dh r rh) n.toInt))

/-- `Dreg_lo_hi = Dreg_lo_hi << uimm4 (S)` (R784). -/
def execLslImmHalfSat (dh : Half) (d : DReg) (rh : Half) (r : DReg) (n : BitVec 6) (s : State) : Outcome :=
  immCount 16 n <| done 4 (s.shiftHalfV d dh (shiftA true (s.dh r rh) n.toInt))

/-! ## Shifts of a data register by a register -/

/-- `Dreg >>>= Dreg` (R785): the count is the whole register, unsigned (R761). -/
def execAsrDregTo (d r : DReg) (s : State) : Outcome :=
  done 2 (s.shiftResult d ((s.d d).sshiftRight (min (s.d r).toNat 31)))

/-- `Dreg >>= Dreg` (R786). -/
def execLsrDregTo (d r : DReg) (s : State) : Outcome :=
  done 2 (s.shiftResult d (if 32 ≤ (s.d r).toNat then 0 else s.d d >>> (s.d r).toNat))

/-- `Dreg <<= Dreg` (R787). -/
def execLslDregTo (d r : DReg) (s : State) : Outcome :=
  done 2 (s.shiftResult d (if 32 ≤ (s.d r).toNat then 0 else s.d d <<< (s.d r).toNat))

/-- `Dreg = ASHIFT Dreg BY Dreg_lo` (R788). -/
def execAshift (d v c : DReg) (s : State) : Outcome :=
  done 4 (s.shiftResultV d (shiftA false (s.d v) (shiftCount (s.d c))))

/-- `Dreg = ASHIFT Dreg BY Dreg_lo (S)` (R788). -/
def execAshiftSat (d v c : DReg) (s : State) : Outcome :=
  done 4 (s.shiftResultV d (shiftA true (s.d v) (shiftCount (s.d c))))

/-- `Dreg = LSHIFT Dreg BY Dreg_lo` (R789). -/
def execLshift (d v c : DReg) (s : State) : Outcome :=
  done 4 (s.shiftResult d (shiftL (s.d v) (shiftCount (s.d c))))

/-- `Dreg = ASHIFT Dreg BY Dreg_lo (V)` (R790). -/
def execAshiftVec (d v c : DReg) (s : State) : Outcome :=
  let n := shiftCount (s.d c)
  done 4 (s.shiftVecV d (shiftA false (s.dh v .hi) n) (shiftA false (s.dh v .lo) n))

/-- `Dreg = ASHIFT Dreg BY Dreg_lo (V, S)` (R790). -/
def execAshiftVecSat (d v c : DReg) (s : State) : Outcome :=
  let n := shiftCount (s.d c)
  done 4 (s.shiftVecV d (shiftA true (s.dh v .hi) n) (shiftA true (s.dh v .lo) n))

/-- `Dreg = LSHIFT Dreg BY Dreg_lo (V)` (R791). -/
def execLshiftVec (d v c : DReg) (s : State) : Outcome :=
  let n := shiftCount (s.d c)
  done 4 (s.shiftVec d (shiftL (s.dh v .hi) n) (shiftL (s.dh v .lo) n))

/-- `Dreg_lo_hi = ASHIFT Dreg_lo_hi BY Dreg_lo` (R792). -/
def execAshiftHalf (dh : Half) (d : DReg) (vh : Half) (v c : DReg) (s : State) : Outcome :=
  done 4 (s.shiftHalfV d dh (shiftA false (s.dh v vh) (shiftCount (s.d c))))

/-- `Dreg_lo_hi = ASHIFT Dreg_lo_hi BY Dreg_lo (S)` (R792). -/
def execAshiftHalfSat (dh : Half) (d : DReg) (vh : Half) (v c : DReg) (s : State) : Outcome :=
  done 4 (s.shiftHalfV d dh (shiftA true (s.dh v vh) (shiftCount (s.d c))))

/-- `Dreg_lo_hi = LSHIFT Dreg_lo_hi BY Dreg_lo` (R793). -/
def execLshiftHalf (dh : Half) (d : DReg) (vh : Half) (v c : DReg) (s : State) : Outcome :=
  done 4 (s.shiftHalf d dh (shiftL (s.dh v vh) (shiftCount (s.d c))))

/-! ## Rotates through CC -/

/-- A data register and CC take a rotated ring (R794). -/
def State.rotResult (s : State) (d : DReg) (v : Word) (n : Int) : State :=
  let (w, cc) := rotateCc s.cc v n
  (s.setD d w).setCc cc

/-- An accumulator and CC take a rotated ring (R795). -/
def State.rotAccResult (s : State) (a : AccN) (n : Int) : State :=
  let (w, cc) := rotateCc s.cc (s.acc a) n
  (s.setAcc a w).setCc cc

/-- `Dreg = ROT Dreg BY imm6` (R794). -/
def execRotImm (d r : DReg) (n : BitVec 6) (s : State) : Outcome := done 4 (s.rotResult d (s.d r) n.toInt)

/-- `Dreg = ROT Dreg BY Dreg_lo` (R794). -/
def execRotDreg (d v c : DReg) (s : State) : Outcome := done 4 (s.rotResult d (s.d v) (shiftCount (s.d c)))

/-- `An = ROT An BY imm6` (R795). -/
def execRotAccImm (a : AccN) (n : BitVec 6) (s : State) : Outcome := done 4 (s.rotAccResult a n.toInt)

/-- `An = ROT An BY Dreg_lo` (R795). -/
def execRotAcc (a : AccN) (c : DReg) (s : State) : Outcome := done 4 (s.rotAccResult a (shiftCount (s.d c)))

/-! ## Accumulator shifts -/

/-- An accumulator takes a shifted value; its AV is set or cleared, sticky (R796 to R799). -/
def State.accShift (s : State) (a : AccN) (r : Result 40) : State := (s.setAcc a r.val).accFlags a r

/-- `An = An >>> uimm5` (R796, R546). -/
def execAsrAccImm (a : AccN) (n : BitVec 6) (s : State) : Outcome :=
  immCount 32 n <| done 4 (s.accShift a (shiftA false (s.acc a) n.toInt))

/-- `An = An >> uimm5` (R797, R546): AV is cleared. -/
def execLsrAccImm (a : AccN) (n : BitVec 6) (s : State) : Outcome :=
  immCount 32 n <| done 4 (s.accShift a ⟨shiftL (s.acc a) n.toInt, false, false⟩)

/-- `An = An << uimm5` (R798). -/
def execLslAccImm (a : AccN) (n : BitVec 6) (s : State) : Outcome :=
  immCount 32 n <| done 4 (s.accShift a (lslR (s.acc a) n.toInt))

/-- `An = An ASHIFT BY Dreg_lo` (R799). -/
def execAshiftAcc (a : AccN) (c : DReg) (s : State) : Outcome :=
  done 4 (s.accShift a (shiftA false (s.acc a) (shiftCount (s.d c))))

/-! ## Operations the spec names without an effect -/

/-- BXORSHIFT, BXOR with A0: the spec gives no effect (R810). -/
def execBxorShift (_aa _hh : BitVec 2) (_d _a _b : DReg) (_s : State) : Outcome := .refused .bxorNotDescribed

/-- BXOR with A0 and A1: the spec gives no effect (R810). -/
def execBxorAcc (_aa _hh : BitVec 2) (_d _a _b : DReg) (_s : State) : Outcome := .refused .bxorNotDescribed

/-- SAA: the spec gives no effect (R811). -/
def execSaa (_hl _o _x : Bool) (_d _e _p _q : DReg) (_s : State) : Outcome := .refused .videoNotDescribed

/-- BYTEOP1P: the spec gives no effect (R811). -/
def execByteop1p (_hl : Bool) (_b : BitVec 2) (_o _x : Bool) (_d _e _p _q : DReg) (_s : State) : Outcome :=
  .refused .videoNotDescribed

/-- BYTEOP16P, BYTEOP16M: the spec gives no effect (R811). -/
def execByteop16 (_hl : Bool) (_b : BitVec 2) (_o _x : Bool) (_d _e _p _q : DReg) (_s : State) : Outcome :=
  .refused .videoNotDescribed

/-- BYTEOP2P: the spec gives no effect (R811). -/
def execByteop2p (_hl : Bool) (_b : BitVec 2) (_o _x : Bool) (_d _e _p _q : DReg) (_s : State) : Outcome :=
  .refused .videoNotDescribed

/-- BYTEOP3P: the spec gives no effect (R811). -/
def execByteop3p (_hl : Bool) (_b : BitVec 2) (_o _x : Bool) (_d _e _p _q : DReg) (_s : State) : Outcome :=
  .refused .videoNotDescribed

/-- BYTEPACK, BYTEUNPACK: the spec gives no effect (R811). -/
def execBytepack (_hl : Bool) (_b : BitVec 2) (_o _x : Bool) (_d _e _p _q : DReg) (_s : State) : Outcome :=
  .refused .videoNotDescribed

end Sys2Proof.Machine
end

