-- ==== Sys2Proof/Machine/System.lean ====
section
/-!
DEFINITION. System, synchronisation, cache-control and stack instructions (46_system.md).
-/

namespace Sys2Proof.Machine

/-! ## No-operations -/

/-- `NOP` (R1000). -/
def execNop (s : State) : Outcome := done 2 s

/-- `MNOP` (R1001). -/
def execMnop (s : State) : Outcome := done 4 s

/-! ## Event system -/

/-- The current core with another event controller. -/
def State.setEv (s : State) (e : EventCtl) : State := s.setCur { s.cur with ev := e }

/-- `CLI Dreg` (R1002). -/
def execCli (d : DReg) (s : State) : Outcome :=
  supervisor s <|
    let m := s.cur.ev.imask
    done 2 ((s.setD d (m.zeroExtend 32)).setEv { s.cur.ev with imask := m &&& 0x001F })

/-- `STI Dreg` (R1003): IMASK[4:0] stay 1. -/
def execSti (r : DReg) (s : State) : Outcome :=
  supervisor s <| done 2 (s.setEv { s.cur.ev with imask := (s.dh r .lo &&& 0xFFE0) ||| 0x001F })

/-- Event `n` is latched by the core's own RAISE (R1004, D45). -/
def State.latchRaise (s : State) (n : Nat) : State :=
  s.setEv { s.cur.ev with ilat := s.cur.ev.ilat ||| bitOf n, raised := s.cur.ev.raised ||| bitOf n }

/-- `RAISE uimm4` (R1004). -/
def execRaiseInt (n : BitVec 4) (s : State) : Outcome :=
  supervisor s <|
    match n.toNat with
    | 0 | 3 | 4 => .refused .raiseReserved
    | 1 => .next s.coreOnlyReset
    | 5 => done 2 ((s.setCur { s.cur with seqstat := { s.cur.seqstat with hwerrcause := 0x18 } }).latchRaise 5)
    | k => done 2 (s.latchRaise k)

/-- `EXCPT uimm4` (R1005). -/
def execExcpt (n : BitVec 4) (s : State) : Outcome := raiseService (.excpt n) 2 (s.count 0x0B)

/-- `EMUEXCPT` (R1006): what it does without an emulator is not described. -/
def execEmuexcpt (_s : State) : Outcome := .refused .emulation

/-- The core is synchronised: nothing it has done is outstanding (R1008, R1725, R1749), and it executes instruction memory
as it is now (R349). -/
def State.sync (s : State) : State := s.setCur { s.cur with synced := true, stepLate := false, stale := [] }

/-- A pending store that lies in the core's store buffer: to L1 memory or to a core MMR. The others lie in the write buffers
behind L1 (R341, R1008). -/
def PendStore.inCore (p : PendStore) : Bool :=
  (decide (0xFF400000 ≤ p.addr) && decide (p.addr < 0xFFC00000)) || decide (0xFFE00000 ≤ p.addr)

/-- Every store to L1 memory and to a core MMR has been performed, and every store to the data cache is in its line: the
store buffer is empty (R1008). -/
def Core.coreSynced (c : Core) : Bool :=
  (c.stores.all fun p => !p.inCore) && c.dfill.all fun f => f.stores.isEmpty

/-- Every store has been performed and acknowledged, no line fill is under way (R1009; log entry 83), and a peripheral's
request that has been withdrawn is no longer seen by the core's interrupt controller (R1526; log entry 83). -/
def State.systemSynced (s : State) : Bool :=
  s.cur.stores.isEmpty && s.cur.dfill.isNone && s.cur.ifill.isNone && !s.staleLine s.cur.id

/-- `IDLE` (R1007): refused in User mode (D35). -/
def execIdle (s : State) : Outcome :=
  if s.user then .refused .idleInUser
  else if s.systemSynced then
    let s := s.sync
    done 2 (s.setCur { s.cur with idle := true })
  else waitBus s

/-- `CSYNC` (R1008). -/
def execCsync (s : State) : Outcome := if s.cur.coreSynced then done 2 ((s.count 0x0C).sync) else waitBus s

/-- `SSYNC` (R1009). -/
def execSsync (s : State) : Outcome := if s.systemSynced then done 2 ((s.count 0x0C).sync) else waitBus s

/-! ## TESTSET -/

/-- The memory that TESTSET may reach: everything but L1 memory and MMR space (R1010). -/
def testsetRegion : Region → Bool
  | .external | .bootRom | .l2 | .reserved => true
  | .dataSram | .scratchpad | .instSram | .l1Other | .sysMmr | .coreMmr => false

/-- The locked read and write of the byte at `a`, past the data cache: CC and bit 7 (R1010). A pending store of the core
to the byte comes first (R340). A failed access reads a free byte and stores nothing (R337). -/
def State.testset (s : State) (a : Nat) : Res Unit :=
  let failed (s : State) : Res Unit :=
    let (z, s) := s.drawBit
    .ok () ((s.hwError 0x03).setCc z)
  if s.cur.pendingIn a 1 then .stall (s.waitFor a true)
  else
    match s.cur.region a with
    | .l2 =>
      let b := s.mem.loadN a 1
      .ok () ((s.memStore a 1 (b ||| 0x80)).setCc (b == 0))
    | .external =>
      (match s.extAccess (.load s.cur.id) a with
       | .ok loc s =>
         let (b, s) := s.boardRead loc a 1
         .ok () ((s.boardWrite loc a 1 (b ||| 0x80)).setCc (b == 0))
       | .error s => failed s
       | .wait s => .stall (s.waitFor a true)
       | .refused r => .refused r)
    | _ => failed s

/-- `TESTSET (Preg)` (R1010), of any pointer register, SP and FP too (DESIGN CHOICE, log entry 88): the exceptions of a
load and of a store, of which the one of higher priority is taken (R1722), the load's where they are equal (DESIGN CHOICE,
log entry 99), then the targets that are refused. -/
def execTestset (p : PReg) (s : State) : Outcome :=
  let a := s.p p
  match s.checkData s.dag1 a 1 false, s.checkData s.dag1 a 1 true with
  | some (e, s), some (f, _) => raise (f.higher (some e)) s
  | some (e, s), none | none, some (e, s) => raise e s
  | none, none =>
    if a.getLsbD 0 || !testsetRegion (s.cur.region a.toNat) then .refused .testsetTarget
    else
      let s := (s.dataWatch a false s.dag1).dataWatch a true s.dag1
      (s.testset a.toNat).run fun _ s => done 2 s

/-! ## Cache control -/

/-- The pointer update of the `[Preg++]` forms: one cache line (section 5 of 46_system.md). -/
def State.postLine (s : State) (inc : Bool) (p : PReg) : State := if inc then s.setP p (s.p p + 32) else s

/-- The prefetch of the line of `a` (R1011): where it is allowed and of use, the line fill may or may not begin. A fill
counts as a use of the way it takes, as any other (log entry 72). -/
def State.prefetchLine (s : State) (a : Word) : State :=
  let useful := (s.cur.dataCheck a 1 false s.dag1 0).isNone && (s.cur.dataPage a).isSome
    && (match s.cur.region a.toNat with | .external | .l2 | .bootRom => true | _ => false)
    && (s.cur.dmem.hitWay a.toNat).isNone
  if useful then
    let (go, s) := s.drawBit
    if go then s.startFill a.toNat else s
  else s

/-- The flush of the line of `a` with the exceptions of a load (R1012, R1013, D36). A line that is being filled is flushed
once it is there. -/
def State.flushAt (s : State) (a : Word) (inv : Bool) : Res Unit :=
  match s.cur.dataCheck a 1 false s.dag1 0 with
  | some e => .exc e s
  | none => if (s.cur.filling a.toNat).isSome then .stall (s.waitFor a.toNat false) else .ok () (s.flushLine a inv)

/-- `PREFETCH [Preg] / [Preg++]` (R1011). -/
def execPrefetch (inc : Bool) (p : PReg) (s : State) : Outcome :=
  done 2 ((s.prefetchLine (s.p p)).postLine inc p)

/-- `FLUSH [Preg] / [Preg++]` (R1012). -/
def execFlush (inc : Bool) (p : PReg) (s : State) : Outcome :=
  (s.flushAt (s.p p) false).run fun _ s => done 2 (s.postLine inc p)

/-- `FLUSHINV [Preg] / [Preg++]` (R1013). -/
def execFlushinv (inc : Bool) (p : PReg) (s : State) : Outcome :=
  (s.flushAt (s.p p) true).run fun _ s => done 2 (s.postLine inc p)

/-- `IFLUSH [Preg] / [Preg++]` (R1014). A line that is being filled is invalidated once it is there. -/
def execIflush (inc : Bool) (p : PReg) (s : State) : Outcome :=
  let a := (s.p p).toNat
  if s.cur.ifill.any fun f => f.base == a / 32 * 32 then waitBus (s.waitFor a false)
  else done 2 ((s.iflushLine a).postLine inc p)

/-! ## Stack -/

/-- The effect of a push or pop of RETI on IPEND[4] (R1017). -/
def State.setIntDisable (s : State) (r : AllReg) (b : Bool) : State :=
  if r = .reti then
    s.setEv { s.cur.ev with ipend := if b then s.cur.ev.ipend ||| 0x10 else s.cur.ev.ipend &&& 0xFFEF }
  else s

/-- `[--SP] = allreg` (R1015, R1017). -/
def execPushReg (r : AllReg) (s : State) : Outcome :=
  if s.user && supervisorReg r then raise .illegalSupervisorUse s
  else if r = .emudat then .refused .emulatorRegister
  else
    let a := s.p .sp - 4
    s.storing 2 a 4 (s.readReg r) fun s => (s.setP .sp a).setIntDisable r false

/-- `allreg = [SP++]` (R1016, R1017). -/
def execPopReg (r : AllReg) (s : State) : Outcome :=
  if s.user && supervisorDest r then raise .illegalSupervisorUse s
  else if r = .emudat then .refused .emulatorRegister
  else if r = .p .sp then .refused .popIntoSp
  else
    let a := s.p .sp
    s.loading 2 a 4 fun v s => ((s.writeReg r (loadZ v)).setP .sp (a + 4)).setIntDisable r true

/-- The data registers `R7:d`, the lowest number first (R1018). -/
def dRange (d : Option DReg) : List DReg :=
  match d with
  | none => []
  | some d => [DReg.r0, .r1, .r2, .r3, .r4, .r5, .r6, .r7].dropWhile fun r => r != d

/-- The pointer registers `P5:p`, the lowest number first (R1018). -/
def pRange (p : Option PReg) : List PReg :=
  match p with
  | none => []
  | some p => [PReg.p0, .p1, .p2, .p3, .p4, .p5].dropWhile fun r => r != p

/-- The registers of a push multiple in its order (R1018). -/
def multiList (m : MultiRegs) : List DPReg := (dRange m.d).map .d ++ (pRange m.p).map .p

/-- Words stored one below the other, the first at `a - 4` (R1018). -/
def State.pushWords (s : State) (a : Word) : List Word → Res Word
  | [] => .ok a s
  | v :: vs => (s.store (a - 4) 4 v.toNat).bind fun _ s => State.pushWords s (a - 4) vs

/-- `n` words loaded one above the other, the first at `a`; the answer is in the order of the loads (R1019). -/
def State.popWords (s : State) (a : Word) : Nat → Res (List Word)
  | 0 => .ok [] s
  | n + 1 =>
    (s.load a 4).bind fun v s => (State.popWords s (a + 4) n).bind fun vs s => .ok (loadZ v :: vs) s

/-- Registers take words, pairwise. -/
def State.setDps (s : State) : List (DPReg × Word) → State
  | [] => s
  | (r, v) :: rest => State.setDps (s.setDp r v) rest

/-- `[--SP] = (R7:d, P5:p)` (R1018). -/
def execPushMulti (m : MultiRegs) (s : State) : Outcome :=
  (s.pushWords (s.p .sp) ((multiList m).map s.dp)).run fun a s => done 2 (s.setP .sp a)

/-- The answer of several accesses of which all or none are made: an exception of one takes the others back, but for what the
bus has done (R1720, R344); that the watchpoint unit saw them stays (log entry 92). -/
def Res.allOrNone {α : Type} (x : Res α) (s : State) : Res α :=
  match x with
  | .exc e t =>
    let u := s.keepBus t
    .exc e { u with cur := { u.cur with wp := t.cur.wp }, issue := t.issue }
  | x => x

/-- `(R7:d, P5:p) = [SP++]` (R1019). -/
def execPopMulti (m : MultiRegs) (s : State) : Outcome :=
  let rs := (multiList m).reverse
  ((s.popWords (s.p .sp) rs.length).allOrNone s).run fun vs s =>
    done 2 ((s.setDps (rs.zip vs)).setP .sp (s.p .sp + BitVec.ofNat 32 (4 * rs.length)))

/-- `LINK uimm18m4` (R1020), of the frame size `4 * n` bytes. A size below 8 lies outside the range that the rule gives
the operand and is refused (R503); a size above 262140, which that range takes in, has no encoding in the 16-bit field
(R542; log entry 87). -/
def execLink (n : BitVec 16) (s : State) : Outcome :=
  if n.toNat < 2 then .refused .operandRange
  else
    ((s.pushWords (s.p .sp) [s.cur.rets, s.p .fp]).allOrNone s).run fun a s =>
      done 4 ((s.setP .fp a).setP .sp (a - BitVec.ofNat 32 (4 * n.toNat)))

/-- `UNLINK` (R1020). -/
def execUnlink (s : State) : Outcome :=
  let a := s.p .fp
  ((s.popWords a 2).allOrNone s).run fun vs s =>
    let s := (s.setP .fp (vs.getD 0 0)).setP .sp (a + 8)
    done 4 (s.setCur { s.cur with rets := vs.getD 1 0 })

end Sys2Proof.Machine
end

