-- ==== Sys2Proof/Machine/Dispatch.lean ====
section
/-!
DEFINITION. One instruction on one state: each constructor of `Instr` calls its meaning.
-/

namespace Sys2Proof.Machine

def exec (i : Instr) (s : State) : Host.Outcome State Fault Refusal :=
  match i with
  | .moveReg x0 x1 => Sys2Proof.Machine.execMoveReg x0 x1 s
  | .moveAccAcc x0 => Sys2Proof.Machine.execMoveAccAcc x0 s
  | .moveAccDreg x0 x1 => Sys2Proof.Machine.execMoveAccDreg x0 x1 s
  | .moveDregEvenA0 x0 x1 => Sys2Proof.Machine.execMoveDregEvenA0 x0 x1 s
  | .moveDregOddA1 x0 x1 x2 => Sys2Proof.Machine.execMoveDregOddA1 x0 x1 x2 s
  | .moveDregPairAcc x0 x1 x2 => Sys2Proof.Machine.execMoveDregPairAcc x0 x1 x2 s
  | .ifCcMove x0 x1 => Sys2Proof.Machine.execIfCcMove x0 x1 s
  | .ifNccMove x0 x1 => Sys2Proof.Machine.execIfNccMove x0 x1 s
  | .moveHalfZ x0 x1 => Sys2Proof.Machine.execMoveHalfZ x0 x1 s
  | .moveHalfX x0 x1 => Sys2Proof.Machine.execMoveHalfX x0 x1 s
  | .moveAccXDregLo x0 x1 => Sys2Proof.Machine.execMoveAccXDregLo x0 x1 s
  | .moveDregLoAccX x0 x1 => Sys2Proof.Machine.execMoveDregLoAccX x0 x1 s
  | .moveAccLDregLo x0 x1 => Sys2Proof.Machine.execMoveAccLDregLo x0 x1 s
  | .moveAccHDregHi x0 x1 => Sys2Proof.Machine.execMoveAccHDregHi x0 x1 s
  | .moveDregLoA0 x0 x1 => Sys2Proof.Machine.execMoveDregLoA0 x0 x1 s
  | .moveDregHiA1 x0 x1 x2 => Sys2Proof.Machine.execMoveDregHiA1 x0 x1 x2 s
  | .moveDregHalvesAcc x0 x1 x2 => Sys2Proof.Machine.execMoveDregHalvesAcc x0 x1 x2 s
  | .moveByteZ x0 x1 => Sys2Proof.Machine.execMoveByteZ x0 x1 s
  | .moveByteX x0 x1 => Sys2Proof.Machine.execMoveByteX x0 x1 s
  | .loadImm7D x0 x1 => Sys2Proof.Machine.execLoadImm7D x0 x1 s
  | .loadImm7P x0 x1 => Sys2Proof.Machine.execLoadImm7P x0 x1 s
  | .loadImm16X x0 x1 => Sys2Proof.Machine.execLoadImm16X x0 x1 s
  | .loadImm16Z x0 x1 => Sys2Proof.Machine.execLoadImm16Z x0 x1 s
  | .loadImm16Lo x0 x1 => Sys2Proof.Machine.execLoadImm16Lo x0 x1 s
  | .loadImm16Hi x0 x1 => Sys2Proof.Machine.execLoadImm16Hi x0 x1 s
  | .clearA0 => Sys2Proof.Machine.execClearA0 s
  | .clearA1 => Sys2Proof.Machine.execClearA1 s
  | .clearA1A0 => Sys2Proof.Machine.execClearA1A0 s
  | .ccFromDreg x0 => Sys2Proof.Machine.execCcFromDreg x0 s
  | .dregFromCc x0 => Sys2Proof.Machine.execDregFromCc x0 s
  | .ccFlagSet x0 => Sys2Proof.Machine.execCcFlagSet x0 s
  | .ccFlagOr x0 => Sys2Proof.Machine.execCcFlagOr x0 s
  | .ccFlagAnd x0 => Sys2Proof.Machine.execCcFlagAnd x0 s
  | .ccFlagXor x0 => Sys2Proof.Machine.execCcFlagXor x0 s
  | .flagCcSet x0 => Sys2Proof.Machine.execFlagCcSet x0 s
  | .flagCcOr x0 => Sys2Proof.Machine.execFlagCcOr x0 s
  | .flagCcAnd x0 => Sys2Proof.Machine.execFlagCcAnd x0 s
  | .flagCcXor x0 => Sys2Proof.Machine.execFlagCcXor x0 s
  | .ccNot => Sys2Proof.Machine.execCcNot s
  | .addPreg x0 x1 x2 => Sys2Proof.Machine.execAddPreg x0 x1 x2 s
  | .addPregTo x0 x1 => Sys2Proof.Machine.execAddPregTo x0 x1 s
  | .subPregFrom x0 x1 => Sys2Proof.Machine.execSubPregFrom x0 x1 s
  | .addPregImm7 x0 x1 => Sys2Proof.Machine.execAddPregImm7 x0 x1 s
  | .addDreg x0 x1 x2 => Sys2Proof.Machine.execAddDreg x0 x1 x2 s
  | .addDregOpt x0 x1 x2 x3 => Sys2Proof.Machine.execAddDregOpt x0 x1 x2 x3 s
  | .subDreg x0 x1 x2 => Sys2Proof.Machine.execSubDreg x0 x1 x2 s
  | .subDregOpt x0 x1 x2 x3 => Sys2Proof.Machine.execSubDregOpt x0 x1 x2 x3 s
  | .addSubDreg x0 x1 x2 x3 x4 => Sys2Proof.Machine.execAddSubDreg x0 x1 x2 x3 x4 s
  | .addDregImm7 x0 x1 => Sys2Proof.Machine.execAddDregImm7 x0 x1 s
  | .negDreg x0 x1 => Sys2Proof.Machine.execNegDreg x0 x1 s
  | .negDregOpt x0 x1 x2 => Sys2Proof.Machine.execNegDregOpt x0 x1 x2 s
  | .accSumDiff x0 x1 x2 x3 => Sys2Proof.Machine.execAccSumDiff x0 x1 x2 x3 s
  | .addHalf x0 x1 x2 x3 x4 x5 x6 => Sys2Proof.Machine.execAddHalf x0 x1 x2 x3 x4 x5 x6 s
  | .subHalf x0 x1 x2 x3 x4 x5 x6 => Sys2Proof.Machine.execSubHalf x0 x1 x2 x3 x4 x5 x6 s
  | .vecAddAdd x0 x1 x2 x3 x4 => Sys2Proof.Machine.execVecAddAdd x0 x1 x2 x3 x4 s
  | .vecAddSub x0 x1 x2 x3 x4 => Sys2Proof.Machine.execVecAddSub x0 x1 x2 x3 x4 s
  | .vecSubAdd x0 x1 x2 x3 x4 => Sys2Proof.Machine.execVecSubAdd x0 x1 x2 x3 x4 s
  | .vecSubSub x0 x1 x2 x3 x4 => Sys2Proof.Machine.execVecSubSub x0 x1 x2 x3 x4 s
  | .quadAddSub x0 x1 x2 x3 x4 x5 x6 => Sys2Proof.Machine.execQuadAddSub x0 x1 x2 x3 x4 x5 x6 s
  | .quadAddSubCross x0 x1 x2 x3 x4 x5 x6 => Sys2Proof.Machine.execQuadAddSubCross x0 x1 x2 x3 x4 x5 x6 s
  | .accAdd x0 => Sys2Proof.Machine.execAccAdd x0 s
  | .accSub x0 => Sys2Proof.Machine.execAccSub x0 s
  | .dregAccAdd x0 => Sys2Proof.Machine.execDregAccAdd x0 s
  | .dregHalfAccAdd x0 x1 => Sys2Proof.Machine.execDregHalfAccAdd x0 x1 s
  | .negAcc x0 x1 => Sys2Proof.Machine.execNegAcc x0 x1 s
  | .negAccBoth => Sys2Proof.Machine.execNegAccBoth s
  | .absAcc x0 x1 => Sys2Proof.Machine.execAbsAcc x0 x1 s
  | .absAccBoth => Sys2Proof.Machine.execAbsAccBoth s
  | .satAcc x0 => Sys2Proof.Machine.execSatAcc x0 s
  | .satAccBoth => Sys2Proof.Machine.execSatAccBoth s
  | .divs x0 x1 => Sys2Proof.Machine.execDivs x0 x1 s
  | .divq x0 x1 => Sys2Proof.Machine.execDivq x0 x1 s
  | .maxDreg x0 x1 x2 => Sys2Proof.Machine.execMaxDreg x0 x1 x2 s
  | .maxVec x0 x1 x2 => Sys2Proof.Machine.execMaxVec x0 x1 x2 s
  | .minDreg x0 x1 x2 => Sys2Proof.Machine.execMinDreg x0 x1 x2 s
  | .minVec x0 x1 x2 => Sys2Proof.Machine.execMinVec x0 x1 x2 s
  | .absDreg x0 x1 => Sys2Proof.Machine.execAbsDreg x0 x1 s
  | .absVec x0 x1 => Sys2Proof.Machine.execAbsVec x0 x1 s
  | .roundHalf x0 x1 x2 => Sys2Proof.Machine.execRoundHalf x0 x1 x2 s
  | .addRnd12 x0 x1 x2 x3 => Sys2Proof.Machine.execAddRnd12 x0 x1 x2 x3 s
  | .subRnd12 x0 x1 x2 x3 => Sys2Proof.Machine.execSubRnd12 x0 x1 x2 x3 s
  | .addRnd20 x0 x1 x2 x3 => Sys2Proof.Machine.execAddRnd20 x0 x1 x2 x3 s
  | .subRnd20 x0 x1 x2 x3 => Sys2Proof.Machine.execSubRnd20 x0 x1 x2 x3 s
  | .signbitsDreg x0 x1 => Sys2Proof.Machine.execSignbitsDreg x0 x1 s
  | .signbitsHalf x0 x1 x2 => Sys2Proof.Machine.execSignbitsHalf x0 x1 x2 s
  | .signbitsAcc x0 x1 => Sys2Proof.Machine.execSignbitsAcc x0 x1 s
  | .expadjVec x0 x1 x2 => Sys2Proof.Machine.execExpadjVec x0 x1 x2 s
  | .expadj x0 x1 x2 x3 => Sys2Proof.Machine.execExpadj x0 x1 x2 x3 s
  | .andDreg x0 x1 x2 => Sys2Proof.Machine.execAndDreg x0 x1 x2 s
  | .notDreg x0 x1 => Sys2Proof.Machine.execNotDreg x0 x1 s
  | .orDreg x0 x1 x2 => Sys2Proof.Machine.execOrDreg x0 x1 x2 s
  | .xorDreg x0 x1 x2 => Sys2Proof.Machine.execXorDreg x0 x1 x2 s
  | .cmpEqDreg x0 x1 => Sys2Proof.Machine.execCmpEqDreg x0 x1 s
  | .cmpLtDreg x0 x1 => Sys2Proof.Machine.execCmpLtDreg x0 x1 s
  | .cmpLeDreg x0 x1 => Sys2Proof.Machine.execCmpLeDreg x0 x1 s
  | .cmpLtuDreg x0 x1 => Sys2Proof.Machine.execCmpLtuDreg x0 x1 s
  | .cmpLeuDreg x0 x1 => Sys2Proof.Machine.execCmpLeuDreg x0 x1 s
  | .cmpPreg x0 x1 x2 => Sys2Proof.Machine.execCmpPreg x0 x1 x2 s
  | .addShift1Dreg x0 x1 => Sys2Proof.Machine.execAddShift1Dreg x0 x1 s
  | .addShift2Dreg x0 x1 => Sys2Proof.Machine.execAddShift2Dreg x0 x1 s
  | .addShift1Preg x0 x1 => Sys2Proof.Machine.execAddShift1Preg x0 x1 s
  | .addShift2Preg x0 x1 => Sys2Proof.Machine.execAddShift2Preg x0 x1 s
  | .addShifted1Preg x0 x1 x2 => Sys2Proof.Machine.execAddShifted1Preg x0 x1 x2 s
  | .addShifted2Preg x0 x1 x2 => Sys2Proof.Machine.execAddShifted2Preg x0 x1 x2 s
  | .shl1Preg x0 x1 => Sys2Proof.Machine.execShl1Preg x0 x1 s
  | .shl2Preg x0 x1 => Sys2Proof.Machine.execShl2Preg x0 x1 s
  | .shr2Preg x0 x1 => Sys2Proof.Machine.execShr2Preg x0 x1 s
  | .shr1Preg x0 x1 => Sys2Proof.Machine.execShr1Preg x0 x1 s
  | .mulLo x0 x1 x2 => Sys2Proof.Machine.execMulLo x0 x1 x2 s
  | .mulHi x0 x1 x2 x3 => Sys2Proof.Machine.execMulHi x0 x1 x2 x3 s
  | .mulEven x0 x1 x2 => Sys2Proof.Machine.execMulEven x0 x1 x2 s
  | .mulOdd x0 x1 x2 x3 => Sys2Proof.Machine.execMulOdd x0 x1 x2 x3 s
  | .mulDual x0 x1 x2 x3 x4 x5 x6 x7 => Sys2Proof.Machine.execMulDual x0 x1 x2 x3 x4 x5 x6 x7 s
  | .macA0Set x0 x1 => Sys2Proof.Machine.execMacA0Set x0 x1 s
  | .macA1Set x0 x1 x2 => Sys2Proof.Machine.execMacA1Set x0 x1 x2 s
  | .macA0SetLo x0 x1 x2 => Sys2Proof.Machine.execMacA0SetLo x0 x1 x2 s
  | .macA1SetHi x0 x1 x2 x3 => Sys2Proof.Machine.execMacA1SetHi x0 x1 x2 x3 s
  | .macA0SetEven x0 x1 x2 => Sys2Proof.Machine.execMacA0SetEven x0 x1 x2 s
  | .macA1SetOdd x0 x1 x2 x3 => Sys2Proof.Machine.execMacA1SetOdd x0 x1 x2 x3 s
  | .macA0Add x0 x1 => Sys2Proof.Machine.execMacA0Add x0 x1 s
  | .macA1Add x0 x1 x2 => Sys2Proof.Machine.execMacA1Add x0 x1 x2 s
  | .macA0AddLo x0 x1 x2 => Sys2Proof.Machine.execMacA0AddLo x0 x1 x2 s
  | .macA1AddHi x0 x1 x2 x3 => Sys2Proof.Machine.execMacA1AddHi x0 x1 x2 x3 s
  | .macA0AddEven x0 x1 x2 => Sys2Proof.Machine.execMacA0AddEven x0 x1 x2 s
  | .macA1AddOdd x0 x1 x2 x3 => Sys2Proof.Machine.execMacA1AddOdd x0 x1 x2 x3 s
  | .macA0Sub x0 x1 => Sys2Proof.Machine.execMacA0Sub x0 x1 s
  | .macA1Sub x0 x1 x2 => Sys2Proof.Machine.execMacA1Sub x0 x1 x2 s
  | .macA0SubLo x0 x1 x2 => Sys2Proof.Machine.execMacA0SubLo x0 x1 x2 s
  | .macA1SubHi x0 x1 x2 x3 => Sys2Proof.Machine.execMacA1SubHi x0 x1 x2 x3 s
  | .macA0SubEven x0 x1 x2 => Sys2Proof.Machine.execMacA0SubEven x0 x1 x2 s
  | .macA1SubOdd x0 x1 x2 x3 => Sys2Proof.Machine.execMacA1SubOdd x0 x1 x2 x3 s
  | .macDual x0 x1 x2 x3 x4 x5 x6 x7 => Sys2Proof.Machine.execMacDual x0 x1 x2 x3 x4 x5 x6 x7 s
  | .mulDreg x0 x1 => Sys2Proof.Machine.execMulDreg x0 x1 s
  | .bitclr x0 x1 => Sys2Proof.Machine.execBitclr x0 x1 s
  | .bitset x0 x1 => Sys2Proof.Machine.execBitset x0 x1 s
  | .bittgl x0 x1 => Sys2Proof.Machine.execBittgl x0 x1 s
  | .ccBittst x0 x1 => Sys2Proof.Machine.execCcBittst x0 x1 s
  | .ccNotBittst x0 x1 => Sys2Proof.Machine.execCcNotBittst x0 x1 s
  | .asrImmTo x0 x1 => Sys2Proof.Machine.execAsrImmTo x0 x1 s
  | .lsrImmTo x0 x1 => Sys2Proof.Machine.execLsrImmTo x0 x1 s
  | .lslImmTo x0 x1 => Sys2Proof.Machine.execLslImmTo x0 x1 s
  | .deposit x0 x1 x2 x3 => Sys2Proof.Machine.execDeposit x0 x1 x2 x3 s
  | .extract x0 x1 x2 x3 => Sys2Proof.Machine.execExtract x0 x1 x2 x3 s
  | .bitmux x0 x1 x2 => Sys2Proof.Machine.execBitmux x0 x1 x2 s
  | .ones x0 x1 => Sys2Proof.Machine.execOnes x0 x1 s
  | .pack x0 x1 x2 x3 x4 => Sys2Proof.Machine.execPack x0 x1 x2 x3 x4 s
  | .asrImm x0 x1 x2 => Sys2Proof.Machine.execAsrImm x0 x1 x2 s
  | .lsrImm x0 x1 x2 => Sys2Proof.Machine.execLsrImm x0 x1 x2 s
  | .lslImm x0 x1 x2 => Sys2Proof.Machine.execLslImm x0 x1 x2 s
  | .lslImmSat x0 x1 x2 => Sys2Proof.Machine.execLslImmSat x0 x1 x2 s
  | .asrImmVec x0 x1 x2 => Sys2Proof.Machine.execAsrImmVec x0 x1 x2 s
  | .lsrImmVec x0 x1 x2 => Sys2Proof.Machine.execLsrImmVec x0 x1 x2 s
  | .lslImmVec x0 x1 x2 => Sys2Proof.Machine.execLslImmVec x0 x1 x2 s
  | .lslImmVecSat x0 x1 x2 => Sys2Proof.Machine.execLslImmVecSat x0 x1 x2 s
  | .asrImmHalf x0 x1 x2 x3 x4 => Sys2Proof.Machine.execAsrImmHalf x0 x1 x2 x3 x4 s
  | .lsrImmHalf x0 x1 x2 x3 x4 => Sys2Proof.Machine.execLsrImmHalf x0 x1 x2 x3 x4 s
  | .lslImmHalf x0 x1 x2 x3 x4 => Sys2Proof.Machine.execLslImmHalf x0 x1 x2 x3 x4 s
  | .lslImmHalfSat x0 x1 x2 x3 x4 => Sys2Proof.Machine.execLslImmHalfSat x0 x1 x2 x3 x4 s
  | .asrDregTo x0 x1 => Sys2Proof.Machine.execAsrDregTo x0 x1 s
  | .lsrDregTo x0 x1 => Sys2Proof.Machine.execLsrDregTo x0 x1 s
  | .lslDregTo x0 x1 => Sys2Proof.Machine.execLslDregTo x0 x1 s
  | .ashift x0 x1 x2 => Sys2Proof.Machine.execAshift x0 x1 x2 s
  | .ashiftSat x0 x1 x2 => Sys2Proof.Machine.execAshiftSat x0 x1 x2 s
  | .lshift x0 x1 x2 => Sys2Proof.Machine.execLshift x0 x1 x2 s
  | .ashiftVec x0 x1 x2 => Sys2Proof.Machine.execAshiftVec x0 x1 x2 s
  | .ashiftVecSat x0 x1 x2 => Sys2Proof.Machine.execAshiftVecSat x0 x1 x2 s
  | .lshiftVec x0 x1 x2 => Sys2Proof.Machine.execLshiftVec x0 x1 x2 s
  | .ashiftHalf x0 x1 x2 x3 x4 => Sys2Proof.Machine.execAshiftHalf x0 x1 x2 x3 x4 s
  | .ashiftHalfSat x0 x1 x2 x3 x4 => Sys2Proof.Machine.execAshiftHalfSat x0 x1 x2 x3 x4 s
  | .lshiftHalf x0 x1 x2 x3 x4 => Sys2Proof.Machine.execLshiftHalf x0 x1 x2 x3 x4 s
  | .rotImm x0 x1 x2 => Sys2Proof.Machine.execRotImm x0 x1 x2 s
  | .rotDreg x0 x1 x2 => Sys2Proof.Machine.execRotDreg x0 x1 x2 s
  | .rotAccImm x0 x1 => Sys2Proof.Machine.execRotAccImm x0 x1 s
  | .rotAcc x0 x1 => Sys2Proof.Machine.execRotAcc x0 x1 s
  | .asrAccImm x0 x1 => Sys2Proof.Machine.execAsrAccImm x0 x1 s
  | .lsrAccImm x0 x1 => Sys2Proof.Machine.execLsrAccImm x0 x1 s
  | .lslAccImm x0 x1 => Sys2Proof.Machine.execLslAccImm x0 x1 s
  | .ashiftAcc x0 x1 => Sys2Proof.Machine.execAshiftAcc x0 x1 s
  | .bxorShift x0 x1 x2 x3 x4 => Sys2Proof.Machine.execBxorShift x0 x1 x2 x3 x4 s
  | .bxorAcc x0 x1 x2 x3 x4 => Sys2Proof.Machine.execBxorAcc x0 x1 x2 x3 x4 s
  | .saa x0 x1 x2 x3 x4 x5 x6 => Sys2Proof.Machine.execSaa x0 x1 x2 x3 x4 x5 x6 s
  | .byteop1p x0 x1 x2 x3 x4 x5 x6 x7 => Sys2Proof.Machine.execByteop1p x0 x1 x2 x3 x4 x5 x6 x7 s
  | .byteop16 x0 x1 x2 x3 x4 x5 x6 x7 => Sys2Proof.Machine.execByteop16 x0 x1 x2 x3 x4 x5 x6 x7 s
  | .byteop2p x0 x1 x2 x3 x4 x5 x6 x7 => Sys2Proof.Machine.execByteop2p x0 x1 x2 x3 x4 x5 x6 x7 s
  | .byteop3p x0 x1 x2 x3 x4 x5 x6 x7 => Sys2Proof.Machine.execByteop3p x0 x1 x2 x3 x4 x5 x6 x7 s
  | .bytepack x0 x1 x2 x3 x4 x5 x6 x7 => Sys2Proof.Machine.execBytepack x0 x1 x2 x3 x4 x5 x6 x7 s
  | .jumpShort x0 => Sys2Proof.Machine.execJumpShort x0 s
  | .jumpLong x0 => Sys2Proof.Machine.execJumpLong x0 s
  | .jumpAny x0 => Sys2Proof.Machine.execJumpAny x0 s
  | .jumpPreg x0 => Sys2Proof.Machine.execJumpPreg x0 s
  | .jumpPcPreg x0 => Sys2Proof.Machine.execJumpPcPreg x0 s
  | .callOff x0 => Sys2Proof.Machine.execCallOff x0 s
  | .callPreg x0 => Sys2Proof.Machine.execCallPreg x0 s
  | .callPcPreg x0 => Sys2Proof.Machine.execCallPcPreg x0 s
  | .rts => Sys2Proof.Machine.execRts s
  | .rti => Sys2Proof.Machine.execRti s
  | .rtx => Sys2Proof.Machine.execRtx s
  | .rtn => Sys2Proof.Machine.execRtn s
  | .rte => Sys2Proof.Machine.execRte s
  | .brcc x0 => Sys2Proof.Machine.execBrcc x0 s
  | .brncc x0 => Sys2Proof.Machine.execBrncc x0 s
  | .brccBp x0 => Sys2Proof.Machine.execBrccBp x0 s
  | .brnccBp x0 => Sys2Proof.Machine.execBrnccBp x0 s
  | .lsetupPreg x0 x1 x2 x3 => Sys2Proof.Machine.execLsetupPreg x0 x1 x2 x3 s
  | .lsetup x0 x1 x2 => Sys2Proof.Machine.execLsetup x0 x1 x2 s
  | .lsetupPregHalf x0 x1 x2 x3 => Sys2Proof.Machine.execLsetupPregHalf x0 x1 x2 x3 s
  | .disalgnexcpt => Sys2Proof.Machine.execDisalgnexcpt s
  | .loadP x0 x1 x2 => Sys2Proof.Machine.execLoadP x0 x1 x2 s
  | .loadD x0 x1 x2 => Sys2Proof.Machine.execLoadD x0 x1 x2 s
  | .loadWZ x0 x1 x2 => Sys2Proof.Machine.execLoadWZ x0 x1 x2 s
  | .loadWX x0 x1 x2 => Sys2Proof.Machine.execLoadWX x0 x1 x2 s
  | .loadBZ x0 x1 x2 => Sys2Proof.Machine.execLoadBZ x0 x1 x2 s
  | .loadBX x0 x1 x2 => Sys2Proof.Machine.execLoadBX x0 x1 x2 s
  | .storeP x0 x1 x2 => Sys2Proof.Machine.execStoreP x0 x1 x2 s
  | .storeD x0 x1 x2 => Sys2Proof.Machine.execStoreD x0 x1 x2 s
  | .storeW x0 x1 x2 => Sys2Proof.Machine.execStoreW x0 x1 x2 s
  | .storeB x0 x1 x2 => Sys2Proof.Machine.execStoreB x0 x1 x2 s
  | .loadDOff x0 x1 x2 => Sys2Proof.Machine.execLoadDOff x0 x1 x2 s
  | .loadWZOff x0 x1 x2 => Sys2Proof.Machine.execLoadWZOff x0 x1 x2 s
  | .loadWXOff x0 x1 x2 => Sys2Proof.Machine.execLoadWXOff x0 x1 x2 s
  | .loadPOff x0 x1 x2 => Sys2Proof.Machine.execLoadPOff x0 x1 x2 s
  | .storeDOff x0 x1 x2 => Sys2Proof.Machine.execStoreDOff x0 x1 x2 s
  | .storeWOff x0 x1 x2 => Sys2Proof.Machine.execStoreWOff x0 x1 x2 s
  | .storePOff x0 x1 x2 => Sys2Proof.Machine.execStorePOff x0 x1 x2 s
  | .loadFp x0 x1 => Sys2Proof.Machine.execLoadFp x0 x1 s
  | .storeFp x0 x1 => Sys2Proof.Machine.execStoreFp x0 x1 s
  | .loadDLong x0 x1 x2 => Sys2Proof.Machine.execLoadDLong x0 x1 x2 s
  | .loadPLong x0 x1 x2 => Sys2Proof.Machine.execLoadPLong x0 x1 x2 s
  | .loadWZLong x0 x1 x2 => Sys2Proof.Machine.execLoadWZLong x0 x1 x2 s
  | .loadWXLong x0 x1 x2 => Sys2Proof.Machine.execLoadWXLong x0 x1 x2 s
  | .loadBZLong x0 x1 x2 => Sys2Proof.Machine.execLoadBZLong x0 x1 x2 s
  | .loadBXLong x0 x1 x2 => Sys2Proof.Machine.execLoadBXLong x0 x1 x2 s
  | .storeDLong x0 x1 x2 => Sys2Proof.Machine.execStoreDLong x0 x1 x2 s
  | .storePLong x0 x1 x2 => Sys2Proof.Machine.execStorePLong x0 x1 x2 s
  | .storeWLong x0 x1 x2 => Sys2Proof.Machine.execStoreWLong x0 x1 x2 s
  | .storeBLong x0 x1 x2 => Sys2Proof.Machine.execStoreBLong x0 x1 x2 s
  | .loadDIdx x0 x1 x2 => Sys2Proof.Machine.execLoadDIdx x0 x1 x2 s
  | .loadLoIdx x0 x1 x2 => Sys2Proof.Machine.execLoadLoIdx x0 x1 x2 s
  | .loadHiIdx x0 x1 x2 => Sys2Proof.Machine.execLoadHiIdx x0 x1 x2 s
  | .loadWZIdx x0 x1 x2 => Sys2Proof.Machine.execLoadWZIdx x0 x1 x2 s
  | .loadWXIdx x0 x1 x2 => Sys2Proof.Machine.execLoadWXIdx x0 x1 x2 s
  | .storeDIdx x0 x1 x2 => Sys2Proof.Machine.execStoreDIdx x0 x1 x2 s
  | .storeLoIdx x0 x1 x2 => Sys2Proof.Machine.execStoreLoIdx x0 x1 x2 s
  | .storeHiIdx x0 x1 x2 => Sys2Proof.Machine.execStoreHiIdx x0 x1 x2 s
  | .loadDI x0 x1 x2 => Sys2Proof.Machine.execLoadDI x0 x1 x2 s
  | .loadLoI x0 x1 x2 => Sys2Proof.Machine.execLoadLoI x0 x1 x2 s
  | .loadHiI x0 x1 x2 => Sys2Proof.Machine.execLoadHiI x0 x1 x2 s
  | .storeDI x0 x1 x2 => Sys2Proof.Machine.execStoreDI x0 x1 x2 s
  | .storeLoI x0 x1 x2 => Sys2Proof.Machine.execStoreLoI x0 x1 x2 s
  | .storeHiI x0 x1 x2 => Sys2Proof.Machine.execStoreHiI x0 x1 x2 s
  | .loadDIM x0 x1 x2 => Sys2Proof.Machine.execLoadDIM x0 x1 x2 s
  | .storeDIM x0 x1 x2 => Sys2Proof.Machine.execStoreDIM x0 x1 x2 s
  | .addIM x0 x1 => Sys2Proof.Machine.execAddIM x0 x1 s
  | .subIM x0 x1 => Sys2Proof.Machine.execSubIM x0 x1 s
  | .addIMBrev x0 x1 => Sys2Proof.Machine.execAddIMBrev x0 x1 s
  | .addPregBrev x0 x1 => Sys2Proof.Machine.execAddPregBrev x0 x1 s
  | .addI2 x0 => Sys2Proof.Machine.execAddI2 x0 s
  | .subI2 x0 => Sys2Proof.Machine.execSubI2 x0 s
  | .addI4 x0 => Sys2Proof.Machine.execAddI4 x0 s
  | .subI4 x0 => Sys2Proof.Machine.execSubI4 x0 s
  | .nop => Sys2Proof.Machine.execNop s
  | .mnop => Sys2Proof.Machine.execMnop s
  | .cli x0 => Sys2Proof.Machine.execCli x0 s
  | .sti x0 => Sys2Proof.Machine.execSti x0 s
  | .raiseInt x0 => Sys2Proof.Machine.execRaiseInt x0 s
  | .excpt x0 => Sys2Proof.Machine.execExcpt x0 s
  | .emuexcpt => Sys2Proof.Machine.execEmuexcpt s
  | .idle => Sys2Proof.Machine.execIdle s
  | .csync => Sys2Proof.Machine.execCsync s
  | .ssync => Sys2Proof.Machine.execSsync s
  | .testset x0 => Sys2Proof.Machine.execTestset x0 s
  | .prefetch x0 x1 => Sys2Proof.Machine.execPrefetch x0 x1 s
  | .flush x0 x1 => Sys2Proof.Machine.execFlush x0 x1 s
  | .flushinv x0 x1 => Sys2Proof.Machine.execFlushinv x0 x1 s
  | .iflush x0 x1 => Sys2Proof.Machine.execIflush x0 x1 s
  | .pushReg x0 => Sys2Proof.Machine.execPushReg x0 s
  | .popReg x0 => Sys2Proof.Machine.execPopReg x0 s
  | .pushMulti x0 => Sys2Proof.Machine.execPushMulti x0 s
  | .popMulti x0 => Sys2Proof.Machine.execPopMulti x0 s
  | .link x0 => Sys2Proof.Machine.execLink x0 s
  | .unlink => Sys2Proof.Machine.execUnlink s

end Sys2Proof.Machine
end

