-- ==== Sys2Proof/Machine/Bundle.lean ====
section
/-!
DEFINITION. Multi-issue: the three parts of a bundle on the state before it (30_encoding.md R506).
-/

namespace Sys2Proof.Machine

/-! ## What a part writes -/

/-- Both halves of a data register. -/
def wholeD (d : DReg) : List (DReg × Half) := [(d, .lo), (d, .hi)]

/-- The data registers, half by half (R51), that a part of a bundle writes. -/
def dDests : Instr → List (DReg × Half)
  | .moveDregEvenA0 _ d | .moveHalfZ d _ | .moveHalfX d _ | .moveDregHalvesAcc _ _ d | .moveByteZ d _ | .moveByteX d _
  | .loadImm7D d _ | .dregFromCc d | .addDreg d _ _ | .addDregOpt _ d _ _ | .subDreg d _ _ | .subDregOpt _ d _ _
  | .addDregImm7 d _ | .negDreg d _ | .negDregOpt _ d _ | .vecAddAdd _ _ d _ _ | .vecAddSub _ _ d _ _
  | .vecSubAdd _ _ d _ _ | .vecSubSub _ _ d _ _ | .dregAccAdd d | .divs d _ | .divq d _ | .maxDreg d _ _
  | .maxVec d _ _ | .minDreg d _ _ | .minVec d _ _ | .absDreg d _ | .absVec d _ | .andDreg d _ _ | .notDreg d _
  | .orDreg d _ _ | .xorDreg d _ _ | .addShift1Dreg d _ | .addShift2Dreg d _ | .mulEven _ d _ | .macA0SetEven _ d _
  | .macA0AddEven _ d _ | .macA0SubEven _ d _ | .mulDreg d _ | .bitclr d _ | .bitset d _ | .bittgl d _ | .asrImmTo d _
  | .lsrImmTo d _ | .lslImmTo d _ | .deposit _ d _ _ | .extract _ d _ _ | .pack d _ _ _ _ | .asrImm d _ _
  | .lsrImm d _ _ | .lslImm d _ _ | .lslImmSat d _ _ | .asrImmVec d _ _ | .lsrImmVec d _ _ | .lslImmVec d _ _
  | .lslImmVecSat d _ _ | .asrDregTo d _ | .lsrDregTo d _ | .lslDregTo d _ | .ashift d _ _ | .ashiftSat d _ _
  | .lshift d _ _ | .ashiftVec d _ _ | .ashiftVecSat d _ _ | .lshiftVec d _ _ | .rotImm d _ _ | .rotDreg d _ _
  | .loadD _ d _ | .loadWZ _ d _ | .loadWX _ d _ | .loadBZ _ d _ | .loadBX _ d _ | .loadDOff d _ _ | .loadWZOff d _ _
  | .loadWXOff d _ _ | .loadDLong d _ _ | .loadWZLong d _ _ | .loadWXLong d _ _ | .loadBZLong d _ _
  | .loadBXLong d _ _ | .loadDIdx d _ _ | .loadWZIdx d _ _ | .loadWXIdx d _ _ | .loadDI _ d _ | .loadDIM d _ _ =>
    wholeD d
  | .moveDregLoAccX d _ | .moveDregLoA0 _ d | .signbitsDreg d _ | .signbitsHalf d _ _ | .signbitsAcc d _
  | .expadjVec d _ _ | .expadj _ d _ _ | .mulLo _ d _ | .macA0SetLo _ d _ | .macA0AddLo _ d _ | .macA0SubLo _ d _
  | .ones d _ | .loadLoIdx d _ _ | .loadLoI _ d _ => [(d, .lo)]
  | .moveDregHiA1 _ _ d | .mulHi _ _ d _ | .macA1SetHi _ _ d _ | .macA1AddHi _ _ d _ | .macA1SubHi _ _ d _
  | .loadHiIdx d _ _ | .loadHiI _ d _ => [(d, .hi)]
  | .addHalf _ h d _ _ _ _ | .subHalf _ h d _ _ _ _ | .dregHalfAccAdd h d | .roundHalf h d _ | .addRnd12 h d _ _
  | .subRnd12 h d _ _ | .addRnd20 h d _ _ | .subRnd20 h d _ _ | .asrImmHalf h d _ _ _ | .lsrImmHalf h d _ _ _
  | .lslImmHalf h d _ _ _ | .lslImmHalfSat h d _ _ _ | .ashiftHalf h d _ _ _ | .ashiftHalfSat h d _ _ _
  | .lshiftHalf h d _ _ _ => [(d, h)]
  | .moveDregOddA1 _ _ d | .mulOdd _ _ d _ | .macA1SetOdd _ _ d _ | .macA1AddOdd _ _ d _ | .macA1SubOdd _ _ d _ =>
    wholeD (DReg.pairHi d)
  | .moveDregPairAcc _ _ d => wholeD d ++ wholeD (DReg.pairHi d)
  | .addSubDreg _ dSum dDiff _ _ | .accSumDiff _ _ dSum dDiff | .quadAddSub _ _ _ dSum dDiff _ _ =>
    wholeD dSum ++ wholeD dDiff
  | .quadAddSubCross _ _ _ dFirst dSecond _ _ => wholeD dFirst ++ wholeD dSecond
  | .mulDual _ _ pair d _ _ _ _ => if pair then wholeD d ++ wholeD (DReg.pairHi d) else wholeD d
  | .macDual _ _ pair u1 u0 d _ _ =>
    (if u0.write then (if pair then wholeD d else [(d, .lo)]) else [])
      ++ (if u1.write then (if pair then wholeD (DReg.pairHi d) else [(d, .hi)]) else [])
  | .bitmux _ s t => wholeD s ++ wholeD t
  | .loadFp (.d d) _ => wholeD d
  | _ => []

/-- A pointer register that a post-modification writes. -/
def postDest (a : PostMod) (p : PReg) : List PReg := if a = .keep then [] else [p]

/-- The pointer registers that a part of a bundle writes. -/
def pDests : Instr → List PReg
  | .loadP a d p => d :: postDest a p
  | .loadD a _ p | .loadWZ a _ p | .loadWX a _ p | .loadBZ a _ p | .loadBX a _ p | .storeP a p _ | .storeD a p _
  | .storeW a p _ | .storeB a p _ => postDest a p
  | .loadPOff d _ _ | .loadFp (.p d) _ => [d]
  | .loadDIdx _ p _ | .loadWZIdx _ p _ | .loadWXIdx _ p _ | .storeDIdx p _ _ => [p]
  | .loadLoIdx _ p x | .loadHiIdx _ p x | .storeLoIdx p x _ | .storeHiIdx p x _ => if p = x then [] else [p]
  | _ => []

/-- The index registers that a part of a bundle writes. -/
def iDests : Instr → List DagN
  | .loadDI a _ i | .loadLoI a _ i | .loadHiI a _ i | .storeDI a i _ | .storeLoI a i _ | .storeHiI a i _ =>
    if a = .keep then [] else [i]
  | .loadDIM _ i _ | .storeDIM i _ _ | .addIM i _ | .subIM i _ | .addI2 i | .subI2 i | .addI4 i | .subI4 i => [i]
  | _ => []

/-- The number of registers of a push or pop multiple. -/
def multiCount (m : MultiRegs) : Nat := (multiList m).length

/-- The bytes that an instruction stores to: the first address and their number. -/
def storeRange (s : State) : Instr → Option (Nat × Nat)
  | .storeP _ p _ | .storeD _ p _ | .storeDIdx p _ _ => some ((s.p p).toNat, 4)
  | .storeW _ p _ | .storeLoIdx p _ _ | .storeHiIdx p _ _ => some ((s.p p).toNat, 2)
  | .storeB _ p _ => some ((s.p p).toNat, 1)
  | .storeDOff p o _ | .storePOff p o _ => some ((s.eaShort p o 4).toNat, 4)
  | .storeWOff p o _ => some ((s.eaShort p o 2).toNat, 2)
  | .storeFp o _ => some ((s.eaFp o).toNat, 4)
  | .storeDI _ i _ | .storeDIM i _ _ => some ((s.i i).toNat, 4)
  | .storeLoI _ i _ | .storeHiI _ i _ => some ((s.i i).toNat, 2)
  | .storeDLong p o _ | .storePLong p o _ => some ((s.eaLong p o 4).toNat, 4)
  | .storeWLong p o _ => some ((s.eaLong p o 2).toNat, 2)
  | .storeBLong p o _ => some ((s.eaLong p o 1).toNat, 1)
  | .pushReg _ => some ((s.p .sp - 4).toNat, 4)
  | .pushMulti m => some ((s.p .sp - BitVec.ofNat 32 (4 * multiCount m)).toNat, 4 * multiCount m)
  | .link _ => some ((s.p .sp - 8).toNat, 8)
  | .testset p => some ((s.p p).toNat, 1)
  | _ => none

/-- The bytes that an instruction with one load loads: the first address and their number. -/
def loadRange (s : State) : Instr → Option (Nat × Nat)
  | .loadP _ _ p | .loadD _ _ p | .loadDIdx _ p _ => some ((s.p p).toNat, 4)
  | .loadWZ _ _ p | .loadWX _ _ p | .loadLoIdx _ p _ | .loadHiIdx _ p _ | .loadWZIdx _ p _ | .loadWXIdx _ p _ =>
    some ((s.p p).toNat, 2)
  | .loadBZ _ _ p | .loadBX _ _ p => some ((s.p p).toNat, 1)
  | .loadDOff _ p o | .loadPOff _ p o => some ((s.eaShort p o 4).toNat, 4)
  | .loadWZOff _ p o | .loadWXOff _ p o => some ((s.eaShort p o 2).toNat, 2)
  | .loadDLong _ p o | .loadPLong _ p o => some ((s.eaLong p o 4).toNat, 4)
  | .loadWZLong _ p o | .loadWXLong _ p o => some ((s.eaLong p o 2).toNat, 2)
  | .loadBZLong _ p o | .loadBXLong _ p o => some ((s.eaLong p o 1).toNat, 1)
  | .loadFp _ o => some ((s.eaFp o).toNat, 4)
  | .loadDI _ _ i | .loadDIM _ i _ => some ((s.i i).toNat, 4)
  | .loadLoI _ _ i | .loadHiI _ _ i => some ((s.i i).toNat, 2)
  | .popReg _ => some ((s.p .sp).toNat, 4)
  | _ => none

/-- The loads of an instruction, in their order: the address and the size of each. -/
def loadsOf (s : State) : Instr → List (Nat × Nat)
  | .popMulti m => (List.range (multiCount m)).map fun k => ((s.p .sp + BitVec.ofNat 32 (4 * k)).toNat, 4)
  | .unlink => [((s.p .fp).toNat, 4), ((s.p .fp + 4).toNat, 4)]
  | i => (loadRange s i).toList

/-- Two lists have an element in common. -/
def overlap {α : Type} [BEq α] (xs ys : List α) : Bool := xs.any fun x => ys.contains x

/-- Two parts write one register (R506 (h)): the result is undefined. -/
def writesTwice (i0 i1 i2 : Instr) : Bool :=
  overlap (dDests i0) (dDests i1) || overlap (dDests i0) (dDests i2) || overlap (dDests i1) (dDests i2)
    || overlap (iDests i1) (iDests i2)

/-! ## The bundle -/

/-- Core `c` with the data, pointer and index registers, the accumulators and the flags of `r`. -/
def Core.withRegs (c r : Core) : Core :=
  { c with r := r.r, p := r.p, i := r.i, a0 := r.a0, a1 := r.a1, astat := r.astat }

/-- The halves `rs` of data registers take their values in `f`. -/
def takeD (f : DRegs) (rs : List (DReg × Half)) (g : DRegs) : DRegs :=
  rs.foldl (fun g r => g.set r.1 (withHalf r.2 (g.get r.1) (half r.2 (f.get r.1)))) g

/-- The registers `rs` take their values in `f`. -/
def takeP (user : Bool) (f : PRegs) (rs : List PReg) (g : PRegs) : PRegs :=
  rs.foldl (fun g r => g.set user r (f.get user r)) g

/-- The registers `rs` take their values in `f`. -/
def takeI (f : Dag4) (rs : List DagN) (g : Dag4) : Dag4 := rs.foldl (fun g r => g.set r (f.get r)) g

/-- One part of a bundle, issued in slot `k` on the register state of `s0`. An error exception ends the bundle: nothing
of it is committed (R506 (a), R936), what the data watchpoints counted and noted of slot 1's access with it (DESIGN CHOICE,
log entry 92), but a watchpoint exception that the bundle matched ranks above it (R1722); a part that must wait makes the
bundle wait. -/
def part (k : Slot) (i : Instr) (s0 s : State) (f : State → Outcome) : Outcome :=
  match exec i { s with cur := s.cur.withRegs s0.cur, issue := { s.issue with slot := k } } with
  | .next t =>
    if t.issue.stalled then .next t
    else
      match t.issue.raised with
      | some e =>
        if t.issue.hit.isSome && t.issue.watch then .next t else .next ((s0.keepBus t).takeException e s0.cur.pc)
      | none => f t
  | .fault x => .fault x
  | .refused r => .refused r

/-- The bundle `i0 || i1 || i2` (R506): every part reads the registers before it, the writes land together, the memory
access of slot 1 comes first, the length is 8. -/
def execBundle (i0 i1 i2 : Instr) (s : State) : Outcome :=
  if writesTwice i0 i1 i2 then .refused .bundleDoubleWrite
  else
    let clash := (storeRange s i1).or (storeRange s i2)
    part .slot0 i0 s { s with issue := { s.issue with clash := clash } } fun t0 =>
      part .slot1 i1 s t0 fun t1 =>
        part .slot2 i2 s t1 fun t2 =>
          let c := t2.cur.withRegs t0.cur
          let c := { c with
            r := takeD t2.cur.r (dDests i2) (takeD t1.cur.r (dDests i1) c.r)
            p := takeP s.user t2.cur.p (pDests i2) (takeP s.user t1.cur.p (pDests i1) c.p)
            i := takeI t2.cur.i (iDests i2) (takeI t1.cur.i (iDests i1) c.i) }
          .next (State.finish { t2 with cur := c, issue := { t2.issue with slot := .single, noAlign := false, clash := none } } 8)

end Sys2Proof.Machine
end

