-- ==== Sys2Proof/Machine/CoreStep.lean ====
section
/-!
DEFINITION. One step of the core that is to move (30_encoding.md R508, 60_exceptions.md R1760): an event is entered, or
the core leaves Idle, or one instruction is fetched, decoded and executed.
-/

namespace Sys2Proof.Machine

noncomputable section

/-! ## Fetch and decode (R321, R500) -/

/-- The units of the instruction at the pc; those that the instruction does not have read 0. -/
def State.fetchUnits (s : State) : Res (Nat × Nat × Nat × Nat) :=
  let pc := s.cur.pc
  (s.fetchHalf pc).bind fun u0 s =>
    if unitLen u0 = 2 then .ok (u0, 0, 0, 0) s
    else
      (s.fetchHalf (pc + 2)).bind fun u1 s =>
        if unitLen u0 = 4 then .ok (u0, u1, 0, 0) s
        else
          (s.fetchHalf (pc + 4)).bind fun u2 s =>
            (s.fetchHalf (pc + 6)).bind fun u3 s => .ok (u0, u1, u2, u3) s

/-- The instruction at the pc. -/
def State.fetch (s : State) : Res Decoded :=
  s.fetchUnits.bind fun u s => .ok (decodeUnits u.1 u.2.1 u.2.2.1 u.2.2.2) s

/-- What a decoded word does (R505, R506). -/
def runDecoded (d : Decoded) (s : State) : Outcome :=
  match d with
  | .single i _ => exec i s
  | .bundle i0 i1 i2 => execBundle i0 i1 i2 s
  | .undefined => raise .undefinedInstruction s
  | .illegal => raise .illegalCombination s
  | .notDefined => .refused .notDefined

/-! ## Instruction watchpoints (R1853 to R1858) -/

/-- Instruction watchpoint `2 * k + j` matches the address; index 0 of a pair stands for its range. -/
def WatchUnit.instHit (w : WatchUnit) (k j : Nat) (ia : Nat) : Bool :=
  let wa (n : Nat) : Nat := (w.ia.toList.getD n 0).toNat
  if w.iactl.getLsbD (1 + 8 * k) then
    j == 0 && (decide (wa (2 * k) < ia ∧ ia ≤ wa (2 * k + 1)) != w.iactl.getLsbD (2 + 8 * k))
  else w.iactl.getLsbD (3 + 8 * k + j) && wa (2 * k + j) == ia

/-- WPAND: an event needs an instruction and a data watchpoint (R1858). -/
def WatchUnit.both (w : WatchUnit) : Bool := w.iactl.getLsbD 25

/-- One match of instruction watchpoint `2 * k + j`: counted, or it triggers. A trigger sets its status bit; with
WPAND = 1 it waits for a data watchpoint (`hit`), else it asks for the exception (`watch`) or, with EMUSW = 1, for an
emulation event. -/
def State.instWatchOne (s : State) (k j : Nat) : State :=
  let w := s.cur.wp
  let n := 2 * k + j
  if w.instHit k j s.cur.pc.toNat then
    let cnt := w.iacnt.toList.getD n 0
    if w.iactl.getLsbD (5 + 8 * k + j) && cnt != 0 then
      s.setCur { s.cur with wp := { w with iacnt := vset w.iacnt n (cnt - 1) } }
    else
      let s := s.setCur { s.cur with wp := { w with stat := w.stat ||| BitVec.ofNat 8 (2 ^ n) } }
      let emu := w.iactl.getLsbD (7 + 8 * k + j)
      if w.both then { s with issue := { s.issue with hit := some (emu || s.issue.hit == some true) } }
      else if emu then { s with issue := { s.issue with emu := true } }
      else { s with issue := { s.issue with watch := true } }
  else s

/-- The watchpoint unit sees the instruction at the pc (R1855). -/
def State.instWatch (s : State) : State :=
  if s.cur.wp.iactl.getLsbD 0 then
    ([(0, 0), (0, 1), (1, 0), (1, 1), (2, 0), (2, 1)] : List (Nat × Nat)).foldl (fun s x => s.instWatchOne x.1 x.2) s
  else s

/-! ## Reads that no instruction completes (R343, R344) -/

/-- A read of the `n` bytes at `a` has side effects: UART_RBR, UART_IIR, UART_LSR, SPI_RDBR (R1259, R1434), TBUF (R1873),
or a device on the board (R1639). The other read-sensitive registers are not read so (R264; log entry 75). -/
def State.readSensitive (s : State) (a n : Nat) : Bool :=
  (n == 4 && a == 0xFFE06100 && !covered s.cur.stores a n)
    || (n == 2 && (a == 0xFFC00400 || a == 0xFFC00408 || a == 0xFFC00414 || a == 0xFFC00510) && !covered s.cur.stores a n)
    || (decide (a < 0x30000000) && (s.cur.dataPage (BitVec.ofNat 32 a)).isNone && !covered s.cur.stores a n
        && (match (s.extMap a).1 with | .device => true | _ => false))

/-- The loads of an instruction on a DAG that raise no exception. -/
def State.loadsBy (s : State) (dag1 : Bool) (i : Instr) : List (Nat × Nat) :=
  (loadsOf s i).filter fun x => (s.checkData dag1 (BitVec.ofNat 32 x.1) x.2 false).isNone

/-- The loads of what a word decodes to that raise no exception: DISALGNEXCPT acts on its bundle (R912). -/
def State.loads (s : State) (d : Decoded) : List (Nat × Nat) :=
  match d with
  | .single i _ => s.loadsBy false i
  | .bundle i0 i j =>
    let s := { s with issue := { s.issue with noAlign := s.issue.noAlign || decide (i0 = Instr.disalgnexcpt) } }
    s.loadsBy false i ++ s.loadsBy true j
  | .undefined | .illegal | .notDefined => []

/-- The read-sensitive locations that the instruction loads and may load. -/
def State.ghosts (s : State) (d : Decoded) : List (Nat × Nat) :=
  (s.loads d).filter fun x => s.readSensitive x.1 x.2

/-- A read of that location whose value nobody takes; one that the bus does not answer at once is not made. -/
def State.ghostRead (s : State) (x : Nat × Nat) : State :=
  if x.1 < 0x30000000 then
    match s.extRead (.load s.cur.id) x.1 x.2 with
    | .ok _ t => t
    | _ => s
  else if 0xFFE00000 ≤ x.1 then
    match coreMmrRead (x.1 - 0xFFE00000) s with
    | .ok _ t => t
    | _ => s
  else
    match sysMmrRead (x.1 - 0xFFC00000) x.2 s with
    | .ok _ t => t
    | _ => s

/-- Such reads may happen or not: it is free. -/
def State.ghostReads (s : State) (xs : List (Nat × Nat)) : State :=
  xs.foldl (fun s x => let (b, s) := s.drawBit; if b then s.ghostRead x else s) s

/-- The path of instructions ends here: an event was entered, the core waits, or it is idle. -/
def State.ended (s : State) : Bool := s.issue.event || s.issue.stalled || s.cur.idle

/-- An instruction past which nothing is read speculatively: CSYNC, SSYNC, IDLE (R343). -/
def isFence : Decoded → Bool
  | .single .csync _ | .single .ssync _ | .single .idle _ => true
  | _ => false

/-- Where the path goes on that the instruction at the pc does not take, if it is a conditional branch. -/
def State.otherPath (s : State) (d : Decoded) : Option Word :=
  let other (taken : Bool) (o : BitVec 10) : Option Word := some (if taken then s.cur.pc + 2 else s.relTarget o)
  match d with
  | .single (.brcc o) _ | .single (.brccBp o) _ => other s.cc o
  | .single (.brncc o) _ | .single (.brnccBp o) _ => other (!s.cc) o
  | _ => none

/-- The read-sensitive locations that a path loads which starts in `s`, within so many instructions; a conditional branch on
it, not resolved either, is followed both ways. The path ends where it meets a fence, an exception, a wait or a stop. -/
def pathGhosts : Nat → State → List (Nat × Nat)
  | 0, _ => []
  | k + 1, s =>
    match s.fetch with
    | .ok d s =>
      if isFence d then []
      else
        s.ghosts d ++
          (match s.otherPath d with
           | some pc => pathGhosts k (s.setPc pc)
           | none => []) ++
          (match runDecoded d s with
           | .next t => if t.ended then [] else pathGhosts k { t with issue := .idle }
           | _ => [])
    | _ => []

/-- Before a conditional branch is resolved the loads of the path that it does not take may have been issued (R343): the
core looks at most eight instructions ahead (DESIGN CHOICE, log entry 75). -/
def State.speculate (s : State) (d : Decoded) : State :=
  match s.otherPath d with
  | some pc => s.ghostReads (pathGhosts 8 (s.setPc pc))
  | none => s

/-- The load at the pc is cancelled by an interrupt: its read may have been made, and is made again later (R344). -/
def State.cancelLoad (s : State) : State :=
  match s.fetch with
  | .ok d _ => s.ghostReads (s.ghosts d)
  | _ => s

/-! ## Loads that are performed before older ones (R340) -/

/-- Two locations have a byte in common. -/
def touches (x y : Nat × Nat) : Bool := decide (x.1 < y.1 + y.2) && decide (y.1 < x.1 + x.2)

/-- A load of this location may be performed ahead of an older one: any but those of the registers that R264 lets be read
once only, SICA_SWRST, SPORTx_RX, SPORTx_CHNL and PPIx_STATUS (log entry 75). -/
def aheadOk (x : Nat × Nat) : Bool :=
  !([0xFFC00100, 0xFFC00818, 0xFFC00834, 0xFFC00918, 0xFFC00934, 0xFFC01004, 0xFFC01304].any fun a => touches x (a, 4))

/-- The state in which the loads `xs` of the instruction at the pc give the value `v`. -/
def State.assume (s : State) (xs : List (Nat × Nat)) (v : Nat) : State :=
  s.setCur { s.cur with early := xs.map fun x => ⟨[s.cur.pc], x.1, x.2, v % 2 ^ (8 * x.2)⟩ }

/-- The line that FLUSHINV invalidates: the next load from it gives what memory has then (R1013). -/
def flushedLine (s : State) : Instr → Option (Nat × Nat)
  | .flushinv _ p => some ((s.p p).toNat / 32 * 32, 32)
  | _ => none

/-- What an instruction stores to or invalidates, in two states: a later load of it is not performed ahead. -/
def storedBy (d : Decoded) (a b : State) : List (Nat × Nat) :=
  let one (i : Instr) : List (Nat × Nat) :=
    (storeRange a i).toList ++ (storeRange b i).toList ++ (flushedLine a i).toList ++ (flushedLine b i).toList
  match d with
  | .single i _ => one i
  | .bundle _ i j => one i ++ one j
  | .undefined | .illegal | .notDefined => []

/-- The loads, on the path that `a` and `b` begin, that may be performed before the older ones on it. `a` and `b` differ in
the values that loads not yet performed give: what depends on one of them is not performed ahead (G1 of R340), and a branch
that depends on one is followed both ways (R343). `path`: the instructions passed; `used`: the locations
that they load and store, which keep their order; `passed`: those that they load, which MMR loads may not pass where one of
the two is to a core MMR (R150). -/
def aheadLoads : Nat → List Word → List (Nat × Nat) → List (Nat × Nat) → State → State → List EarlyRead
  | 0, _, _, _, _, _ => []
  | k + 1, path, used, passed, a, b =>
    match a.fetch, b.fetch with
    | .ok d a, .ok e b =>
      let xs := a.loads d
      let ys := b.loads d
      if d != e || isFence d || (path.isEmpty && xs.isEmpty) then []
      else
        let here := path ++ [a.cur.pc]
        let free := xs.filter fun x => !path.isEmpty && ys.contains x && aheadOk x && !used.any (touches x)
          && !passed.any fun y => mmrOrder x.1 y.1
        free.map (fun x => ⟨here, x.1, x.2, 0⟩) ++
          (match runDecoded d (a.assume xs 0), runDecoded d (b.assume ys 0xFFFFFFFF) with
           | .next a', .next b' =>
             if a'.ended || b'.ended then []
             else
               let a' := { a' with issue := .idle }
               let b' := { b' with issue := .idle }
               let used := used ++ xs ++ ys ++ storedBy d a b
               let passed := passed ++ xs ++ ys
               if a'.cur.pc = b'.cur.pc then aheadLoads k here used passed a' b'
               else
                 aheadLoads k here used passed a' (b'.setPc a'.cur.pc)
                   ++ aheadLoads k here used passed (a'.setPc b'.cur.pc) b'
           | _, _ => [])
    | _, _ => []

/-- Fetch, decode and execute the instruction at the pc (R508 items 3 to 6): a fetch exception ranks above a watchpoint,
a watchpoint above the rest (R1722). -/
def State.execute (s : State) : Outcome :=
  s.fetch.run fun d s =>
    let t := s.instWatch
    if t.issue.emu then .refused .emulation
    else if t.issue.watch then raise .watchpoint t
    else runDecoded d (t.speculate d)

/-! ## The performance monitor's timing events (R1882, D58) -/

/-- The events whose counts are timing. -/
def timingEvent (e : Byte) : Bool :=
  let n := e.toNat
  decide (n = 0x02 ∨ n = 0x03 ∨ n = 0x04 ∨ n = 0x0A ∨ n = 0x10 ∨ n = 0x13 ∨ (0x80 ≤ n ∧ n ≤ 0x83)
    ∨ (0x90 ≤ n ∧ n ≤ 0x99) ∨ n = 0x9E ∨ n = 0x9F)

/-- A monitor that counts a timing event goes up by a free number; event 0x04 needs the trace buffer enabled. -/
def State.countTiming (s : State) (n : Bool) : State :=
  let e := s.cur.perfMon n
  if s.cur.perfOn n && timingEvent e && (e != 0x04 || (s.cur.trace.pwr && s.cur.trace.en)) then
    let (k, s) := s.drawNat
    s.perfAdd n (k % 2 ^ 32)
  else s

/-- The time that one step of a core takes. -/
def State.passTime (s : State) : State := (s.passCycles.countTiming false).countTiming true

/-! ## The end of an instruction (R1722, R1725, R1726) -/

/-- Entering the service exception `e` after the instruction at `src` has committed. -/
def State.serviceException (s : State) (e : Exc) (src : Word) : State :=
  let s := s.setCur { s.cur with seqstat := { s.cur.seqstat with excause := e.code } }
  s.enterEvent 3 src s.cur.pc

/-- Single step: SSSTEP before and after the instruction, no exception or higher event in service before it. While
`stepLate` stands the first one comes at a free moment (R1725). The answer tells whether to take it. -/
def State.singleStep (s0 t : State) : Bool × State :=
  if s0.cur.syscfg.ssstep && t.cur.syscfg.ssstep && !s0.cur.inException && !t.cur.inException then
    if t.cur.stepLate then
      let (b, t) := t.drawBit
      (b, if b then t.setCur { t.cur with stepLate := false } else t)
    else (true, t)
  else (false, t)

/-- The loads made ahead whose path goes on at the pc; the others are made again (R343). -/
def Core.stillAhead (c : Core) : List EarlyRead :=
  (c.early.map fun e => { e with path := e.path.tail }).filter fun e => e.path.head? == some c.pc

/-- The state between two steps: no instruction is in progress. -/
def State.quiet (s : State) : State :=
  { s with issue := .idle, cur := { s.cur with waiting := none, progress := [], early := s.cur.stillAhead } }

/-- The service exceptions after the commit of the instruction that `s0` was about to execute, `t` being the state after
it (R1722). -/
def State.afterCommit (s0 t : State) : Outcome :=
  let t := t.count 0x0D
  if t.issue.emu then .refused .emulation
  else
    let (step, t) := s0.singleStep t
    let src := s0.cur.pc
    if step then .next (t.serviceException .singleStep src).quiet
    else if t.issue.full && !t.cur.inException then .next (t.serviceException .traceFull src).quiet
    else .next t.quiet

/-- The outcome of the instruction step whose start is `s0` and whose execution gave `t`: a wait for the bus takes
everything back but what the bus has done; a watchpoint with WPAND = 1 takes the instruction's hardware errors back too,
since it has not executed, and leaves the watchpoint unit as the match left it (R1858). -/
def State.settle (s0 t : State) : Outcome :=
  if t.issue.stalled then .next (s0.keepBus t)
  else if t.issue.hit.isSome && t.issue.watch then
    if s0.issue.emu || t.issue.hit == some true then .refused .emulation
    else
      let s := s0.keepBus t
      let s := s.setCur { s.cur with wp := t.cur.wp, seqstat := s0.cur.seqstat, ev := s0.cur.ev }
      .next (s.takeException .watchpoint s.cur.pc).quiet
  else if t.issue.emu then .refused .emulation
  else if t.issue.event then .next t.quiet
  else s0.afterCommit t

/-- The load `e` is made now, ahead of an older one (R340). One that the bus does not answer at once, or that stops, is not
made ahead. -/
def State.makeAhead (s : State) (e : EarlyRead) : State :=
  match (s.setCur { s.cur with progress := [] }).performLoad (BitVec.ofNat 32 e.addr) e.size false with
  | .ok v t =>
    { t with cur := { t.cur with progress := s.cur.progress, early := s.cur.early ++ [{ e with val := v }] }
             issue := s.issue }
  | _ => s

/-- The loads that may be made ahead of the one at the pc, at most seven instructions ahead (DESIGN CHOICE, log entry 96),
and that have not been made. -/
def State.aheads (s : State) : List EarlyRead :=
  match s.fetch with
  | .ok d t =>
    if (t.loads d).isEmpty then []
    else (aheadLoads 8 [] [] [] s s).filter fun e => !s.cur.early.any fun x => x.path == e.path && x.addr == e.addr
  | _ => []

/-- Before a load the core may make a later one, which is free (R340). -/
def State.readAhead (s : State) : Option State × State :=
  match s.aheads with
  | [] => (none, s)
  | e :: es =>
    let (n, s) := s.drawNat
    (((e :: es)[n % (es.length + 2)]?).map s.makeAhead, s)

/-- One instruction step. -/
def State.instruction (s : State) : Outcome :=
  let s0 := (s.setCur { s.cur with synced := false, waiting := none }).passTime
  match s0.execute with
  | .next t => s0.settle t
  | .fault f => .fault f
  | .refused r => .refused r

/-! ## Events (R1741, R1749, R1707) -/

/-- The core is stalled, not on a load, on an external access while another master has the bus: it takes no interrupt
(R1660). -/
def State.busHeld (s : State) : Bool :=
  s.sys.ebiu.granted && s.cur.waiting.any fun w => !w.load && decide (w.addr < 0x30000000)

/-- Which event the core takes now: a takeable one must be taken by an idle core, after CSYNC or SSYNC, and if one that
RAISE set is takeable; else the moment is free (R1740, R1746, R1749, D45). -/
def State.chooseEvent (s : State) : Option Nat × State :=
  match s.cur.takeable with
  | none => (none, s)
  | some n =>
    if s.busHeld then (none, s)
    else if s.cur.idle || s.cur.synced || decide (lowestBit (s.cur.requests &&& s.cur.ev.raised) < s.cur.level) then
      (some n, s)
    else
      let (b, s) := s.drawBit
      (if b then some n else none, s)

/-- The core enters event `n`; an entry that fills the trace buffer is followed by the trace exception (R1726). -/
def State.takeEvent (s : State) (n : Nat) : Outcome :=
  let src := s.cur.pc
  let s := if s.cur.idle then s.leaveIdle else s.cancelLoad
  let t := (s.setCur { s.cur with synced := false }).passTime.interrupt n
  if t.issue.emu then .refused .emulation
  else if t.issue.full && !t.cur.inException then .next (t.serviceException .traceFull src).quiet
  else .next t.quiet

/-! ## The boot kernel (70_reset_and_hazards.md R1932, D49) -/

/-- Bytes placed in memory. -/
def Mem.place (m : Mem) (l : List (Word × Byte)) : Mem := l.foldl (fun m x => m.store x.1.toNat x.2) m

/-- The core's registers take free values; its event controller, core MMRs and memories stay. -/
def Core.scramble (c : Core) (u : Nat → Word) : Core :=
  { c with r := .reset u, p := .reset u, i := .reset u 17, m := .reset u 21, b := .reset u 25, l := .reset u 29,
           a0 := accReset u 33, a1 := accReset u 35, rets := u 37, reti := u 38, retx := u 39, retn := u 40,
           rete := u 41, loop0 := .reset u 42, loop1 := .reset u 45, astat := .ofWord (u 48),
           seqstat := ⟨(u 49).extractLsb' 0 6, (u 49).getLsbD 13, (u 49).extractLsb' 14 5⟩,
           syscfg := ⟨(u 50).getLsbD 0, (u 50).getLsbD 1⟩, cycles := u 51 ++ u 52 }

/-- The SPI registers take free values; no transfer is in progress. -/
def Spi.scramble (p : Spi) (u : Nat → Word) : Spi :=
  let b (n : Nat) : Bool := (u 0).getLsbD n
  { p with ctl := half .lo (u 1) &&& 0x7F3F, flg := (half .hi (u 1) &&& 0xFEFE) ||| 0x0100, baud := half .lo (u 2),
           tdbr := half .hi (u 2), rdbr := half .lo (u 3), sfdr := half .hi (u 3), spif := b 0, modf := b 1, txe := b 2,
           txs := b 3, rbsy := b 4, rxs := b 5, txcol := b 6, busy := false, kick := false, fifo := [] }

/-- The EBIU registers take free values; for a flash boot (`flash`) bank 0 is as the boot kernel assumes (R1932). -/
def Ebiu.scramble (e : Ebiu) (flash : Bool) (u : Nat → Word) : Ebiu :=
  let am := half .lo (u 0) &&& 0x01FF
  let b0 := u 1
  { e with amgctl := if flash then (if am &&& 0x000E = 0 then am ||| 0x0012 else am ||| 0x0010) else am,
           ambctl0 := if flash then (b0 &&& 0xFFFF000E) ||| 0xFFC0 else b0,
           ambctl1 := u 2, sdgctl := u 3 &&& 0xF7FBBBFF, sdbctl := u 4 &&& 0x37373737, sdrrc := half .lo (u 5) &&& 0x0FFF,
           ease := (u 6).getLsbD 0, powered := (u 6).getLsbD 1 }

/-- The bits of the pin PF`i` in the flag registers take free values. -/
def FlagBlock.scramblePin (f : FlagBlock) (i : Nat) (w : Word) : FlagBlock :=
  let pick (n : Nat) (h : HWord) : HWord := (h &&& ~~~ bitOf i) ||| (if w.getLsbD n then bitOf i else 0)
  { f with flag := pick 0 f.flag, maska := pick 1 f.maska, maskb := pick 2 f.maskb, dir := pick 3 f.dir,
           polar := pick 4 f.polar, edge := pick 5 f.edge, both := pick 6 f.both, inen := pick 7 f.inen }

/-- The boot as one transition: Core A goes on at the start of its L1 instruction memory, the boot image is in memory
unless the reset was one that boots nothing; the registers of Core A, of the SPI, of PF2 and of the EBIU are free, after
an SPI slave boot those of the HWAIT pin too (67_pf.md R1496). -/
def State.boot (s : State) : State :=
  let u (k : Nat) : Word := Config.freeWord (s.free + k)
  let old := s
  let s := { s with free := s.free + 100, cur := { s.cur.scramble u with pc := 0xFFA00000 } }
  let s := s.setSpi (s.sys.spi.scramble fun k => u (60 + k))
  let s := s.setEbiu (s.sys.ebiu.scramble (s.sys.ctl.bmode == 1) fun k => u (70 + k))
  let f := (s.sys.flags 0).scramblePin 2 (u 80)
  let f := if s.sys.ctl.bmode == 2 then f.scramblePin (Config.hwaitPin % 15 + 1) (u 81) else f
  let s := (s.setFlags 0 f).showPins old
  if s.sys.ctl.noBoot then s else { s with mem := s.mem.place Config.bootImage }

/-- Core A is about to execute the boot kernel. -/
def State.atBoot (s : State) : Bool := s.cur.id == .a && s.cur.pc == 0xEF000000

/-! ## The step of the current core -/

/-- The wakeup signal of the current core (R1812). -/
def State.wake (s : State) (c : Core) : Bool := (s.sys.sicOf c.id).wake (s.live0 c.id) (s.live1 c.id)

/-- One step of the current core (R1760). -/
def State.coreStep (s : State) : Outcome :=
  let (n, s) := s.chooseEvent
  match n with
  | some n => s.takeEvent n
  | none =>
    if s.cur.idle then .next s.leaveIdle
    else if s.atBoot then (if s.fetchHeld s.cur.pc then .refused .unitSetting else .next s.boot)
    else
      match s.readAhead with
      | (some t, _) => .next t
      | (none, s) => s.instruction

/-- The core can take a step (R1760): its clock runs, it is not held, not dead, and if idle, an event is takeable or it
is woken. -/
def State.runnable (s : State) (c : Core) : Bool :=
  s.sys.power.cclk && !c.held && !c.dead && (!c.idle || c.takeable.isSome || s.wake c)

end

end Sys2Proof.Machine
end

