-- ==== Sys2Proof/Machine/Agents.lean ====
section
/-!
DEFINITION. What acts besides the cores (65_buses.md, 61_sic_multicore.md R1810, 62_timers.md): when each agent can take
a step of its own, and what that step does.
-/

namespace Sys2Proof.Machine

noncomputable section

/-- Everything that can take a step. -/
inductive Agent where
  /-- The current core. -/
  | current
  /-- The other core. -/
  | other
  /-- The core timer of a core (R1561). -/
  | coreTimer (id : CoreId)
  /-- The interrupt controller of a core latches event `g` in ILAT (R1750, R1810). -/
  | sic (id : CoreId) (g : Nat)
  /-- The interrupt controller of a core samples a line (R1805). -/
  | sample (id : CoreId)
  /-- A data cache writes a dirty line back (R412, R419). -/
  | cache (id : CoreId)
  /-- One of a core's pending stores is performed (R341). -/
  | drain (id : CoreId)
  /-- A line fill of a core's instruction or data cache goes on (R402, R412). -/
  | fill (id : CoreId) (inst : Bool)
  /-- ARDY releases the access that it extends (R1636). -/
  | ardy
  /-- The SDRAM controller enters self-refresh (R1645). -/
  | selfRefresh
  /-- The PLL state machine applies a new setting (R1132). -/
  | pllApply
  /-- The PLL locks (R1132). -/
  | pllLock
  /-- A wake-up event ends Sleep (R1125). -/
  | sleepWake
  /-- The watchdog of a core counts (R1574). -/
  | watchdog (id : CoreId)
  /-- A general-purpose timer counts (R1531, R1540). -/
  | timer (x : Nat)
  /-- The SPI starts a transfer (R1262). -/
  | spiBegin
  /-- The SPI ends a transfer (R1263). -/
  | spiEnd
  /-- The SPI has a mode fault (R1267). -/
  | spiFault
  /-- The SPI moves a received word to its DMA FIFO (R1275). -/
  | spiRx
  /-- The SPI moves a word from its DMA FIFO to SPI_TDBR (R1275). -/
  | spiTx
  /-- The UART loads its transmit shift register (R1437). -/
  | uartLoad
  /-- The UART has sent a frame (R1437). -/
  | uartSent
  /-- A serial port (68_sport.md). -/
  | sport (x : Nat) (m : SportMove)
  /-- A DMA channel (65_buses_dma.md). -/
  | dma (i : Nat) (m : DmaMove)
  /-- The outside world. -/
  | outside
  deriving DecidableEq, Repr

/-- The agents that the core clock drives, and those that need no clock. -/
def coreAgents : List Agent :=
  [.current, .other, .coreTimer .a, .coreTimer .b, .cache .a, .cache .b, .drain .a, .drain .b, .fill .a true,
   .fill .a false, .fill .b true, .fill .b false, .outside]
    ++ (List.range 9).map (fun g => Agent.sic .a (g + 7)) ++ (List.range 9).map (fun g => Agent.sic .b (g + 7))

/-- The agents that the system clock drives, but for the DMA channels. -/
def systemAgents : List Agent :=
  [.sample .a, .sample .b, .ardy, .selfRefresh, .pllApply, .pllLock, .sleepWake, .watchdog .a, .watchdog .b,
   .spiBegin, .spiEnd, .spiFault, .spiRx, .spiTx, .uartLoad, .uartSent]
    ++ (List.range 12).map Agent.timer ++ sportMoves.map (Agent.sport 0) ++ sportMoves.map (Agent.sport 1)

/-- The DMA channels. -/
def dmaAgents : List Agent := (List.range 36).flatMap fun i => dmaMoves.map (Agent.dma i)

/-! ## The agents' steps -/

/-- The core timer counts (R1561). -/
def CoreTimer.counting (t : CoreTimer) : Bool := t.tmpwr && t.tmren && t.tcount != 0

/-- One count of the core timer (R1561): at zero TINT is set, event 6 latched and the count reloaded if TAUTORLD. -/
def Core.timerStep (c : Core) : Core :=
  let t := c.tmr
  let n := t.tcount - 1
  if n = 0 then
    { c with tmr := { t with tint := true, tcount := if t.tautorld then t.tperiod else 0 }
             ev := { c.ev with ilat := c.ev.ilat ||| 0x0040 } }
  else { c with tmr := { t with tcount := n } }

/-- The interrupt request `g` of core `id` stands and is not latched (R1750); a held core latches nothing (R1925). It may be
latched again while its handler runs, and that latch is kept when the line falls later (DEDUCED, log entry 94). -/
def State.sicRequest (s : State) (id : CoreId) (g : Nat) : Bool :=
  let c := s.coreOf id
  !c.held && !c.ev.ilat.getLsbD g && (s.sys.sicOf id).req g

/-- ILAT[g] is set (R1810). -/
def Core.latch (c : Core) (g : Nat) : Core := { c with ev := { c.ev with ilat := c.ev.ilat ||| bitOf g } }

/-- The dirty lines of a data cache. -/
def DMem.dirtyKeys (d : DMem) : List LineKey := (d.lines.filter fun x => x.2.valid && x.2.dirty).map (·.1)

/-- The current core's data cache writes one of its dirty lines back. -/
def State.writeBackOne (s : State) : State :=
  let keys := s.cur.dmem.dirtyKeys
  let (n, s) := s.drawNat
  match keys[n % keys.length]? with
  | none => s
  | some k => s.writeBack k

/-- What core `id` does on its own, as the current core. -/
def State.actAs (s : State) (id : CoreId) (f : State → Outcome) : Outcome :=
  if s.cur.id = id then f s
  else
    match f s.swap with
    | .next t => .next t.swap
    | .fault x => .fault x
    | .refused r => .refused r

/-- A step of core `id` besides its instructions ends; an emulation event that it triggers is refused. -/
def quietStep : Outcome → Outcome
  | .next t => if t.issue.emu then .refused .emulation else .next { t with issue := .idle }
  | .fault x => .fault x
  | .refused r => .refused r

/-- The outside world is to say what the SPI, as the master, receives. -/
def State.spiWordComes (s : State) : Bool := s.inputs.any fun i => match i with | .spiReceived _ => true | _ => false

/-- The outside world is to say what SPORT`x` receives. -/
def State.sportBitsCome (s : State) (x : Nat) : Bool :=
  s.inputs.any fun i => match i with | .sportRxBits y _ _ => x == y | _ => false

/-- A step that ends a word time. -/
def SportMove.takesBits : SportMove → Bool
  | .rxEnd | .slotEnd => true
  | _ => false

/-- A core wakes from Sleep if its controller asks for it (R1125, R1812). -/
def State.wakeCore (s : State) (id : CoreId) (w : Bool) : State :=
  if w then s.asCore id State.leaveIdle else s

/-- A wake-up event ends Sleep: STOPCK is no longer in force, and the cores it wakes go on after their IDLE (R1125). -/
def State.endSleep (s : State) : State :=
  let wa := (s.coreOf .a).idle && s.wake (s.coreOf .a)
  let wb := (s.coreOf .b).idle && s.wake (s.coreOf .b)
  let p := s.sys.power
  let s := s.setPower { p with applied := { p.applied with stopck := false } }
  (s.wakeCore .a wa).wakeCore .b wb

/-- An agent can take a step, given that its clock runs. -/
def State.enabled (s : State) : Agent → Bool
  | .current => s.runnable s.cur
  | .other => s.runnable s.oth
  | .coreTimer id => let c := s.coreOf id; s.sys.power.cclk && !c.held && c.tmr.counting
  | .sic id g => s.sys.power.cclk && s.sicRequest id g
  | .sample id => !(s.unsampled id).isEmpty
  | .cache id => s.sys.power.cclk && !(s.coreOf id).dmem.dirtyKeys.isEmpty
  | .drain id => s.sys.power.cclk && !(s.coreOf id).stores.isEmpty
  | .fill id inst => s.sys.power.cclk && (s.coreOf id).fills inst
  | .ardy => s.sys.ebiu.busy.any fun x => !x.ready
  | .selfRefresh => s.wantsSelfRefresh
  | .pllApply => s.pllApplies
  | .pllLock => s.sys.power.relock
  | .sleepWake => s.sys.power.mode == .sleep && (s.wake s.cur || s.wake s.oth)
  | .watchdog id => (s.sys.wdog id).counting
  | .timer x => (s.sys.timer x).clocked
  | .spiBegin => s.sys.spi.begins
  | .spiEnd => s.sys.spi.ends && !s.spiWordComes
  | .spiFault => s.spiFaults
  | .spiRx => s.sys.spi.rxMoves
  | .spiTx => s.sys.spi.txMoves
  | .uartLoad => s.sys.uart.loads
  | .uartSent => s.sys.uart.sends
  | .sport x m => (s.sys.sport x).can m && !(m.takesBits && s.sportBitsCome x)
  | .dma i m => s.dmaCan i m
  | .outside => !s.inputs.isEmpty

/-- The step of an agent. -/
def State.act (s : State) : Agent → Outcome
  | .current => s.coreStep
  | .other => s.swap.coreStep
  | .coreTimer id => .next (s.setCore id (s.coreOf id).timerStep)
  | .sic id g => .next (s.setCore id ((s.coreOf id).latch g))
  | .sample id => .next (s.sample id)
  | .cache id => .next (s.asCore id State.writeBackOne)
  | .drain id => s.actAs id fun s => quietStep s.drain
  | .fill id inst => s.actAs id fun s => quietStep (s.fillStep inst)
  | .ardy => .next (s.setEbiu { s.sys.ebiu with busy := s.sys.ebiu.busy.map fun x => { x with ready := true } })
  | .selfRefresh => .next s.enterSelfRefresh
  | .pllApply => s.pllApply
  | .pllLock => .next s.pllLocks
  | .sleepWake => .next s.endSleep
  | .watchdog id => .next (s.watchdogStep id)
  | .timer x => .next ((s.setTimer x (s.sys.timer x).clock).showPins s)
  | .spiBegin => .next s.spiBegin
  | .spiEnd => .next s.spiMasterEnd
  | .spiFault => .next ((s.setSpi s.sys.spi.modeFault).showPins s)
  | .spiRx => .next (s.setSpi s.sys.spi.rxMove)
  | .spiTx => .next s.spiTxMove
  | .uartLoad => .next (s.setUart s.sys.uart.load)
  | .uartSent => .next s.uartSent
  | .sport x m => match s.sportMove x m with | some t => .next t | none => .refused .unitSetting
  | .dma i m => s.dmaStep i m
  | .outside => .next (s.takeInput.showPins s)

/-! ## Which agent moves (R1760, R1946) -/

/-- The channels that do something: the others have nothing to do. -/
def State.dmaTurns (s : State) : List Agent :=
  if s.sys.dma.chans.toList.all fun c => !c.run && c.pending.isEmpty then [] else dmaAgents.filter s.enabled

/-- The agents that can move: those of the system clock only while it runs (R1120). -/
def State.turns (s : State) : List Agent :=
  coreAgents.filter s.enabled ++ (if s.sys.power.sclk then systemAgents.filter s.enabled ++ s.dmaTurns else [])

/-- The step of the machine: one of the agents that can move does, which one is free (R1760). Where none can, the
machine stands still; it is stopped where a double fault has stopped a core (R1727, D44). -/
def State.move (s : State) : Outcome :=
  match s.turns with
  | [] => if s.cur.dead || s.oth.dead then .fault .doubleFault else .next s
  | [a] => s.act a
  | a :: b :: rest =>
    let (n, s) := s.drawNat
    s.act ((a :: b :: rest).getD (n % (rest.length + 2)) a)

end

end Sys2Proof.Machine
end

