-- ==== Sys2Proof/Machine/Step.lean ====
section
/-!
DEFINITION. The step of the machine, and how an instruction is placed where the next step fetches.
-/

namespace Sys2Proof.Machine

noncomputable section

/-- One step (60_exceptions.md R1760): see `State.move`. -/
def step (s : State) : Outcome := s.move

/-- The instruction whose opcode-table bits are `w` stored at the current core's pc (log entry 2). -/
def State.withFetchWord (s : State) (nbits w : Nat) : State :=
  { s with mem := s.mem.placeBytes s.cur.pc.toNat (tableBytes nbits w) }

end

end Sys2Proof.Machine
end

