-- ==== Sys2Proof/Laws/Fields.lean ====
section
/-!
SUPPORT. The numbers that stand for operands in a word: each is below the size of its field, and the decoder reads back
the operand it stands for.
-/

namespace Sys2Proof.Laws

/-! ## Bounds -/

theorem dreg_lt (r : DReg) : r.num < 8 := by cases r <;> decide
theorem preg_lt (r : PReg) : r.num < 8 := by cases r <;> decide
theorem dagN_lt (n : DagN) : n.num < 4 := by cases n <;> decide
theorem accN_lt (a : AccN) : a.num < 2 := by cases a <;> decide
theorem half_lt (h : Half) : h.num < 2 := by cases h <;> decide
theorem loopN_lt (n : LoopN) : n.num < 2 := by cases n <;> decide
theorem b2n_lt (b : Bool) : b2n b < 2 := by cases b <;> decide
theorem mmod_lt (m : MMod) : m.num < 16 := by cases m <;> decide
theorem macOp_lt (m : MacOp) : m.num < 4 := by cases m <;> decide
theorem quadScale_lt (q : QuadScale) : q.num < 4 := by cases q <;> decide
theorem postMod_lt (a : PostMod) : a.num < 3 := by cases a <;> decide
theorem cmpOp_lt (c : CmpOp) : c.num < 5 := by cases c <;> decide
theorem expSel_lt (e : ExpSel) : e.num < 4 := by cases e <;> decide
theorem flag_lt (b : Flag) : b.num < 32 := by cases b <;> decide
theorem dpreg_lt (r : DPReg) : r.num < 8 := by cases r <;> rename_i r <;> cases r <;> decide
theorem dpreg_cls_lt (r : DPReg) : r.cls < 2 := by cases r <;> simp [DPReg.cls]

theorem immReg_lt (r : ImmReg) : r.code < 32 := by
  cases r <;> rename_i r <;> cases r <;> decide

theorem allReg_lt (r : AllReg) : r.code < 64 := by
  cases r <;> try decide
  all_goals rename_i r; cases r <;> decide

/-! ## Reading a number back -/

@[simp] theorem dreg_read (r : DReg) : DReg.ofField r.num = r := by cases r <;> rfl
@[simp] theorem preg_read (r : PReg) : PReg.ofField r.num = r := by cases r <;> rfl
@[simp] theorem dagN_read (n : DagN) : DagN.ofField n.num = n := by cases n <;> rfl
@[simp] theorem accN_read (a : AccN) : AccN.ofBit (decide (a.num = 1)) = a := by cases a <;> rfl
@[simp] theorem half_read (h : Half) : Half.ofBit (decide (h.num = 1)) = h := by cases h <;> rfl
@[simp] theorem loopN_read (n : LoopN) : LoopN.ofBit (decide (n.num = 1)) = n := by cases n <;> rfl
@[simp] theorem mmod_read (m : MMod) : MMod.ofField m.num = some m := by cases m <;> rfl
@[simp] theorem macOp_read (m : MacOp) : MacOp.ofField m.num = m := by cases m <;> rfl
@[simp] theorem quadScale_read (q : QuadScale) : QuadScale.ofField q.num = some q := by cases q <;> rfl
@[simp] theorem postMod_read (a : PostMod) : PostMod.ofField a.num = some a := by cases a <;> rfl
@[simp] theorem cmpOp_read (c : CmpOp) : CmpOp.ofField c.num = some c := by cases c <;> rfl
@[simp] theorem flag_read (b : Flag) : Flag.ofField b.num = some b := by cases b <;> rfl

@[simp] theorem dpreg_read (r : DPReg) : DPReg.ofField (decide (r.cls = 1)) r.num = r := by
  cases r <;> rename_i r <;> cases r <;> rfl

@[simp] theorem fpReg_read (r : DPReg) : fpReg (r.cls * 8 + r.num) = r := by
  cases r <;> rename_i r <;> cases r <;> rfl

@[simp] theorem immReg_read (r : ImmReg) : ImmReg.ofField (r.code / 8) (r.code % 8) = r := by
  cases r <;> rename_i r <;> cases r <;> rfl

@[simp] theorem allReg_read (r : AllReg) : AllReg.ofField (r.code / 8) (r.code % 8) = some r := by
  cases r <;> try rfl
  all_goals rename_i r; cases r <;> rfl

@[simp] theorem b2n_read (b : Bool) : decide (b2n b = 1) = b := by cases b <;> rfl

/-! ## Fields of a unit -/

theorem field {w lo n x : Nat} (h : w / 2 ^ lo % 2 ^ n = x) : bits w lo n = x := h

theorem bit_of_one {w k : Nat} (h : w / 2 ^ k % 2 = 1) : bit w k = true := by simp [bit, h]
theorem bit_of_zero {w k : Nat} (h : w / 2 ^ k % 2 = 0) : bit w k = false := by simp [bit, h]
theorem bit_of {w k x : Nat} (h : w / 2 ^ k % 2 = x) : bit w k = decide (x = 1) := by
  subst h
  by_cases h1 : w / 2 ^ k % 2 = 1 <;> simp [bit, h1]
theorem bit_of_b2n {w k : Nat} {b : Bool} (h : w / 2 ^ k % 2 = b2n b) : bit w k = b := by
  rw [bit_of h]; cases b <;> rfl

@[simp] theorem msb6 (n : BitVec 6) : decide (n.toNat / 32 = 1) = n.msb := by
  rw [BitVec.msb_eq_decide]
  have := n.isLt
  congr 1
  apply propext
  constructor <;> intro h <;> omega

end Sys2Proof.Laws
end

