-- ==== Sys2Proof/Laws/Formats.lean ====
section
/-!
SUPPORT. The round trip of the encoding, format by format: from what the decoder answers on the fields of a word to what
it answers on the bytes of the instruction.
-/

namespace Sys2Proof.Laws

/-! ## Bytes and units -/

theorem unitOf_bytes {u : Nat} (h : u < 65536) : unitOf (BitVec.ofNat 8 u) (BitVec.ofNat 8 (u / 256)) = u := by
  simp only [unitOf, BitVec.toNat_ofNat]; omega

theorem unitLen_two {u : Nat} (h : u < 49152) : unitLen u = 2 := by
  have : bits u 14 2 ≠ 3 := by unfold bits; omega
  simp [unitLen, this]

theorem unitLen_four {u : Nat} (h : 49152 ≤ u) (h' : u < 51200 ∨ 57344 ≤ u) (h2 : u < 65536) : unitLen u = 4 := by
  have e : bits u 14 2 = 3 := by unfold bits; omega
  rcases h' with h' | h'
  · simp [unitLen, e, bit_of_zero (w := u) (k := 11) (by omega)]
  · have : bits u 13 3 ≠ 6 := by unfold bits; omega
    simp [unitLen, e, this]

theorem law16 {i : Instr} {u : Nat} (he : encode i = [u]) (hu : u < 49152) (hd : decode16 u = some i) :
    decode (encodeBytes i) = .single i i.len := by
  have e := unitOf_bytes (u := u) (by omega)
  simp [decode, encodeBytes, he, unitBytes, e, decodeUnits, unitLen_two hu, hd, Decoded.ofOption, Instr.len]

theorem law32 {i : Instr} {u v : Nat} (he : encode i = [u, v])
    (hu : 49152 ≤ u ∧ (u < 51200 ∨ 57344 ≤ u) ∧ u < 65536 ∧ v < 65536) (hd : decode32 u v = some i) :
    decode (encodeBytes i) = .single i i.len := by
  have e := unitOf_bytes (u := u) (by omega)
  have e' := unitOf_bytes (u := v) (by omega)
  simp [decode, encodeBytes, he, unitBytes, e, e', decodeUnits, unitLen_four hu.1 hu.2.1 hu.2.2.1, hd,
    Decoded.ofOption, Instr.len]

/-! ## The DSP formats -/

theorem alu_law {i : Instr} (hl code p q aop s x d0 d1 a b : Nat)
    (hb : hl < 2 ∧ code < 32 ∧ p < 2 ∧ q < 2 ∧ aop = p * 2 + q ∧ s < 2 ∧ x < 2 ∧ d0 < 8 ∧ d1 < 8 ∧ a < 8 ∧ b < 8)
    (he : encode i = aluUnits hl code aop s x d0 d1 a b)
    (hd : ∀ hi lo, bits hi 0 5 = code → bit hi 5 = decide (hl = 1) → bits lo 14 2 = aop → bit lo 15 = decide (p = 1) →
      bit lo 14 = decide (q = 1) → bit lo 13 = decide (s = 1) → bit lo 12 = decide (x = 1) → bits lo 9 3 = d0 →
      bits lo 6 3 = d1 → bits lo 3 3 = a → bits lo 0 3 = b → decodeAlu hi lo = some i) :
    decode (encodeBytes i) = .single i i.len := by
  refine law32 he (by omega) ?_
  rw [decode32, field (x := 12) (by omega), field (x := 2) (by omega)]
  exact hd _ _ (field (by omega)) (bit_of (by omega)) (field (by omega)) (bit_of (by omega)) (bit_of (by omega))
    (bit_of (by omega)) (bit_of (by omega)) (field (by omega)) (field (by omega)) (field (by omega)) (field (by omega))

theorem shift_law {i : Instr} (code p q sop r s hls d c v : Nat)
    (hb : code < 32 ∧ p < 2 ∧ q < 2 ∧ sop = p * 2 + q ∧ r < 2 ∧ s < 2 ∧ hls = r * 2 + s ∧ d < 8 ∧ c < 8 ∧ v < 8)
    (he : encode i = shiftUnits code sop hls d c v)
    (hd : ∀ hi lo, bits hi 0 5 = code → bits lo 14 2 = sop → bit lo 15 = decide (p = 1) → bit lo 14 = decide (q = 1) →
      bits lo 12 2 = hls → bit lo 13 = decide (r = 1) → bit lo 12 = decide (s = 1) → bits lo 9 3 = d →
      bits lo 3 3 = c → bits lo 0 3 = v → decodeShift hi lo = some i) :
    decode (encodeBytes i) = .single i i.len := by
  refine law32 he (by omega) ?_
  rw [decode32, field (x := 12) (by omega), field (x := 3) (by omega)]
  rw [field (x := 0) (by omega)]
  exact hd _ _ (field (by omega)) (field (by omega)) (bit_of (by omega)) (bit_of (by omega)) (field (by omega))
    (bit_of (by omega)) (bit_of (by omega)) (field (by omega)) (field (by omega)) (field (by omega))

theorem shiftImm_law {i : Instr} (code sop r s hls d : Nat) (n : BitVec 6) (v : Nat)
    (hb : code < 32 ∧ sop < 4 ∧ r < 2 ∧ s < 2 ∧ hls = r * 2 + s ∧ d < 8 ∧ v < 8)
    (he : encode i = shiftImmUnits code sop hls d n v)
    (hd : ∀ hi lo, bits hi 0 5 = code → bits lo 14 2 = sop → bits lo 12 2 = hls → bit lo 13 = decide (r = 1) →
      bit lo 12 = decide (s = 1) → bits lo 9 3 = d → bits lo 3 6 = n.toNat → bit lo 8 = decide (n.toNat / 32 = 1) →
      bits lo 0 3 = v → decodeShiftImm hi lo = some i) :
    decode (encodeBytes i) = .single i i.len := by
  have := n.isLt
  refine law32 he (by omega) ?_
  rw [decode32, field (x := 12) (by omega), field (x := 3) (by omega)]
  rw [field (x := 1) (by omega)]
  exact hd _ _ (field (by omega)) (field (by omega)) (field (by omega)) (bit_of (by omega)) (bit_of (by omega))
    (field (by omega)) (field (by omega)) (bit_of (by omega)) (field (by omega))

theorem mac_law {i : Instr} (m : MMod) (mm pair w1 : Bool) (op1 : MacOp) (h1 : HalfSel) (w0 : Bool) (op0 : MacOp)
    (h0 : HalfSel) (d s t : DReg)
    (he : encode i = macUnits 0xC000 m mm pair w1 op1.num h1 w0 op0.num h0 d.num s.num t.num)
    (hd : macInstr m mm pair ⟨op1, w1, h1⟩ ⟨op0, w0, h0⟩ d s t = i) :
    decode (encodeBytes i) = .single i i.len := by
  have := mmod_lt m; have := b2n_lt mm; have := b2n_lt pair; have := b2n_lt w1; have := macOp_lt op1
  have := half_lt h1.s; have := half_lt h1.t; have := b2n_lt w0; have := macOp_lt op0; have := half_lt h0.s
  have := half_lt h0.t; have := dreg_lt d; have := dreg_lt s; have := dreg_lt t
  refine law32 he (by omega) ?_
  rw [decode32, field (x := 12) (by omega), field (x := 0) (by omega)]
  generalize hhi : 0xC000 + m.num * 32 + b2n mm * 16 + b2n pair * 8 + b2n w1 * 4 + op1.num = hi
  generalize hlo : h1.s.num * 32768 + h1.t.num * 16384 + b2n w0 * 8192 + op0.num * 2048 + h0.s.num * 1024
    + h0.t.num * 512 + d.num * 64 + s.num * 8 + t.num = lo
  have f0 : bits hi 5 4 = m.num := field (by omega)
  have f1 : bit hi 4 = mm := bit_of_b2n (by omega)
  have f2 : bit hi 3 = pair := bit_of_b2n (by omega)
  have f3 : bit hi 2 = w1 := bit_of_b2n (by omega)
  have f4 : bits hi 0 2 = op1.num := field (by omega)
  have f5 : bit lo 15 = decide (h1.s.num = 1) := bit_of (by omega)
  have f6 : bit lo 14 = decide (h1.t.num = 1) := bit_of (by omega)
  have f7 : bit lo 13 = w0 := bit_of_b2n (by omega)
  have f8 : bits lo 11 2 = op0.num := field (by omega)
  have f9 : bit lo 10 = decide (h0.s.num = 1) := bit_of (by omega)
  have f10 : bit lo 9 = decide (h0.t.num = 1) := bit_of (by omega)
  have f11 : bits lo 6 3 = d.num := field (by omega)
  have f12 : bits lo 3 3 = s.num := field (by omega)
  have f13 : bits lo 0 3 = t.num := field (by omega)
  simp [decodeMac, f0, f1, f2, f3, f4, f5, f6, f7, f8, f9, f10, f11, f12, f13, hd]

theorem mult_law {i : Instr} (m : MMod) (mm pair w1 : Bool) (h1 : HalfSel) (w0 : Bool) (h0 : HalfSel) (d s t : DReg)
    (he : encode i = macUnits 0xC200 m mm pair w1 0 h1 w0 0 h0 d.num s.num t.num)
    (hd : ∀ hi lo, bits hi 5 4 = m.num → bit hi 4 = mm → bit hi 3 = pair → bit hi 2 = w1 → bits hi 0 2 = 0 →
      bit lo 15 = decide (h1.s.num = 1) → bit lo 14 = decide (h1.t.num = 1) → bit lo 13 = w0 → bits lo 11 2 = 0 →
      bit lo 10 = decide (h0.s.num = 1) → bit lo 9 = decide (h0.t.num = 1) → bits lo 6 3 = d.num →
      bits lo 3 3 = s.num → bits lo 0 3 = t.num → decodeMult hi lo = some i) :
    decode (encodeBytes i) = .single i i.len := by
  have := mmod_lt m; have := b2n_lt mm; have := b2n_lt pair; have := b2n_lt w1
  have := half_lt h1.s; have := half_lt h1.t; have := b2n_lt w0; have := half_lt h0.s
  have := half_lt h0.t; have := dreg_lt d; have := dreg_lt s; have := dreg_lt t
  refine law32 he (by omega) ?_
  rw [decode32, field (x := 12) (by omega), field (x := 1) (by omega)]
  exact hd _ _ (field (by omega)) (bit_of_b2n (by omega)) (bit_of_b2n (by omega)) (bit_of_b2n (by omega))
    (field (by omega)) (bit_of (by omega)) (bit_of (by omega)) (bit_of_b2n (by omega)) (field (by omega))
    (bit_of (by omega)) (bit_of (by omega)) (field (by omega)) (field (by omega)) (field (by omega))

theorem idx_law {i : Instr} (w z sz p r : Nat) (o : BitVec 16) (hb : w < 2 ∧ z < 2 ∧ sz < 4 ∧ p < 8 ∧ r < 8)
    (he : encode i = ldstIdxUnits w z sz p r o)
    (hd : ∀ hi lo, bits hi 3 3 = p → bits hi 0 3 = r → lo = o.toNat → bit hi 9 = decide (w = 1) →
      bit hi 8 = decide (z = 1) → bits hi 6 2 = sz → decodeLdstIdx hi lo = some i) :
    decode (encodeBytes i) = .single i i.len := by
  have := o.isLt
  refine law32 he (by omega) ?_
  rw [decode32, field (x := 14) (by omega)]
  rw [decodeE, field (lo := 8) (n := 4) (x := 4 + w * 2 + z) (by omega)]
  have e : ∀ n, 4 ≤ n ∧ n < 8 → decodeLdstIdx (0xE400 + w * 512 + z * 256 + sz * 64 + p * 8 + r) o.toNat = some i := by
    intro n _
    exact hd _ _ (field (by omega)) (field (by omega)) rfl (bit_of (by omega)) (bit_of (by omega)) (field (by omega))
  have h : 4 + w * 2 + z = 4 ∨ 4 + w * 2 + z = 5 ∨ 4 + w * 2 + z = 6 ∨ 4 + w * 2 + z = 7 := by omega
  rcases h with h | h | h | h <;> rw [h] <;> simp [e 4 (by omega)]

/-! ## Sums of pointer registers -/

theorem preg3_law {i : Instr} (d t s : PReg) (he : encode i = [0x5A00 + d.num * 64 + t.num * 8 + s.num])
    (hd : pregSum d s t = i) : decode (encodeBytes i) = .single i i.len := by
  have l1 := preg_lt d
  have l2 := preg_lt t
  have l3 := preg_lt s
  rw [← preg_read d, ← preg_read t, ← preg_read s] at hd
  generalize d.num = x, t.num = y, s.num = z at *
  refine law16 he (by omega) ?_
  rw [decode16, field (lo := 12) (n := 4) (x := 5) (by omega)]
  rw [decodeComp3op, field (lo := 6) (n := 3) (x := x) (by omega), field (lo := 3) (n := 3) (x := y) (by omega),
    field (lo := 0) (n := 3) (x := z) (by omega), field (lo := 9) (n := 3) (x := 5) (by omega)]
  exact congrArg some hd

/-! ## The 16-bit load and store formats -/

theorem ldst_law {i : Instr} (sz w a z p r : Nat) (hb : sz < 3 ∧ w < 2 ∧ a < 3 ∧ z < 2 ∧ p < 8 ∧ r < 8)
    (he : encode i = ldstUnit sz w a z p r)
    (hd : ∀ h, bits h 3 3 = p → bits h 0 3 = r → bits h 7 2 = a → bits h 10 2 = sz → bit h 9 = decide (w = 1) →
      bit h 6 = decide (z = 1) → decodeLdst h = some i) :
    decode (encodeBytes i) = .single i i.len := by
  refine law16 he (by omega) ?_
  rw [decode16, field (x := 9) (by omega)]
  rw [decode9, field (lo := 10) (n := 2) (x := sz) (by omega), if_neg (by omega)]
  exact hd _ (field (by omega)) (field (by omega)) (field (by omega)) (field (by omega)) (bit_of (by omega))
    (bit_of (by omega))

theorem dsp_law {i : Instr} (w a m n r : Nat) (hb : w < 2 ∧ a < 4 ∧ m < 4 ∧ (a = 3 ∨ m < 3) ∧ n < 4 ∧ r < 8)
    (he : encode i = dspLdstUnit w a m n r)
    (hd : ∀ h, bits h 0 3 = r → bits h 3 2 = n → bits h 7 2 = a → bits h 5 2 = m → bit h 9 = decide (w = 1) →
      decodeDspLdst h = some i) :
    decode (encodeBytes i) = .single i i.len := by
  refine law16 he (by omega) ?_
  rw [decode16, field (x := 9) (by omega)]
  rw [decode9, if_pos (field (by omega)), if_neg (by unfold bits; omega), if_neg (by unfold bits; omega)]
  exact hd _ (field (by omega)) (field (by omega)) (field (by omega)) (field (by omega)) (bit_of (by omega))

theorem pmod_law {i : Instr} (op r x p : Nat) (hb : op < 8 ∧ r < 8 ∧ x < 8 ∧ p < 8)
    (he : encode i = pmodUnit op r x p)
    (hd : ∀ h, bits h 6 3 = r → bits h 3 3 = x → bits h 0 3 = p → bits h 9 3 = op → decodeLdstPmod h = some i) :
    decode (encodeBytes i) = .single i i.len := by
  refine law16 he (by omega) ?_
  rw [decode16, field (x := 8) (by omega)]
  exact hd _ (field (by omega)) (field (by omega)) (field (by omega)) (field (by omega))

theorem ldstIi_law {i : Instr} (op : Nat) (o : BitVec 4) (p r : Nat) (hb : op < 8 ∧ p < 8 ∧ r < 8)
    (he : encode i = ldstIiUnit op o p r)
    (hd : ∀ h, bits h 6 4 = o.toNat → bits h 3 3 = p → bits h 0 3 = r → bits h 10 3 = op → decodeLdstIi h = some i) :
    decode (encodeBytes i) = .single i i.len := by
  have := o.isLt
  refine law16 he (by omega) ?_
  rw [decode16, field (x := 10 + op / 4) (by omega)]
  have e := hd (0xA000 + op * 1024 + o.toNat * 64 + p * 8 + r) (field (by omega)) (field (by omega)) (field (by omega))
    (field (by omega))
  have h : 10 + op / 4 = 10 ∨ 10 + op / 4 = 11 := by omega
  rcases h with h | h <;> rw [h] <;> exact e

end Sys2Proof.Laws
end

