-- ==== Sys2Proof/Laws/PerInstr.lean ====
section
/-!
SUPPORT. The round trip of the encoding, one lemma for each constructor of `Instr` (30_encoding.md R520 to R546).
-/

namespace Sys2Proof.Laws

set_option linter.unusedSimpArgs false
set_option Elab.async false

/-- The bytes of an instruction spelled as its word's own row decode to it, with its length. -/
def RoundTrip.Statement (i : Instr) : Prop := i.spelled = true → decode (encodeBytes i) = .single i i.len

/-- The same of a well-formed instruction. -/
theorem RoundTrip.of_wf {i : Instr} (h : RoundTrip.Statement i) (w : i.wf = true) :
    decode (encodeBytes i) = .single i i.len := h (by simp_all [Instr.wf])


/-- A register that a push or pop multiple can name has a number of at most 5. -/
theorem preg_inRange {p : PReg} (h : p.inRange = true) : ¬ 5 < p.num := by cases p <;> simp_all [PReg.inRange, PReg.num]

theorem RoundTrip.moveReg (d s : AllReg) : RoundTrip.Statement (.moveReg d s) := by
  intro _
  have := allReg_lt d; have := allReg_lt s
  have := allReg_read d; have := allReg_read s
  have he : encode (.moveReg d s) = [0x3000 + d.code / 8 * 512 + s.code / 8 * 64 + d.code % 8 * 8 + s.code % 8] := rfl
  have : d.code / 8 < 8 := by omega
  have : s.code / 8 < 8 := by omega
  have : d.code % 8 < 8 := by omega
  have : s.code % 8 < 8 := by omega
  generalize d.code / 8 = x, s.code / 8 = y, d.code % 8 = z, s.code % 8 = w at *
  refine law16 he (by omega) ?_
  rw [decode16, field (lo := 12) (n := 4) (x := 3) (by omega)]
  rw [decodeRegMv, field (lo := 9) (n := 3) (x := x) (by omega), field (lo := 3) (n := 3) (x := z) (by omega),
    field (lo := 6) (n := 3) (x := y) (by omega), field (lo := 0) (n := 3) (x := w) (by omega)]
  simp [*]

theorem RoundTrip.moveAccAcc (d : AccN) : RoundTrip.Statement (.moveAccAcc d) := by
  intro _
  have := accN_lt d
  exact alu_law 0 8 1 1 3 d.num 0 0 0 0 0 (by omega) rfl (by intros; simp [decodeAlu, *])

theorem RoundTrip.moveAccDreg (a : AccN) (s : DReg) : RoundTrip.Statement (.moveAccDreg a s) := by
  intro _
  have := accN_lt a; have := dreg_lt s
  exact alu_law 0 9 a.num 0 (a.num * 2) 1 0 0 0 s.num 0 (by omega) rfl (by intros; simp [decodeAlu, *])

theorem RoundTrip.moveDregEvenA0 (m : MMod) (d : DReg) : RoundTrip.Statement (.moveDregEvenA0 m d) := by
  intro _
  exact mac_law m false true false .none .low true .none .low d .r0 .r0 rfl (by simp [macInstr, macIsMnop, macIsMac0Only, macIsMac1Only, macIsMove, MacUnit.idle, MacUnit.selLow, HalfSel.low])

theorem RoundTrip.moveDregOddA1 (m : MMod) (mm : Bool) (d : DReg) : RoundTrip.Statement (.moveDregOddA1 m mm d) := by
  intro _
  exact mac_law m mm true true .none .low false .none .low d .r0 .r0 rfl (by simp [macInstr, macIsMnop, macIsMac0Only, macIsMac1Only, macIsMove, MacUnit.idle, MacUnit.selLow, HalfSel.low])

theorem RoundTrip.moveDregPairAcc (m : MMod) (mm : Bool) (d : DReg) : RoundTrip.Statement (.moveDregPairAcc m mm d) := by
  intro _
  exact mac_law m mm true true .none .low true .none .low d .r0 .r0 rfl (by simp [macInstr, macIsMnop, macIsMac0Only, macIsMac1Only, macIsMove, MacUnit.idle, MacUnit.selLow, HalfSel.low])

theorem RoundTrip.ifCcMove (d s : DPReg) : RoundTrip.Statement (.ifCcMove d s) := by
  intro _
  have := dpreg_cls_lt d; have := dpreg_cls_lt s; have := dpreg_lt d; have := dpreg_lt s
  refine law16 (u := 1792 + d.cls * 128 + s.cls * 64 + d.num * 8 + s.num) rfl (by omega) ?_
  generalize hh : 1792 + d.cls * 128 + s.cls * 64 + d.num * 8 + s.num = h
  have f0 : bits h 0 3 = s.num := field (by omega)
  have f1 : bits h 3 3 = d.num := field (by omega)
  have f2 : bits h 5 3 = d.cls * 4 + s.cls * 2 + (d.num / 4) := field (by omega)
  have f3 : bits h 6 2 = d.cls * 2 + s.cls := field (by omega)
  have f4 : bits h 8 3 = 7 := field (by omega)
  have f5 : bits h 8 4 = 7 := field (by omega)
  have f6 : bits h 12 4 = 0 := field (by omega)
  have f7 : bit h 6 = decide (s.cls = 1) := bit_of (by omega)
  have f8 : bit h 7 = decide (d.cls = 1) := bit_of (by omega)
  have f9 : bit h 8 = true := bit_of_one (by omega)
  simp [decodeCcMv, decode0, decode16, f0, f1, f2, f3, f4, f5, f6, f7, f8, f9, dpreg_cls_lt d, dpreg_cls_lt s, dpreg_lt d, dpreg_lt s]

theorem RoundTrip.ifNccMove (d s : DPReg) : RoundTrip.Statement (.ifNccMove d s) := by
  intro _
  have := dpreg_cls_lt d; have := dpreg_cls_lt s; have := dpreg_lt d; have := dpreg_lt s
  refine law16 (u := 1536 + d.cls * 128 + s.cls * 64 + d.num * 8 + s.num) rfl (by omega) ?_
  generalize hh : 1536 + d.cls * 128 + s.cls * 64 + d.num * 8 + s.num = h
  have f0 : bits h 0 3 = s.num := field (by omega)
  have f1 : bits h 3 3 = d.num := field (by omega)
  have f2 : bits h 5 3 = d.cls * 4 + s.cls * 2 + (d.num / 4) := field (by omega)
  have f3 : bits h 6 2 = d.cls * 2 + s.cls := field (by omega)
  have f4 : bits h 8 3 = 6 := field (by omega)
  have f5 : bits h 8 4 = 6 := field (by omega)
  have f6 : bits h 12 4 = 0 := field (by omega)
  have f7 : bit h 6 = decide (s.cls = 1) := bit_of (by omega)
  have f8 : bit h 7 = decide (d.cls = 1) := bit_of (by omega)
  have f9 : bit h 8 = false := bit_of_zero (by omega)
  simp [decodeCcMv, decode0, decode16, f0, f1, f2, f3, f4, f5, f6, f7, f8, f9, dpreg_cls_lt d, dpreg_cls_lt s, dpreg_lt d, dpreg_lt s]

theorem RoundTrip.moveHalfZ (d s : DReg) : RoundTrip.Statement (.moveHalfZ d s) := by
  intro _
  have := dreg_lt s; have := dreg_lt d
  refine law16 (u := 17088 + s.num * 8 + d.num) rfl (by omega) ?_
  generalize hh : 17088 + s.num * 8 + d.num = h
  have f0 : bits h 0 3 = d.num := field (by omega)
  have f1 : bits h 3 3 = s.num := field (by omega)
  have f2 : bits h 6 4 = 11 := field (by omega)
  have f3 : bits h 10 2 = 0 := field (by omega)
  have f4 : bits h 12 4 = 4 := field (by omega)
  have f5 : bit h 9 = true := bit_of_one (by omega)
  simp [decodeAlu2op, decode4, decode16, f0, f1, f2, f3, f4, f5, dreg_lt s, dreg_lt d]

theorem RoundTrip.moveHalfX (d s : DReg) : RoundTrip.Statement (.moveHalfX d s) := by
  intro _
  have := dreg_lt s; have := dreg_lt d
  refine law16 (u := 17024 + s.num * 8 + d.num) rfl (by omega) ?_
  generalize hh : 17024 + s.num * 8 + d.num = h
  have f0 : bits h 0 3 = d.num := field (by omega)
  have f1 : bits h 3 3 = s.num := field (by omega)
  have f2 : bits h 6 4 = 10 := field (by omega)
  have f3 : bits h 10 2 = 0 := field (by omega)
  have f4 : bits h 12 4 = 4 := field (by omega)
  have f5 : bit h 9 = true := bit_of_one (by omega)
  simp [decodeAlu2op, decode4, decode16, f0, f1, f2, f3, f4, f5, dreg_lt s, dreg_lt d]

theorem RoundTrip.moveAccXDregLo (a : AccN) (s : DReg) : RoundTrip.Statement (.moveAccXDregLo a s) := by
  intro _
  have := accN_lt a; have := dreg_lt s
  exact alu_law 0 9 a.num 1 (a.num * 2 + 1) 0 0 0 0 s.num 0 (by omega) rfl (by intros; simp [decodeAlu, *])

theorem RoundTrip.moveDregLoAccX (d : DReg) (a : AccN) : RoundTrip.Statement (.moveDregLoAccX d a) := by
  intro _
  have := accN_lt a; have := dreg_lt d
  exact alu_law 0 10 0 a.num a.num 0 0 d.num 0 0 0 (by omega) rfl (by intros; simp [decodeAlu, *])

theorem RoundTrip.moveAccLDregLo (a : AccN) (s : DReg) : RoundTrip.Statement (.moveAccLDregLo a s) := by
  intro _
  have := accN_lt a; have := dreg_lt s
  exact alu_law 0 9 a.num 0 (a.num * 2) 0 0 0 0 s.num 0 (by omega) rfl (by intros; simp [decodeAlu, *])

theorem RoundTrip.moveAccHDregHi (a : AccN) (s : DReg) : RoundTrip.Statement (.moveAccHDregHi a s) := by
  intro _
  have := accN_lt a; have := dreg_lt s
  exact alu_law 1 9 a.num 0 (a.num * 2) 0 0 0 0 s.num 0 (by omega) rfl (by intros; simp [decodeAlu, *])

theorem RoundTrip.moveDregLoA0 (m : MMod) (d : DReg) : RoundTrip.Statement (.moveDregLoA0 m d) := by
  intro _
  exact mac_law m false false false .none .low true .none .low d .r0 .r0 rfl (by simp [macInstr, macIsMnop, macIsMac0Only, macIsMac1Only, macIsMove, MacUnit.idle, MacUnit.selLow, HalfSel.low])

theorem RoundTrip.moveDregHiA1 (m : MMod) (mm : Bool) (d : DReg) : RoundTrip.Statement (.moveDregHiA1 m mm d) := by
  intro _
  exact mac_law m mm false true .none .low false .none .low d .r0 .r0 rfl (by simp [macInstr, macIsMnop, macIsMac0Only, macIsMac1Only, macIsMove, MacUnit.idle, MacUnit.selLow, HalfSel.low])

theorem RoundTrip.moveDregHalvesAcc (m : MMod) (mm : Bool) (d : DReg) : RoundTrip.Statement (.moveDregHalvesAcc m mm d) := by
  intro _
  exact mac_law m mm false true .none .low true .none .low d .r0 .r0 rfl (by simp [macInstr, macIsMnop, macIsMac0Only, macIsMac1Only, macIsMove, MacUnit.idle, MacUnit.selLow, HalfSel.low])

theorem RoundTrip.moveByteZ (d s : DReg) : RoundTrip.Statement (.moveByteZ d s) := by
  intro _
  have := dreg_lt s; have := dreg_lt d
  refine law16 (u := 17216 + s.num * 8 + d.num) rfl (by omega) ?_
  generalize hh : 17216 + s.num * 8 + d.num = h
  have f0 : bits h 0 3 = d.num := field (by omega)
  have f1 : bits h 3 3 = s.num := field (by omega)
  have f2 : bits h 6 4 = 13 := field (by omega)
  have f3 : bits h 10 2 = 0 := field (by omega)
  have f4 : bits h 12 4 = 4 := field (by omega)
  have f5 : bit h 9 = true := bit_of_one (by omega)
  simp [decodeAlu2op, decode4, decode16, f0, f1, f2, f3, f4, f5, dreg_lt s, dreg_lt d]

theorem RoundTrip.moveByteX (d s : DReg) : RoundTrip.Statement (.moveByteX d s) := by
  intro _
  have := dreg_lt s; have := dreg_lt d
  refine law16 (u := 17152 + s.num * 8 + d.num) rfl (by omega) ?_
  generalize hh : 17152 + s.num * 8 + d.num = h
  have f0 : bits h 0 3 = d.num := field (by omega)
  have f1 : bits h 3 3 = s.num := field (by omega)
  have f2 : bits h 6 4 = 12 := field (by omega)
  have f3 : bits h 10 2 = 0 := field (by omega)
  have f4 : bits h 12 4 = 4 := field (by omega)
  have f5 : bit h 9 = true := bit_of_one (by omega)
  simp [decodeAlu2op, decode4, decode16, f0, f1, f2, f3, f4, f5, dreg_lt s, dreg_lt d]

theorem RoundTrip.loadImm7D (d : DReg) (n : BitVec 7) : RoundTrip.Statement (.loadImm7D d n) := by
  intro _
  have := n.isLt; have := dreg_lt d
  refine law16 (u := 24576 + n.toNat * 8 + d.num) rfl (by omega) ?_
  generalize hh : 24576 + n.toNat * 8 + d.num = h
  have f0 : bits h 0 3 = d.num := field (by omega)
  have f1 : bits h 3 7 = n.toNat := field (by omega)
  have f2 : bits h 10 2 = 0 := field (by omega)
  have f3 : bits h 12 4 = 6 := field (by omega)
  simp [decodeCompi2op, decode16, f0, f1, f2, f3, n.isLt, dreg_lt d]

theorem RoundTrip.loadImm7P (d : PReg) (n : BitVec 7) : RoundTrip.Statement (.loadImm7P d n) := by
  intro _
  have := n.isLt; have := preg_lt d
  refine law16 (u := 26624 + n.toNat * 8 + d.num) rfl (by omega) ?_
  generalize hh : 26624 + n.toNat * 8 + d.num = h
  have f0 : bits h 0 3 = d.num := field (by omega)
  have f1 : bits h 3 7 = n.toNat := field (by omega)
  have f2 : bits h 10 2 = 2 := field (by omega)
  have f3 : bits h 12 4 = 6 := field (by omega)
  simp [decodeCompi2op, decode16, f0, f1, f2, f3, n.isLt, preg_lt d]

theorem RoundTrip.loadImm16X (r : ImmReg) (n : BitVec 16) : RoundTrip.Statement (.loadImm16X r n) := by
  intro _
  have := immReg_lt r; have := n.isLt
  refine law32 (u := 57632 + r.code) (v := n.toNat) rfl (by omega) ?_
  generalize hhi : 57632 + r.code = hi
  generalize hlo : n.toNat = lo
  have f0 : bits hi 0 3 = (r.code % 8) := field (by omega)
  have f1 : bits hi 3 2 = (r.code / 8) := field (by omega)
  have f2 : bits hi 5 3 = 1 := field (by omega)
  have f3 : bits hi 7 2 = 2 := field (by omega)
  have f4 : bits hi 8 4 = 1 := field (by omega)
  have f5 : bits hi 9 2 = 0 := field (by omega)
  have f6 : bits hi 12 4 = 14 := field (by omega)
  have f7 : bit hi 7 = false := bit_of_zero (by omega)
  simp [decodeLdImmHalf, decodeE, decode32, f0, f1, f2, f3, f4, f5, f6, f7, immReg_lt r, n.isLt, ← hlo]

theorem RoundTrip.loadImm16Z (r : ImmReg) (n : BitVec 16) : RoundTrip.Statement (.loadImm16Z r n) := by
  intro _
  have := immReg_lt r; have := n.isLt
  refine law32 (u := 57728 + r.code) (v := n.toNat) rfl (by omega) ?_
  generalize hhi : 57728 + r.code = hi
  generalize hlo : n.toNat = lo
  have f0 : bits hi 0 3 = (r.code % 8) := field (by omega)
  have f1 : bits hi 3 2 = (r.code / 8) := field (by omega)
  have f2 : bits hi 5 3 = 4 := field (by omega)
  have f3 : bits hi 7 2 = 3 := field (by omega)
  have f4 : bits hi 8 4 = 1 := field (by omega)
  have f5 : bits hi 9 2 = 0 := field (by omega)
  have f6 : bits hi 12 4 = 14 := field (by omega)
  have f7 : bit hi 7 = true := bit_of_one (by omega)
  simp [decodeLdImmHalf, decodeE, decode32, f0, f1, f2, f3, f4, f5, f6, f7, immReg_lt r, n.isLt, ← hlo]

theorem RoundTrip.loadImm16Lo (r : ImmReg) (n : BitVec 16) : RoundTrip.Statement (.loadImm16Lo r n) := by
  intro _
  have := immReg_lt r; have := n.isLt
  refine law32 (u := 57600 + r.code) (v := n.toNat) rfl (by omega) ?_
  generalize hhi : 57600 + r.code = hi
  generalize hlo : n.toNat = lo
  have f0 : bits hi 0 3 = (r.code % 8) := field (by omega)
  have f1 : bits hi 3 2 = (r.code / 8) := field (by omega)
  have f2 : bits hi 5 3 = 0 := field (by omega)
  have f3 : bits hi 7 2 = 2 := field (by omega)
  have f4 : bits hi 8 4 = 1 := field (by omega)
  have f5 : bits hi 9 2 = 0 := field (by omega)
  have f6 : bits hi 12 4 = 14 := field (by omega)
  have f7 : bit hi 7 = false := bit_of_zero (by omega)
  simp [decodeLdImmHalf, decodeE, decode32, f0, f1, f2, f3, f4, f5, f6, f7, immReg_lt r, n.isLt, ← hlo]

theorem RoundTrip.loadImm16Hi (r : ImmReg) (n : BitVec 16) : RoundTrip.Statement (.loadImm16Hi r n) := by
  intro _
  have := immReg_lt r; have := n.isLt
  refine law32 (u := 57664 + r.code) (v := n.toNat) rfl (by omega) ?_
  generalize hhi : 57664 + r.code = hi
  generalize hlo : n.toNat = lo
  have f0 : bits hi 0 3 = (r.code % 8) := field (by omega)
  have f1 : bits hi 3 2 = (r.code / 8) := field (by omega)
  have f2 : bits hi 5 3 = 2 := field (by omega)
  have f3 : bits hi 7 2 = 2 := field (by omega)
  have f4 : bits hi 8 4 = 1 := field (by omega)
  have f5 : bits hi 9 2 = 0 := field (by omega)
  have f6 : bits hi 12 4 = 14 := field (by omega)
  have f7 : bit hi 7 = false := bit_of_zero (by omega)
  simp [decodeLdImmHalf, decodeE, decode32, f0, f1, f2, f3, f4, f5, f6, f7, immReg_lt r, n.isLt, ← hlo]

theorem RoundTrip.clearA0 : RoundTrip.Statement (.clearA0) := by
  intro _
  exact alu_law 0 8 0 0 0 0 0 0 0 0 0 (by omega) rfl (by intros; simp [decodeAlu, *])

theorem RoundTrip.clearA1 : RoundTrip.Statement (.clearA1) := by
  intro _
  exact alu_law 0 8 0 1 1 0 0 0 0 0 0 (by omega) rfl (by intros; simp [decodeAlu, *])

theorem RoundTrip.clearA1A0 : RoundTrip.Statement (.clearA1A0) := by
  intro _
  exact alu_law 0 8 1 0 2 0 0 0 0 0 0 (by omega) rfl (by intros; simp [decodeAlu, *])

theorem RoundTrip.ccFromDreg (s : DReg) : RoundTrip.Statement (.ccFromDreg s) := by
  intro _
  have := dreg_lt s
  refine law16 (u := 520 + s.num) rfl (by omega) ?_
  generalize hh : 520 + s.num = h
  have f0 : bits h 0 3 = s.num := field (by omega)
  have f1 : bits h 3 2 = 1 := field (by omega)
  have f2 : bits h 5 3 = 0 := field (by omega)
  have f3 : bits h 6 2 = 0 := field (by omega)
  have f4 : bits h 8 3 = 2 := field (by omega)
  have f5 : bits h 8 4 = 2 := field (by omega)
  have f6 : bits h 12 4 = 0 := field (by omega)
  have f7 : bit h 7 = false := bit_of_zero (by omega)
  simp [decodeCc2dreg, decode0, decode16, f0, f1, f2, f3, f4, f5, f6, f7, dreg_lt s]

theorem RoundTrip.dregFromCc (d : DReg) : RoundTrip.Statement (.dregFromCc d) := by
  intro _
  have := dreg_lt d
  refine law16 (u := 512 + d.num) rfl (by omega) ?_
  generalize hh : 512 + d.num = h
  have f0 : bits h 0 3 = d.num := field (by omega)
  have f1 : bits h 3 2 = 0 := field (by omega)
  have f2 : bits h 5 3 = 0 := field (by omega)
  have f3 : bits h 6 2 = 0 := field (by omega)
  have f4 : bits h 8 3 = 2 := field (by omega)
  have f5 : bits h 8 4 = 2 := field (by omega)
  have f6 : bits h 12 4 = 0 := field (by omega)
  have f7 : bit h 7 = false := bit_of_zero (by omega)
  simp [decodeCc2dreg, decode0, decode16, f0, f1, f2, f3, f4, f5, f6, f7, dreg_lt d]

theorem RoundTrip.ccFlagSet (b : Flag) : RoundTrip.Statement (.ccFlagSet b) := by
  intro _
  have := flag_lt b
  refine law16 (u := 768 + b.num) rfl (by omega) ?_
  generalize hh : 768 + b.num = h
  have f0 : bits h 0 5 = b.num := field (by omega)
  have f1 : bits h 5 3 = 0 := field (by omega)
  have f2 : bits h 6 2 = 0 := field (by omega)
  have f3 : bits h 8 3 = 3 := field (by omega)
  have f4 : bits h 8 4 = 3 := field (by omega)
  have f5 : bits h 12 4 = 0 := field (by omega)
  have f6 : bit h 7 = false := bit_of_zero (by omega)
  simp [decodeCc2stat, decode0, decode16, f0, f1, f2, f3, f4, f5, f6, flag_lt b]

theorem RoundTrip.ccFlagOr (b : Flag) : RoundTrip.Statement (.ccFlagOr b) := by
  intro _
  have := flag_lt b
  refine law16 (u := 800 + b.num) rfl (by omega) ?_
  generalize hh : 800 + b.num = h
  have f0 : bits h 0 5 = b.num := field (by omega)
  have f1 : bits h 5 3 = 1 := field (by omega)
  have f2 : bits h 6 2 = 0 := field (by omega)
  have f3 : bits h 8 3 = 3 := field (by omega)
  have f4 : bits h 8 4 = 3 := field (by omega)
  have f5 : bits h 12 4 = 0 := field (by omega)
  have f6 : bit h 7 = false := bit_of_zero (by omega)
  simp [decodeCc2stat, decode0, decode16, f0, f1, f2, f3, f4, f5, f6, flag_lt b]

theorem RoundTrip.ccFlagAnd (b : Flag) : RoundTrip.Statement (.ccFlagAnd b) := by
  intro _
  have := flag_lt b
  refine law16 (u := 832 + b.num) rfl (by omega) ?_
  generalize hh : 832 + b.num = h
  have f0 : bits h 0 5 = b.num := field (by omega)
  have f1 : bits h 5 3 = 2 := field (by omega)
  have f2 : bits h 6 2 = 1 := field (by omega)
  have f3 : bits h 8 3 = 3 := field (by omega)
  have f4 : bits h 8 4 = 3 := field (by omega)
  have f5 : bits h 12 4 = 0 := field (by omega)
  have f6 : bit h 7 = false := bit_of_zero (by omega)
  simp [decodeCc2stat, decode0, decode16, f0, f1, f2, f3, f4, f5, f6, flag_lt b]

theorem RoundTrip.ccFlagXor (b : Flag) : RoundTrip.Statement (.ccFlagXor b) := by
  intro _
  have := flag_lt b
  refine law16 (u := 864 + b.num) rfl (by omega) ?_
  generalize hh : 864 + b.num = h
  have f0 : bits h 0 5 = b.num := field (by omega)
  have f1 : bits h 5 3 = 3 := field (by omega)
  have f2 : bits h 6 2 = 1 := field (by omega)
  have f3 : bits h 8 3 = 3 := field (by omega)
  have f4 : bits h 8 4 = 3 := field (by omega)
  have f5 : bits h 12 4 = 0 := field (by omega)
  have f6 : bit h 7 = false := bit_of_zero (by omega)
  simp [decodeCc2stat, decode0, decode16, f0, f1, f2, f3, f4, f5, f6, flag_lt b]

theorem RoundTrip.flagCcSet (b : Flag) : RoundTrip.Statement (.flagCcSet b) := by
  intro _
  have := flag_lt b
  refine law16 (u := 896 + b.num) rfl (by omega) ?_
  generalize hh : 896 + b.num = h
  have f0 : bits h 0 5 = b.num := field (by omega)
  have f1 : bits h 5 3 = 4 := field (by omega)
  have f2 : bits h 6 2 = 2 := field (by omega)
  have f3 : bits h 8 3 = 3 := field (by omega)
  have f4 : bits h 8 4 = 3 := field (by omega)
  have f5 : bits h 12 4 = 0 := field (by omega)
  have f6 : bit h 7 = true := bit_of_one (by omega)
  simp [decodeCc2stat, decode0, decode16, f0, f1, f2, f3, f4, f5, f6, flag_lt b]

theorem RoundTrip.flagCcOr (b : Flag) : RoundTrip.Statement (.flagCcOr b) := by
  intro _
  have := flag_lt b
  refine law16 (u := 928 + b.num) rfl (by omega) ?_
  generalize hh : 928 + b.num = h
  have f0 : bits h 0 5 = b.num := field (by omega)
  have f1 : bits h 5 3 = 5 := field (by omega)
  have f2 : bits h 6 2 = 2 := field (by omega)
  have f3 : bits h 8 3 = 3 := field (by omega)
  have f4 : bits h 8 4 = 3 := field (by omega)
  have f5 : bits h 12 4 = 0 := field (by omega)
  have f6 : bit h 7 = true := bit_of_one (by omega)
  simp [decodeCc2stat, decode0, decode16, f0, f1, f2, f3, f4, f5, f6, flag_lt b]

theorem RoundTrip.flagCcAnd (b : Flag) : RoundTrip.Statement (.flagCcAnd b) := by
  intro _
  have := flag_lt b
  refine law16 (u := 960 + b.num) rfl (by omega) ?_
  generalize hh : 960 + b.num = h
  have f0 : bits h 0 5 = b.num := field (by omega)
  have f1 : bits h 5 3 = 6 := field (by omega)
  have f2 : bits h 6 2 = 3 := field (by omega)
  have f3 : bits h 8 3 = 3 := field (by omega)
  have f4 : bits h 8 4 = 3 := field (by omega)
  have f5 : bits h 12 4 = 0 := field (by omega)
  have f6 : bit h 7 = true := bit_of_one (by omega)
  simp [decodeCc2stat, decode0, decode16, f0, f1, f2, f3, f4, f5, f6, flag_lt b]

theorem RoundTrip.flagCcXor (b : Flag) : RoundTrip.Statement (.flagCcXor b) := by
  intro _
  have := flag_lt b
  refine law16 (u := 992 + b.num) rfl (by omega) ?_
  generalize hh : 992 + b.num = h
  have f0 : bits h 0 5 = b.num := field (by omega)
  have f1 : bits h 5 3 = 7 := field (by omega)
  have f2 : bits h 6 2 = 3 := field (by omega)
  have f3 : bits h 8 3 = 3 := field (by omega)
  have f4 : bits h 8 4 = 3 := field (by omega)
  have f5 : bits h 12 4 = 0 := field (by omega)
  have f6 : bit h 7 = true := bit_of_one (by omega)
  simp [decodeCc2stat, decode0, decode16, f0, f1, f2, f3, f4, f5, f6, flag_lt b]

theorem RoundTrip.ccNot : RoundTrip.Statement (.ccNot) := by
  intro _
  rfl

theorem RoundTrip.addPreg (d s t : PReg) : RoundTrip.Statement (.addPreg d s t) := by
  intro wf
  simp [Instr.spelled] at wf
  exact preg3_law d t s rfl (by simp [pregSum, wf.1, wf.2])

theorem RoundTrip.addPregTo (d s : PReg) : RoundTrip.Statement (.addPregTo d s) := by
  intro wf
  simp [Instr.spelled] at wf
  exact preg3_law d s d rfl (by simp [pregSum, wf])

theorem RoundTrip.subPregFrom (d s : PReg) : RoundTrip.Statement (.subPregFrom d s) := by
  intro _
  have := preg_lt s; have := preg_lt d
  refine law16 (u := 17408 + s.num * 8 + d.num) rfl (by omega) ?_
  generalize hh : 17408 + s.num * 8 + d.num = h
  have f0 : bits h 0 3 = d.num := field (by omega)
  have f1 : bits h 3 3 = s.num := field (by omega)
  have f2 : bits h 6 3 = 0 := field (by omega)
  have f3 : bits h 10 2 = 1 := field (by omega)
  have f4 : bits h 12 4 = 4 := field (by omega)
  have f5 : bit h 9 = false := bit_of_zero (by omega)
  simp [decodePtr2op, decode4, decode16, f0, f1, f2, f3, f4, f5, preg_lt s, preg_lt d]

theorem RoundTrip.addPregImm7 (d : PReg) (n : BitVec 7) : RoundTrip.Statement (.addPregImm7 d n) := by
  intro _
  have := n.isLt; have := preg_lt d
  refine law16 (u := 27648 + n.toNat * 8 + d.num) rfl (by omega) ?_
  generalize hh : 27648 + n.toNat * 8 + d.num = h
  have f0 : bits h 0 3 = d.num := field (by omega)
  have f1 : bits h 3 7 = n.toNat := field (by omega)
  have f2 : bits h 10 2 = 3 := field (by omega)
  have f3 : bits h 12 4 = 6 := field (by omega)
  simp [decodeCompi2op, decode16, f0, f1, f2, f3, n.isLt, preg_lt d]

theorem RoundTrip.addDreg (d s t : DReg) : RoundTrip.Statement (.addDreg d s t) := by
  intro _
  have := dreg_lt d; have := dreg_lt t; have := dreg_lt s
  refine law16 (u := 20480 + d.num * 64 + t.num * 8 + s.num) rfl (by omega) ?_
  generalize hh : 20480 + d.num * 64 + t.num * 8 + s.num = h
  have f0 : bits h 0 3 = s.num := field (by omega)
  have f1 : bits h 3 3 = t.num := field (by omega)
  have f2 : bits h 6 3 = d.num := field (by omega)
  have f3 : bits h 9 3 = 0 := field (by omega)
  have f4 : bits h 12 4 = 5 := field (by omega)
  simp [decodeComp3op, decode16, f0, f1, f2, f3, f4, dreg_lt d, dreg_lt t, dreg_lt s]

theorem RoundTrip.addDregOpt (sat : Bool) (d s t : DReg) : RoundTrip.Statement (.addDregOpt sat d s t) := by
  intro _
  have := b2n_lt sat; have := dreg_lt d; have := dreg_lt s; have := dreg_lt t
  exact alu_law 0 4 0 0 0 (b2n sat) 0 d.num 0 s.num t.num (by omega) rfl (by intros; simp [decodeAlu, *])

theorem RoundTrip.subDreg (d s t : DReg) : RoundTrip.Statement (.subDreg d s t) := by
  intro _
  have := dreg_lt d; have := dreg_lt t; have := dreg_lt s
  refine law16 (u := 20992 + d.num * 64 + t.num * 8 + s.num) rfl (by omega) ?_
  generalize hh : 20992 + d.num * 64 + t.num * 8 + s.num = h
  have f0 : bits h 0 3 = s.num := field (by omega)
  have f1 : bits h 3 3 = t.num := field (by omega)
  have f2 : bits h 6 3 = d.num := field (by omega)
  have f3 : bits h 9 3 = 1 := field (by omega)
  have f4 : bits h 12 4 = 5 := field (by omega)
  simp [decodeComp3op, decode16, f0, f1, f2, f3, f4, dreg_lt d, dreg_lt t, dreg_lt s]

theorem RoundTrip.subDregOpt (sat : Bool) (d s t : DReg) : RoundTrip.Statement (.subDregOpt sat d s t) := by
  intro _
  have := b2n_lt sat; have := dreg_lt d; have := dreg_lt s; have := dreg_lt t
  exact alu_law 0 4 0 1 1 (b2n sat) 0 d.num 0 s.num t.num (by omega) rfl (by intros; simp [decodeAlu, *])

theorem RoundTrip.addSubDreg (sat : Bool) (d1 d0 s t : DReg) : RoundTrip.Statement (.addSubDreg sat d1 d0 s t) := by
  intro _
  have := b2n_lt sat; have := dreg_lt d0; have := dreg_lt d1; have := dreg_lt s; have := dreg_lt t
  exact alu_law 0 4 1 0 2 (b2n sat) 0 d0.num d1.num s.num t.num (by omega) rfl (by intros; simp [decodeAlu, *])

theorem RoundTrip.addDregImm7 (d : DReg) (n : BitVec 7) : RoundTrip.Statement (.addDregImm7 d n) := by
  intro _
  have := n.isLt; have := dreg_lt d
  refine law16 (u := 25600 + n.toNat * 8 + d.num) rfl (by omega) ?_
  generalize hh : 25600 + n.toNat * 8 + d.num = h
  have f0 : bits h 0 3 = d.num := field (by omega)
  have f1 : bits h 3 7 = n.toNat := field (by omega)
  have f2 : bits h 10 2 = 1 := field (by omega)
  have f3 : bits h 12 4 = 6 := field (by omega)
  simp [decodeCompi2op, decode16, f0, f1, f2, f3, n.isLt, dreg_lt d]

theorem RoundTrip.negDreg (d s : DReg) : RoundTrip.Statement (.negDreg d s) := by
  intro _
  have := dreg_lt s; have := dreg_lt d
  refine law16 (u := 17280 + s.num * 8 + d.num) rfl (by omega) ?_
  generalize hh : 17280 + s.num * 8 + d.num = h
  have f0 : bits h 0 3 = d.num := field (by omega)
  have f1 : bits h 3 3 = s.num := field (by omega)
  have f2 : bits h 6 4 = 14 := field (by omega)
  have f3 : bits h 10 2 = 0 := field (by omega)
  have f4 : bits h 12 4 = 4 := field (by omega)
  have f5 : bit h 9 = true := bit_of_one (by omega)
  simp [decodeAlu2op, decode4, decode16, f0, f1, f2, f3, f4, f5, dreg_lt s, dreg_lt d]

theorem RoundTrip.negDregOpt (sat : Bool) (d s : DReg) : RoundTrip.Statement (.negDregOpt sat d s) := by
  intro _
  have := b2n_lt sat; have := dreg_lt d; have := dreg_lt s
  exact alu_law 0 7 1 1 3 (b2n sat) 0 d.num 0 s.num 0 (by omega) rfl (by intros; simp [decodeAlu, *])

theorem RoundTrip.accSumDiff (f sat : Bool) (d1 d0 : DReg) : RoundTrip.Statement (.accSumDiff f sat d1 d0) := by
  intro _
  have := b2n_lt f; have := b2n_lt sat; have := dreg_lt d0; have := dreg_lt d1
  exact alu_law 0 17 0 (b2n f) (b2n f) (b2n sat) 0 d0.num d1.num 0 0 (by omega) rfl (by intros; simp [decodeAlu, *])

theorem RoundTrip.addHalf (sat : Bool) (dh : Half) (d : DReg) (sh th : Half) (s t : DReg) : RoundTrip.Statement (.addHalf sat dh d sh th s t) := by
  intro _
  have := half_lt dh; have := half_lt sh; have := half_lt th; have := b2n_lt sat; have := dreg_lt d; have := dreg_lt s; have := dreg_lt t
  exact alu_law dh.num 2 sh.num th.num (sh.num * 2 + th.num) (b2n sat) 0 d.num 0 s.num t.num (by omega) rfl (by intros; simp [decodeAlu, *])

theorem RoundTrip.subHalf (sat : Bool) (dh : Half) (d : DReg) (sh th : Half) (s t : DReg) : RoundTrip.Statement (.subHalf sat dh d sh th s t) := by
  intro _
  have := half_lt dh; have := half_lt sh; have := half_lt th; have := b2n_lt sat; have := dreg_lt d; have := dreg_lt s; have := dreg_lt t
  exact alu_law dh.num 3 sh.num th.num (sh.num * 2 + th.num) (b2n sat) 0 d.num 0 s.num t.num (by omega) rfl (by intros; simp [decodeAlu, *])

theorem RoundTrip.vecAddAdd (sat x : Bool) (d s t : DReg) : RoundTrip.Statement (.vecAddAdd sat x d s t) := by
  intro _
  have := b2n_lt sat; have := b2n_lt x; have := dreg_lt d; have := dreg_lt s; have := dreg_lt t
  exact alu_law 0 0 0 0 0 (b2n sat) (b2n x) d.num 0 s.num t.num (by omega) rfl (by intros; simp [decodeAlu, *])

theorem RoundTrip.vecAddSub (sat x : Bool) (d s t : DReg) : RoundTrip.Statement (.vecAddSub sat x d s t) := by
  intro _
  have := b2n_lt sat; have := b2n_lt x; have := dreg_lt d; have := dreg_lt s; have := dreg_lt t
  exact alu_law 0 0 0 1 1 (b2n sat) (b2n x) d.num 0 s.num t.num (by omega) rfl (by intros; simp [decodeAlu, *])

theorem RoundTrip.vecSubAdd (sat x : Bool) (d s t : DReg) : RoundTrip.Statement (.vecSubAdd sat x d s t) := by
  intro _
  have := b2n_lt sat; have := b2n_lt x; have := dreg_lt d; have := dreg_lt s; have := dreg_lt t
  exact alu_law 0 0 1 0 2 (b2n sat) (b2n x) d.num 0 s.num t.num (by omega) rfl (by intros; simp [decodeAlu, *])

theorem RoundTrip.vecSubSub (sat x : Bool) (d s t : DReg) : RoundTrip.Statement (.vecSubSub sat x d s t) := by
  intro _
  have := b2n_lt sat; have := b2n_lt x; have := dreg_lt d; have := dreg_lt s; have := dreg_lt t
  exact alu_law 0 0 1 1 3 (b2n sat) (b2n x) d.num 0 s.num t.num (by omega) rfl (by intros; simp [decodeAlu, *])

theorem RoundTrip.quadAddSub (q : QuadScale) (sat x : Bool) (d1 d0 s t : DReg) : RoundTrip.Statement (.quadAddSub q sat x d1 d0 s t) := by
  intro _
  have := quadScale_lt q; have := b2n_lt sat; have := b2n_lt x; have := dreg_lt d0; have := dreg_lt d1; have := dreg_lt s; have := dreg_lt t
  exact alu_law 0 1 (q.num / 2) (q.num % 2) q.num (b2n sat) (b2n x) d0.num d1.num s.num t.num (by omega) rfl (by intros; simp [decodeAlu, *])

theorem RoundTrip.quadAddSubCross (q : QuadScale) (sat x : Bool) (d1 d0 s t : DReg) : RoundTrip.Statement (.quadAddSubCross q sat x d1 d0 s t) := by
  intro _
  have := quadScale_lt q; have := b2n_lt sat; have := b2n_lt x; have := dreg_lt d0; have := dreg_lt d1; have := dreg_lt s; have := dreg_lt t
  exact alu_law 1 1 (q.num / 2) (q.num % 2) q.num (b2n sat) (b2n x) d0.num d1.num s.num t.num (by omega) rfl (by intros; simp [decodeAlu, *])

theorem RoundTrip.accAdd (w : Bool) : RoundTrip.Statement (.accAdd w) := by
  intro _
  have := b2n_lt w
  exact alu_law 0 11 1 0 2 (b2n w) 0 0 0 0 0 (by omega) rfl (by intros; simp [decodeAlu, *])

theorem RoundTrip.accSub (w : Bool) : RoundTrip.Statement (.accSub w) := by
  intro _
  have := b2n_lt w
  exact alu_law 0 11 1 1 3 (b2n w) 0 0 0 0 0 (by omega) rfl (by intros; simp [decodeAlu, *])

theorem RoundTrip.dregAccAdd (d : DReg) : RoundTrip.Statement (.dregAccAdd d) := by
  intro _
  have := dreg_lt d
  exact alu_law 0 11 0 0 0 0 0 d.num 0 0 0 (by omega) rfl (by intros; simp [decodeAlu, *])

theorem RoundTrip.dregHalfAccAdd (dh : Half) (d : DReg) : RoundTrip.Statement (.dregHalfAccAdd dh d) := by
  intro _
  have := half_lt dh; have := dreg_lt d
  exact alu_law dh.num 11 0 1 1 0 0 d.num 0 0 0 (by omega) rfl (by intros; simp [decodeAlu, *])

theorem RoundTrip.negAcc (d s : AccN) : RoundTrip.Statement (.negAcc d s) := by
  intro _
  have := accN_lt d
  cases s
  · exact alu_law d.num 14 0 0 0 0 0 0 0 0 0 (by omega) rfl (by intros; simp [decodeAlu, *])
  · exact alu_law d.num 14 0 1 1 0 0 0 0 0 0 (by omega) rfl (by intros; simp [decodeAlu, *])

theorem RoundTrip.negAccBoth : RoundTrip.Statement (.negAccBoth) := by
  intro _
  exact alu_law 0 14 1 1 3 0 0 0 0 0 0 (by omega) rfl (by intros; simp [decodeAlu, *])

theorem RoundTrip.absAcc (d s : AccN) : RoundTrip.Statement (.absAcc d s) := by
  intro _
  have := accN_lt d
  cases s
  · exact alu_law d.num 16 0 0 0 0 0 0 0 0 0 (by omega) rfl (by intros; simp [decodeAlu, *])
  · exact alu_law d.num 16 0 1 1 0 0 0 0 0 0 (by omega) rfl (by intros; simp [decodeAlu, *])

theorem RoundTrip.absAccBoth : RoundTrip.Statement (.absAccBoth) := by
  intro _
  exact alu_law 0 16 1 1 3 0 0 0 0 0 0 (by omega) rfl (by intros; simp [decodeAlu, *])

theorem RoundTrip.satAcc (a : AccN) : RoundTrip.Statement (.satAcc a) := by
  intro _
  cases a
  · exact alu_law 0 8 0 0 0 1 0 0 0 0 0 (by omega) rfl (by intros; simp [decodeAlu, *])
  · exact alu_law 0 8 0 1 1 1 0 0 0 0 0 (by omega) rfl (by intros; simp [decodeAlu, *])

theorem RoundTrip.satAccBoth : RoundTrip.Statement (.satAccBoth) := by
  intro _
  exact alu_law 0 8 1 0 2 1 0 0 0 0 0 (by omega) rfl (by intros; simp [decodeAlu, *])

theorem RoundTrip.divs (d s : DReg) : RoundTrip.Statement (.divs d s) := by
  intro _
  have := dreg_lt s; have := dreg_lt d
  refine law16 (u := 16960 + s.num * 8 + d.num) rfl (by omega) ?_
  generalize hh : 16960 + s.num * 8 + d.num = h
  have f0 : bits h 0 3 = d.num := field (by omega)
  have f1 : bits h 3 3 = s.num := field (by omega)
  have f2 : bits h 6 4 = 9 := field (by omega)
  have f3 : bits h 10 2 = 0 := field (by omega)
  have f4 : bits h 12 4 = 4 := field (by omega)
  have f5 : bit h 9 = true := bit_of_one (by omega)
  simp [decodeAlu2op, decode4, decode16, f0, f1, f2, f3, f4, f5, dreg_lt s, dreg_lt d]

theorem RoundTrip.divq (d s : DReg) : RoundTrip.Statement (.divq d s) := by
  intro _
  have := dreg_lt s; have := dreg_lt d
  refine law16 (u := 16896 + s.num * 8 + d.num) rfl (by omega) ?_
  generalize hh : 16896 + s.num * 8 + d.num = h
  have f0 : bits h 0 3 = d.num := field (by omega)
  have f1 : bits h 3 3 = s.num := field (by omega)
  have f2 : bits h 6 4 = 8 := field (by omega)
  have f3 : bits h 10 2 = 0 := field (by omega)
  have f4 : bits h 12 4 = 4 := field (by omega)
  have f5 : bit h 9 = true := bit_of_one (by omega)
  simp [decodeAlu2op, decode4, decode16, f0, f1, f2, f3, f4, f5, dreg_lt s, dreg_lt d]

theorem RoundTrip.maxDreg (d s t : DReg) : RoundTrip.Statement (.maxDreg d s t) := by
  intro _
  have := dreg_lt d; have := dreg_lt s; have := dreg_lt t
  exact alu_law 0 7 0 0 0 0 0 d.num 0 s.num t.num (by omega) rfl (by intros; simp [decodeAlu, *])

theorem RoundTrip.maxVec (d s t : DReg) : RoundTrip.Statement (.maxVec d s t) := by
  intro _
  have := dreg_lt d; have := dreg_lt s; have := dreg_lt t
  exact alu_law 0 6 0 0 0 0 0 d.num 0 s.num t.num (by omega) rfl (by intros; simp [decodeAlu, *])

theorem RoundTrip.minDreg (d s t : DReg) : RoundTrip.Statement (.minDreg d s t) := by
  intro _
  have := dreg_lt d; have := dreg_lt s; have := dreg_lt t
  exact alu_law 0 7 0 1 1 0 0 d.num 0 s.num t.num (by omega) rfl (by intros; simp [decodeAlu, *])

theorem RoundTrip.minVec (d s t : DReg) : RoundTrip.Statement (.minVec d s t) := by
  intro _
  have := dreg_lt d; have := dreg_lt s; have := dreg_lt t
  exact alu_law 0 6 0 1 1 0 0 d.num 0 s.num t.num (by omega) rfl (by intros; simp [decodeAlu, *])

theorem RoundTrip.absDreg (d s : DReg) : RoundTrip.Statement (.absDreg d s) := by
  intro _
  have := dreg_lt d; have := dreg_lt s
  exact alu_law 0 7 1 0 2 0 0 d.num 0 s.num 0 (by omega) rfl (by intros; simp [decodeAlu, *])

theorem RoundTrip.absVec (d s : DReg) : RoundTrip.Statement (.absVec d s) := by
  intro _
  have := dreg_lt d; have := dreg_lt s
  exact alu_law 0 6 1 0 2 0 0 d.num 0 s.num 0 (by omega) rfl (by intros; simp [decodeAlu, *])

theorem RoundTrip.roundHalf (dh : Half) (d s : DReg) : RoundTrip.Statement (.roundHalf dh d s) := by
  intro _
  have := half_lt dh; have := dreg_lt d; have := dreg_lt s
  exact alu_law dh.num 12 1 1 3 0 0 d.num 0 s.num 0 (by omega) rfl (by intros; simp [decodeAlu, *])

theorem RoundTrip.addRnd12 (dh : Half) (d s t : DReg) : RoundTrip.Statement (.addRnd12 dh d s t) := by
  intro _
  have := half_lt dh; have := dreg_lt d; have := dreg_lt s; have := dreg_lt t
  exact alu_law dh.num 5 0 0 0 0 0 d.num 0 s.num t.num (by omega) rfl (by intros; simp [decodeAlu, *])

theorem RoundTrip.subRnd12 (dh : Half) (d s t : DReg) : RoundTrip.Statement (.subRnd12 dh d s t) := by
  intro _
  have := half_lt dh; have := dreg_lt d; have := dreg_lt s; have := dreg_lt t
  exact alu_law dh.num 5 0 1 1 0 0 d.num 0 s.num t.num (by omega) rfl (by intros; simp [decodeAlu, *])

theorem RoundTrip.addRnd20 (dh : Half) (d s t : DReg) : RoundTrip.Statement (.addRnd20 dh d s t) := by
  intro _
  have := half_lt dh; have := dreg_lt d; have := dreg_lt s; have := dreg_lt t
  exact alu_law dh.num 5 1 0 2 0 0 d.num 0 s.num t.num (by omega) rfl (by intros; simp [decodeAlu, *])

theorem RoundTrip.subRnd20 (dh : Half) (d s t : DReg) : RoundTrip.Statement (.subRnd20 dh d s t) := by
  intro _
  have := half_lt dh; have := dreg_lt d; have := dreg_lt s; have := dreg_lt t
  exact alu_law dh.num 5 1 1 3 0 0 d.num 0 s.num t.num (by omega) rfl (by intros; simp [decodeAlu, *])

theorem RoundTrip.signbitsDreg (d s : DReg) : RoundTrip.Statement (.signbitsDreg d s) := by
  intro _
  have := dreg_lt d; have := dreg_lt s
  exact shift_law 5 0 0 0 0 0 0 d.num 0 s.num (by omega) rfl (by intros; simp [decodeShift, *])

theorem RoundTrip.signbitsHalf (d : DReg) (sh : Half) (s : DReg) : RoundTrip.Statement (.signbitsHalf d sh s) := by
  intro _
  have := dreg_lt d; have := dreg_lt s
  cases sh
  · exact shift_law 5 0 1 1 0 0 0 d.num 0 s.num (by omega) rfl (by intros; simp [decodeShift, *])
  · exact shift_law 5 1 0 2 0 0 0 d.num 0 s.num (by omega) rfl (by intros; simp [decodeShift, *])

theorem RoundTrip.signbitsAcc (d : DReg) (a : AccN) : RoundTrip.Statement (.signbitsAcc d a) := by
  intro _
  have := dreg_lt d
  cases a
  · exact shift_law 6 0 0 0 0 0 0 d.num 0 0 (by omega) rfl (by intros; simp [decodeShift, *])
  · exact shift_law 6 0 1 1 0 0 0 d.num 0 0 (by omega) rfl (by intros; simp [decodeShift, *])

theorem RoundTrip.expadjVec (d v c : DReg) : RoundTrip.Statement (.expadjVec d v c) := by
  intro _
  have := dreg_lt d; have := dreg_lt c; have := dreg_lt v
  exact shift_law 7 0 1 1 0 0 0 d.num c.num v.num (by omega) rfl (by intros; simp [decodeShift, *])

theorem RoundTrip.expadj (e : ExpSel) (d v c : DReg) : RoundTrip.Statement (.expadj e d v c) := by
  intro _
  have := dreg_lt d; have := dreg_lt v; have := dreg_lt c
  cases e
  · exact shift_law 7 0 0 0 0 0 0 d.num c.num v.num (by omega) rfl (by intros; simp [decodeShift, *])
  · exact shift_law 7 1 0 2 0 0 0 d.num c.num v.num (by omega) rfl (by intros; simp [decodeShift, *])
  · exact shift_law 7 1 1 3 0 0 0 d.num c.num v.num (by omega) rfl (by intros; simp [decodeShift, *])

theorem RoundTrip.andDreg (d s t : DReg) : RoundTrip.Statement (.andDreg d s t) := by
  intro _
  have := dreg_lt d; have := dreg_lt t; have := dreg_lt s
  refine law16 (u := 21504 + d.num * 64 + t.num * 8 + s.num) rfl (by omega) ?_
  generalize hh : 21504 + d.num * 64 + t.num * 8 + s.num = h
  have f0 : bits h 0 3 = s.num := field (by omega)
  have f1 : bits h 3 3 = t.num := field (by omega)
  have f2 : bits h 6 3 = d.num := field (by omega)
  have f3 : bits h 9 3 = 2 := field (by omega)
  have f4 : bits h 12 4 = 5 := field (by omega)
  simp [decodeComp3op, decode16, f0, f1, f2, f3, f4, dreg_lt d, dreg_lt t, dreg_lt s]

theorem RoundTrip.notDreg (d s : DReg) : RoundTrip.Statement (.notDreg d s) := by
  intro _
  have := dreg_lt s; have := dreg_lt d
  refine law16 (u := 17344 + s.num * 8 + d.num) rfl (by omega) ?_
  generalize hh : 17344 + s.num * 8 + d.num = h
  have f0 : bits h 0 3 = d.num := field (by omega)
  have f1 : bits h 3 3 = s.num := field (by omega)
  have f2 : bits h 6 4 = 15 := field (by omega)
  have f3 : bits h 10 2 = 0 := field (by omega)
  have f4 : bits h 12 4 = 4 := field (by omega)
  have f5 : bit h 9 = true := bit_of_one (by omega)
  simp [decodeAlu2op, decode4, decode16, f0, f1, f2, f3, f4, f5, dreg_lt s, dreg_lt d]

theorem RoundTrip.orDreg (d s t : DReg) : RoundTrip.Statement (.orDreg d s t) := by
  intro _
  have := dreg_lt d; have := dreg_lt t; have := dreg_lt s
  refine law16 (u := 22016 + d.num * 64 + t.num * 8 + s.num) rfl (by omega) ?_
  generalize hh : 22016 + d.num * 64 + t.num * 8 + s.num = h
  have f0 : bits h 0 3 = s.num := field (by omega)
  have f1 : bits h 3 3 = t.num := field (by omega)
  have f2 : bits h 6 3 = d.num := field (by omega)
  have f3 : bits h 9 3 = 3 := field (by omega)
  have f4 : bits h 12 4 = 5 := field (by omega)
  simp [decodeComp3op, decode16, f0, f1, f2, f3, f4, dreg_lt d, dreg_lt t, dreg_lt s]

theorem RoundTrip.xorDreg (d s t : DReg) : RoundTrip.Statement (.xorDreg d s t) := by
  intro _
  have := dreg_lt d; have := dreg_lt t; have := dreg_lt s
  refine law16 (u := 22528 + d.num * 64 + t.num * 8 + s.num) rfl (by omega) ?_
  generalize hh : 22528 + d.num * 64 + t.num * 8 + s.num = h
  have f0 : bits h 0 3 = s.num := field (by omega)
  have f1 : bits h 3 3 = t.num := field (by omega)
  have f2 : bits h 6 3 = d.num := field (by omega)
  have f3 : bits h 9 3 = 4 := field (by omega)
  have f4 : bits h 12 4 = 5 := field (by omega)
  simp [decodeComp3op, decode16, f0, f1, f2, f3, f4, dreg_lt d, dreg_lt t, dreg_lt s]

theorem RoundTrip.cmpEqDreg (x : DReg) (y : DRegImm3) : RoundTrip.Statement (.cmpEqDreg x y) := by
  intro _
  rcases y with z | z
  · have := dreg_lt z; have := dreg_lt x
    refine law16 (u := 2048 + z.num * 8 + x.num) rfl (by omega) ?_
    generalize hh : 2048 + z.num * 8 + x.num = h
    have f0 : bits h 0 3 = x.num := field (by omega)
    have f1 : bits h 3 3 = z.num := field (by omega)
    have f2 : bits h 5 3 = (z.num / 4) := field (by omega)
    have f3 : bits h 6 2 = 0 := field (by omega)
    have f4 : bits h 7 3 = 0 := field (by omega)
    have f5 : bits h 8 3 = 0 := field (by omega)
    have f6 : bits h 8 4 = 8 := field (by omega)
    have f7 : bits h 12 4 = 0 := field (by omega)
    have f8 : bit h 6 = false := bit_of_zero (by omega)
    have f9 : bit h 7 = false := bit_of_zero (by omega)
    have f10 : bit h 10 = false := bit_of_zero (by omega)
    simp [decodeCcFlag, decode0, decode16, f0, f1, f2, f3, f4, f5, f6, f7, f8, f9, f10]
  · have := z.isLt; have := dreg_lt x
    refine law16 (u := 3072 + z.toNat * 8 + x.num) (by simp only [encode, DRegImm3.code]; congr 1; omega) (by omega) ?_
    generalize hh : 3072 + z.toNat * 8 + x.num = h
    have f0 : bits h 0 3 = x.num := field (by omega)
    have f1 : bits h 3 3 = z.toNat := field (by omega)
    have f2 : bits h 5 3 = (z.toNat / 4) := field (by omega)
    have f3 : bits h 6 2 = 0 := field (by omega)
    have f4 : bits h 7 3 = 0 := field (by omega)
    have f5 : bits h 8 3 = 4 := field (by omega)
    have f6 : bits h 8 4 = 12 := field (by omega)
    have f7 : bits h 12 4 = 0 := field (by omega)
    have f8 : bit h 6 = false := bit_of_zero (by omega)
    have f9 : bit h 7 = false := bit_of_zero (by omega)
    have f10 : bit h 10 = true := bit_of_one (by omega)
    simp [decodeCcFlag, decode0, decode16, f0, f1, f2, f3, f4, f5, f6, f7, f8, f9, f10]

theorem RoundTrip.cmpLtDreg (x : DReg) (y : DRegImm3) : RoundTrip.Statement (.cmpLtDreg x y) := by
  intro _
  rcases y with z | z
  · have := dreg_lt z; have := dreg_lt x
    refine law16 (u := 2176 + z.num * 8 + x.num) rfl (by omega) ?_
    generalize hh : 2176 + z.num * 8 + x.num = h
    have f0 : bits h 0 3 = x.num := field (by omega)
    have f1 : bits h 3 3 = z.num := field (by omega)
    have f2 : bits h 5 3 = 4 + (z.num / 4) := field (by omega)
    have f3 : bits h 6 2 = 2 := field (by omega)
    have f4 : bits h 7 3 = 1 := field (by omega)
    have f5 : bits h 8 3 = 0 := field (by omega)
    have f6 : bits h 8 4 = 8 := field (by omega)
    have f7 : bits h 12 4 = 0 := field (by omega)
    have f8 : bit h 6 = false := bit_of_zero (by omega)
    have f9 : bit h 7 = true := bit_of_one (by omega)
    have f10 : bit h 10 = false := bit_of_zero (by omega)
    simp [decodeCcFlag, decode0, decode16, f0, f1, f2, f3, f4, f5, f6, f7, f8, f9, f10]
  · have := z.isLt; have := dreg_lt x
    refine law16 (u := 3200 + z.toNat * 8 + x.num) (by simp only [encode, DRegImm3.code]; congr 1; omega) (by omega) ?_
    generalize hh : 3200 + z.toNat * 8 + x.num = h
    have f0 : bits h 0 3 = x.num := field (by omega)
    have f1 : bits h 3 3 = z.toNat := field (by omega)
    have f2 : bits h 5 3 = 4 + (z.toNat / 4) := field (by omega)
    have f3 : bits h 6 2 = 2 := field (by omega)
    have f4 : bits h 7 3 = 1 := field (by omega)
    have f5 : bits h 8 3 = 4 := field (by omega)
    have f6 : bits h 8 4 = 12 := field (by omega)
    have f7 : bits h 12 4 = 0 := field (by omega)
    have f8 : bit h 6 = false := bit_of_zero (by omega)
    have f9 : bit h 7 = true := bit_of_one (by omega)
    have f10 : bit h 10 = true := bit_of_one (by omega)
    simp [decodeCcFlag, decode0, decode16, f0, f1, f2, f3, f4, f5, f6, f7, f8, f9, f10]

theorem RoundTrip.cmpLeDreg (x : DReg) (y : DRegImm3) : RoundTrip.Statement (.cmpLeDreg x y) := by
  intro _
  rcases y with z | z
  · have := dreg_lt z; have := dreg_lt x
    refine law16 (u := 2304 + z.num * 8 + x.num) rfl (by omega) ?_
    generalize hh : 2304 + z.num * 8 + x.num = h
    have f0 : bits h 0 3 = x.num := field (by omega)
    have f1 : bits h 3 3 = z.num := field (by omega)
    have f2 : bits h 5 3 = (z.num / 4) := field (by omega)
    have f3 : bits h 6 2 = 0 := field (by omega)
    have f4 : bits h 7 3 = 2 := field (by omega)
    have f5 : bits h 8 3 = 1 := field (by omega)
    have f6 : bits h 8 4 = 9 := field (by omega)
    have f7 : bits h 12 4 = 0 := field (by omega)
    have f8 : bit h 6 = false := bit_of_zero (by omega)
    have f9 : bit h 7 = false := bit_of_zero (by omega)
    have f10 : bit h 10 = false := bit_of_zero (by omega)
    simp [decodeCcFlag, decode0, decode16, f0, f1, f2, f3, f4, f5, f6, f7, f8, f9, f10]
  · have := z.isLt; have := dreg_lt x
    refine law16 (u := 3328 + z.toNat * 8 + x.num) (by simp only [encode, DRegImm3.code]; congr 1; omega) (by omega) ?_
    generalize hh : 3328 + z.toNat * 8 + x.num = h
    have f0 : bits h 0 3 = x.num := field (by omega)
    have f1 : bits h 3 3 = z.toNat := field (by omega)
    have f2 : bits h 5 3 = (z.toNat / 4) := field (by omega)
    have f3 : bits h 6 2 = 0 := field (by omega)
    have f4 : bits h 7 3 = 2 := field (by omega)
    have f5 : bits h 8 3 = 5 := field (by omega)
    have f6 : bits h 8 4 = 13 := field (by omega)
    have f7 : bits h 12 4 = 0 := field (by omega)
    have f8 : bit h 6 = false := bit_of_zero (by omega)
    have f9 : bit h 7 = false := bit_of_zero (by omega)
    have f10 : bit h 10 = true := bit_of_one (by omega)
    simp [decodeCcFlag, decode0, decode16, f0, f1, f2, f3, f4, f5, f6, f7, f8, f9, f10]

theorem RoundTrip.cmpLtuDreg (x : DReg) (y : DRegImm3) : RoundTrip.Statement (.cmpLtuDreg x y) := by
  intro _
  rcases y with z | z
  · have := dreg_lt z; have := dreg_lt x
    refine law16 (u := 2432 + z.num * 8 + x.num) rfl (by omega) ?_
    generalize hh : 2432 + z.num * 8 + x.num = h
    have f0 : bits h 0 3 = x.num := field (by omega)
    have f1 : bits h 3 3 = z.num := field (by omega)
    have f2 : bits h 5 3 = 4 + (z.num / 4) := field (by omega)
    have f3 : bits h 6 2 = 2 := field (by omega)
    have f4 : bits h 7 3 = 3 := field (by omega)
    have f5 : bits h 8 3 = 1 := field (by omega)
    have f6 : bits h 8 4 = 9 := field (by omega)
    have f7 : bits h 12 4 = 0 := field (by omega)
    have f8 : bit h 6 = false := bit_of_zero (by omega)
    have f9 : bit h 7 = true := bit_of_one (by omega)
    have f10 : bit h 10 = false := bit_of_zero (by omega)
    simp [decodeCcFlag, decode0, decode16, f0, f1, f2, f3, f4, f5, f6, f7, f8, f9, f10]
  · have := z.isLt; have := dreg_lt x
    refine law16 (u := 3456 + z.toNat * 8 + x.num) (by simp only [encode, DRegImm3.code]; congr 1; omega) (by omega) ?_
    generalize hh : 3456 + z.toNat * 8 + x.num = h
    have f0 : bits h 0 3 = x.num := field (by omega)
    have f1 : bits h 3 3 = z.toNat := field (by omega)
    have f2 : bits h 5 3 = 4 + (z.toNat / 4) := field (by omega)
    have f3 : bits h 6 2 = 2 := field (by omega)
    have f4 : bits h 7 3 = 3 := field (by omega)
    have f5 : bits h 8 3 = 5 := field (by omega)
    have f6 : bits h 8 4 = 13 := field (by omega)
    have f7 : bits h 12 4 = 0 := field (by omega)
    have f8 : bit h 6 = false := bit_of_zero (by omega)
    have f9 : bit h 7 = true := bit_of_one (by omega)
    have f10 : bit h 10 = true := bit_of_one (by omega)
    simp [decodeCcFlag, decode0, decode16, f0, f1, f2, f3, f4, f5, f6, f7, f8, f9, f10]

theorem RoundTrip.cmpLeuDreg (x : DReg) (y : DRegImm3) : RoundTrip.Statement (.cmpLeuDreg x y) := by
  intro _
  rcases y with z | z
  · have := dreg_lt z; have := dreg_lt x
    refine law16 (u := 2560 + z.num * 8 + x.num) rfl (by omega) ?_
    generalize hh : 2560 + z.num * 8 + x.num = h
    have f0 : bits h 0 3 = x.num := field (by omega)
    have f1 : bits h 3 3 = z.num := field (by omega)
    have f2 : bits h 5 3 = (z.num / 4) := field (by omega)
    have f3 : bits h 6 2 = 0 := field (by omega)
    have f4 : bits h 7 3 = 4 := field (by omega)
    have f5 : bits h 8 3 = 2 := field (by omega)
    have f6 : bits h 8 4 = 10 := field (by omega)
    have f7 : bits h 12 4 = 0 := field (by omega)
    have f8 : bit h 6 = false := bit_of_zero (by omega)
    have f9 : bit h 7 = false := bit_of_zero (by omega)
    have f10 : bit h 10 = false := bit_of_zero (by omega)
    simp [decodeCcFlag, decode0, decode16, f0, f1, f2, f3, f4, f5, f6, f7, f8, f9, f10]
  · have := z.isLt; have := dreg_lt x
    refine law16 (u := 3584 + z.toNat * 8 + x.num) (by simp only [encode, DRegImm3.code]; congr 1; omega) (by omega) ?_
    generalize hh : 3584 + z.toNat * 8 + x.num = h
    have f0 : bits h 0 3 = x.num := field (by omega)
    have f1 : bits h 3 3 = z.toNat := field (by omega)
    have f2 : bits h 5 3 = (z.toNat / 4) := field (by omega)
    have f3 : bits h 6 2 = 0 := field (by omega)
    have f4 : bits h 7 3 = 4 := field (by omega)
    have f5 : bits h 8 3 = 6 := field (by omega)
    have f6 : bits h 8 4 = 14 := field (by omega)
    have f7 : bits h 12 4 = 0 := field (by omega)
    have f8 : bit h 6 = false := bit_of_zero (by omega)
    have f9 : bit h 7 = false := bit_of_zero (by omega)
    have f10 : bit h 10 = true := bit_of_one (by omega)
    simp [decodeCcFlag, decode0, decode16, f0, f1, f2, f3, f4, f5, f6, f7, f8, f9, f10]

theorem RoundTrip.cmpPreg (op : CmpOp) (x : PReg) (y : PRegImm3) : RoundTrip.Statement (.cmpPreg op x y) := by
  intro _
  rcases y with z | z
  · have := cmpOp_lt op; have := preg_lt z; have := preg_lt x
    refine law16 (u := 2112 + op.num * 128 + z.num * 8 + x.num) rfl (by omega) ?_
    generalize hh : 2112 + op.num * 128 + z.num * 8 + x.num = h
    have f0 : bits h 0 3 = x.num := field (by omega)
    have f1 : bits h 3 3 = z.num := field (by omega)
    have f2 : bits h 5 3 = 2 + (op.num % 2) * 4 + (z.num / 4) := field (by omega)
    have f3 : bits h 6 2 = 1 + (op.num % 2) * 2 := field (by omega)
    have f4 : bits h 7 3 = op.num := field (by omega)
    have f5 : bits h 8 3 = (op.num / 2) := field (by omega)
    have f6 : bits h 8 4 = 8 + (op.num / 2) := field (by omega)
    have f7 : bits h 12 4 = 0 := field (by omega)
    have f8 : bit h 6 = true := bit_of_one (by omega)
    have f9 : bit h 7 = decide (op.num % 2 = 1) := bit_of (by omega)
    have f10 : bit h 10 = false := bit_of_zero (by omega)
    simp [decodeCcFlag, decode0, decode16, f0, f1, f2, f3, f4, f5, f6, f7, f8, f9, f10]
  · have := cmpOp_lt op; have := z.isLt; have := preg_lt x
    refine law16 (u := 3136 + op.num * 128 + z.toNat * 8 + x.num) (by simp only [encode, PRegImm3.code]; congr 1; omega) (by omega) ?_
    generalize hh : 3136 + op.num * 128 + z.toNat * 8 + x.num = h
    have f0 : bits h 0 3 = x.num := field (by omega)
    have f1 : bits h 3 3 = z.toNat := field (by omega)
    have f2 : bits h 5 3 = 2 + (op.num % 2) * 4 + (z.toNat / 4) := field (by omega)
    have f3 : bits h 6 2 = 1 + (op.num % 2) * 2 := field (by omega)
    have f4 : bits h 7 3 = op.num := field (by omega)
    have f5 : bits h 8 3 = 4 + (op.num / 2) := field (by omega)
    have f6 : bits h 8 4 = 12 + (op.num / 2) := field (by omega)
    have f7 : bits h 12 4 = 0 := field (by omega)
    have f8 : bit h 6 = true := bit_of_one (by omega)
    have f9 : bit h 7 = decide (op.num % 2 = 1) := bit_of (by omega)
    have f10 : bit h 10 = true := bit_of_one (by omega)
    simp [decodeCcFlag, decode0, decode16, f0, f1, f2, f3, f4, f5, f6, f7, f8, f9, f10]
    intro h8; omega

theorem RoundTrip.addShift1Dreg (d s : DReg) : RoundTrip.Statement (.addShift1Dreg d s) := by
  intro _
  have := dreg_lt s; have := dreg_lt d
  refine law16 (u := 16640 + s.num * 8 + d.num) rfl (by omega) ?_
  generalize hh : 16640 + s.num * 8 + d.num = h
  have f0 : bits h 0 3 = d.num := field (by omega)
  have f1 : bits h 3 3 = s.num := field (by omega)
  have f2 : bits h 6 4 = 4 := field (by omega)
  have f3 : bits h 10 2 = 0 := field (by omega)
  have f4 : bits h 12 4 = 4 := field (by omega)
  have f5 : bit h 9 = false := bit_of_zero (by omega)
  simp [decodeAlu2op, decode4, decode16, f0, f1, f2, f3, f4, f5, dreg_lt s, dreg_lt d]

theorem RoundTrip.addShift2Dreg (d s : DReg) : RoundTrip.Statement (.addShift2Dreg d s) := by
  intro _
  have := dreg_lt s; have := dreg_lt d
  refine law16 (u := 16704 + s.num * 8 + d.num) rfl (by omega) ?_
  generalize hh : 16704 + s.num * 8 + d.num = h
  have f0 : bits h 0 3 = d.num := field (by omega)
  have f1 : bits h 3 3 = s.num := field (by omega)
  have f2 : bits h 6 4 = 5 := field (by omega)
  have f3 : bits h 10 2 = 0 := field (by omega)
  have f4 : bits h 12 4 = 4 := field (by omega)
  have f5 : bit h 9 = false := bit_of_zero (by omega)
  simp [decodeAlu2op, decode4, decode16, f0, f1, f2, f3, f4, f5, dreg_lt s, dreg_lt d]

theorem RoundTrip.addShift1Preg (d s : PReg) : RoundTrip.Statement (.addShift1Preg d s) := by
  intro _
  have := preg_lt s; have := preg_lt d
  refine law16 (u := 17792 + s.num * 8 + d.num) rfl (by omega) ?_
  generalize hh : 17792 + s.num * 8 + d.num = h
  have f0 : bits h 0 3 = d.num := field (by omega)
  have f1 : bits h 3 3 = s.num := field (by omega)
  have f2 : bits h 6 3 = 6 := field (by omega)
  have f3 : bits h 10 2 = 1 := field (by omega)
  have f4 : bits h 12 4 = 4 := field (by omega)
  have f5 : bit h 9 = false := bit_of_zero (by omega)
  simp [decodePtr2op, decode4, decode16, f0, f1, f2, f3, f4, f5, preg_lt s, preg_lt d]

theorem RoundTrip.addShift2Preg (d s : PReg) : RoundTrip.Statement (.addShift2Preg d s) := by
  intro _
  have := preg_lt s; have := preg_lt d
  refine law16 (u := 17856 + s.num * 8 + d.num) rfl (by omega) ?_
  generalize hh : 17856 + s.num * 8 + d.num = h
  have f0 : bits h 0 3 = d.num := field (by omega)
  have f1 : bits h 3 3 = s.num := field (by omega)
  have f2 : bits h 6 3 = 7 := field (by omega)
  have f3 : bits h 10 2 = 1 := field (by omega)
  have f4 : bits h 12 4 = 4 := field (by omega)
  have f5 : bit h 9 = false := bit_of_zero (by omega)
  simp [decodePtr2op, decode4, decode16, f0, f1, f2, f3, f4, f5, preg_lt s, preg_lt d]

theorem RoundTrip.addShifted1Preg (d s t : PReg) : RoundTrip.Statement (.addShifted1Preg d s t) := by
  intro _
  have := preg_lt d; have := preg_lt t; have := preg_lt s
  refine law16 (u := 23552 + d.num * 64 + t.num * 8 + s.num) rfl (by omega) ?_
  generalize hh : 23552 + d.num * 64 + t.num * 8 + s.num = h
  have f0 : bits h 0 3 = s.num := field (by omega)
  have f1 : bits h 3 3 = t.num := field (by omega)
  have f2 : bits h 6 3 = d.num := field (by omega)
  have f3 : bits h 9 3 = 6 := field (by omega)
  have f4 : bits h 12 4 = 5 := field (by omega)
  simp [decodeComp3op, decode16, f0, f1, f2, f3, f4, preg_lt d, preg_lt t, preg_lt s]

theorem RoundTrip.addShifted2Preg (d s t : PReg) : RoundTrip.Statement (.addShifted2Preg d s t) := by
  intro _
  have := preg_lt d; have := preg_lt t; have := preg_lt s
  refine law16 (u := 24064 + d.num * 64 + t.num * 8 + s.num) rfl (by omega) ?_
  generalize hh : 24064 + d.num * 64 + t.num * 8 + s.num = h
  have f0 : bits h 0 3 = s.num := field (by omega)
  have f1 : bits h 3 3 = t.num := field (by omega)
  have f2 : bits h 6 3 = d.num := field (by omega)
  have f3 : bits h 9 3 = 7 := field (by omega)
  have f4 : bits h 12 4 = 5 := field (by omega)
  simp [decodeComp3op, decode16, f0, f1, f2, f3, f4, preg_lt d, preg_lt t, preg_lt s]

theorem RoundTrip.shl1Preg (d s : PReg) : RoundTrip.Statement (.shl1Preg d s) := by
  intro _
  exact preg3_law d s s rfl (by simp [pregSum])

theorem RoundTrip.shl2Preg (d s : PReg) : RoundTrip.Statement (.shl2Preg d s) := by
  intro _
  have := preg_lt s; have := preg_lt d
  refine law16 (u := 17472 + s.num * 8 + d.num) rfl (by omega) ?_
  generalize hh : 17472 + s.num * 8 + d.num = h
  have f0 : bits h 0 3 = d.num := field (by omega)
  have f1 : bits h 3 3 = s.num := field (by omega)
  have f2 : bits h 6 3 = 1 := field (by omega)
  have f3 : bits h 10 2 = 1 := field (by omega)
  have f4 : bits h 12 4 = 4 := field (by omega)
  have f5 : bit h 9 = false := bit_of_zero (by omega)
  simp [decodePtr2op, decode4, decode16, f0, f1, f2, f3, f4, f5, preg_lt s, preg_lt d]

theorem RoundTrip.shr2Preg (d s : PReg) : RoundTrip.Statement (.shr2Preg d s) := by
  intro _
  have := preg_lt s; have := preg_lt d
  refine law16 (u := 17600 + s.num * 8 + d.num) rfl (by omega) ?_
  generalize hh : 17600 + s.num * 8 + d.num = h
  have f0 : bits h 0 3 = d.num := field (by omega)
  have f1 : bits h 3 3 = s.num := field (by omega)
  have f2 : bits h 6 3 = 3 := field (by omega)
  have f3 : bits h 10 2 = 1 := field (by omega)
  have f4 : bits h 12 4 = 4 := field (by omega)
  have f5 : bit h 9 = false := bit_of_zero (by omega)
  simp [decodePtr2op, decode4, decode16, f0, f1, f2, f3, f4, f5, preg_lt s, preg_lt d]

theorem RoundTrip.shr1Preg (d s : PReg) : RoundTrip.Statement (.shr1Preg d s) := by
  intro _
  have := preg_lt s; have := preg_lt d
  refine law16 (u := 17664 + s.num * 8 + d.num) rfl (by omega) ?_
  generalize hh : 17664 + s.num * 8 + d.num = h
  have f0 : bits h 0 3 = d.num := field (by omega)
  have f1 : bits h 3 3 = s.num := field (by omega)
  have f2 : bits h 6 3 = 4 := field (by omega)
  have f3 : bits h 10 2 = 1 := field (by omega)
  have f4 : bits h 12 4 = 4 := field (by omega)
  have f5 : bit h 9 = false := bit_of_zero (by omega)
  simp [decodePtr2op, decode4, decode16, f0, f1, f2, f3, f4, f5, preg_lt s, preg_lt d]

theorem RoundTrip.mulLo (m : MMod) (d : DReg) (x : MulSrc) : RoundTrip.Statement (.mulLo m d x) := by
  intro _
  exact mult_law m false false false .low true ⟨x.sh, x.th⟩ d x.s x.t rfl (by intros; simp [decodeMult, *])

theorem RoundTrip.mulHi (m : MMod) (mm : Bool) (d : DReg) (x : MulSrc) : RoundTrip.Statement (.mulHi m mm d x) := by
  intro _
  exact mult_law m mm false true ⟨x.sh, x.th⟩ false .low d x.s x.t rfl (by intros; simp [decodeMult, *])

theorem RoundTrip.mulEven (m : MMod) (d : DReg) (x : MulSrc) : RoundTrip.Statement (.mulEven m d x) := by
  intro _
  exact mult_law m false true false .low true ⟨x.sh, x.th⟩ d x.s x.t rfl (by intros; simp [decodeMult, *])

theorem RoundTrip.mulOdd (m : MMod) (mm : Bool) (d : DReg) (x : MulSrc) : RoundTrip.Statement (.mulOdd m mm d x) := by
  intro _
  exact mult_law m mm true true ⟨x.sh, x.th⟩ false .low d x.s x.t rfl (by intros; simp [decodeMult, *])

theorem RoundTrip.mulDual (m : MMod) (mm pair : Bool) (d : DReg) (h1 h0 : HalfSel) (s t : DReg) : RoundTrip.Statement (.mulDual m mm pair d h1 h0 s t) := by
  intro _
  exact mult_law m mm pair true h1 true h0 d s t rfl (by intros; simp [decodeMult, *])

theorem RoundTrip.macA0Set (m : MMod) (x : MulSrc) : RoundTrip.Statement (.macA0Set m x) := by
  intro _
  exact mac_law m false false false .none .low false .set ⟨x.sh, x.th⟩ .r0 x.s x.t rfl (by simp [macInstr, macIsMnop, macIsMac0Only, macIsMac1Only, macIsMove, MacUnit.idle, MacUnit.selLow, HalfSel.low])

theorem RoundTrip.macA1Set (m : MMod) (mm : Bool) (x : MulSrc) : RoundTrip.Statement (.macA1Set m mm x) := by
  intro _
  exact mac_law m mm false false .set ⟨x.sh, x.th⟩ false .none .low .r0 x.s x.t rfl (by simp [macInstr, macIsMnop, macIsMac0Only, macIsMac1Only, macIsMove, MacUnit.idle, MacUnit.selLow, HalfSel.low])

theorem RoundTrip.macA0SetLo (m : MMod) (d : DReg) (x : MulSrc) : RoundTrip.Statement (.macA0SetLo m d x) := by
  intro _
  exact mac_law m false false false .none .low true .set ⟨x.sh, x.th⟩ d x.s x.t rfl (by simp [macInstr, macIsMnop, macIsMac0Only, macIsMac1Only, macIsMove, MacUnit.idle, MacUnit.selLow, HalfSel.low])

theorem RoundTrip.macA1SetHi (m : MMod) (mm : Bool) (d : DReg) (x : MulSrc) : RoundTrip.Statement (.macA1SetHi m mm d x) := by
  intro _
  exact mac_law m mm false true .set ⟨x.sh, x.th⟩ false .none .low d x.s x.t rfl (by simp [macInstr, macIsMnop, macIsMac0Only, macIsMac1Only, macIsMove, MacUnit.idle, MacUnit.selLow, HalfSel.low])

theorem RoundTrip.macA0SetEven (m : MMod) (d : DReg) (x : MulSrc) : RoundTrip.Statement (.macA0SetEven m d x) := by
  intro _
  exact mac_law m false true false .none .low true .set ⟨x.sh, x.th⟩ d x.s x.t rfl (by simp [macInstr, macIsMnop, macIsMac0Only, macIsMac1Only, macIsMove, MacUnit.idle, MacUnit.selLow, HalfSel.low])

theorem RoundTrip.macA1SetOdd (m : MMod) (mm : Bool) (d : DReg) (x : MulSrc) : RoundTrip.Statement (.macA1SetOdd m mm d x) := by
  intro _
  exact mac_law m mm true true .set ⟨x.sh, x.th⟩ false .none .low d x.s x.t rfl (by simp [macInstr, macIsMnop, macIsMac0Only, macIsMac1Only, macIsMove, MacUnit.idle, MacUnit.selLow, HalfSel.low])

theorem RoundTrip.macA0Add (m : MMod) (x : MulSrc) : RoundTrip.Statement (.macA0Add m x) := by
  intro _
  exact mac_law m false false false .none .low false .add ⟨x.sh, x.th⟩ .r0 x.s x.t rfl (by simp [macInstr, macIsMnop, macIsMac0Only, macIsMac1Only, macIsMove, MacUnit.idle, MacUnit.selLow, HalfSel.low])

theorem RoundTrip.macA1Add (m : MMod) (mm : Bool) (x : MulSrc) : RoundTrip.Statement (.macA1Add m mm x) := by
  intro _
  exact mac_law m mm false false .add ⟨x.sh, x.th⟩ false .none .low .r0 x.s x.t rfl (by simp [macInstr, macIsMnop, macIsMac0Only, macIsMac1Only, macIsMove, MacUnit.idle, MacUnit.selLow, HalfSel.low])

theorem RoundTrip.macA0AddLo (m : MMod) (d : DReg) (x : MulSrc) : RoundTrip.Statement (.macA0AddLo m d x) := by
  intro _
  exact mac_law m false false false .none .low true .add ⟨x.sh, x.th⟩ d x.s x.t rfl (by simp [macInstr, macIsMnop, macIsMac0Only, macIsMac1Only, macIsMove, MacUnit.idle, MacUnit.selLow, HalfSel.low])

theorem RoundTrip.macA1AddHi (m : MMod) (mm : Bool) (d : DReg) (x : MulSrc) : RoundTrip.Statement (.macA1AddHi m mm d x) := by
  intro _
  exact mac_law m mm false true .add ⟨x.sh, x.th⟩ false .none .low d x.s x.t rfl (by simp [macInstr, macIsMnop, macIsMac0Only, macIsMac1Only, macIsMove, MacUnit.idle, MacUnit.selLow, HalfSel.low])

theorem RoundTrip.macA0AddEven (m : MMod) (d : DReg) (x : MulSrc) : RoundTrip.Statement (.macA0AddEven m d x) := by
  intro _
  exact mac_law m false true false .none .low true .add ⟨x.sh, x.th⟩ d x.s x.t rfl (by simp [macInstr, macIsMnop, macIsMac0Only, macIsMac1Only, macIsMove, MacUnit.idle, MacUnit.selLow, HalfSel.low])

theorem RoundTrip.macA1AddOdd (m : MMod) (mm : Bool) (d : DReg) (x : MulSrc) : RoundTrip.Statement (.macA1AddOdd m mm d x) := by
  intro _
  exact mac_law m mm true true .add ⟨x.sh, x.th⟩ false .none .low d x.s x.t rfl (by simp [macInstr, macIsMnop, macIsMac0Only, macIsMac1Only, macIsMove, MacUnit.idle, MacUnit.selLow, HalfSel.low])

theorem RoundTrip.macA0Sub (m : MMod) (x : MulSrc) : RoundTrip.Statement (.macA0Sub m x) := by
  intro _
  exact mac_law m false false false .none .low false .sub ⟨x.sh, x.th⟩ .r0 x.s x.t rfl (by simp [macInstr, macIsMnop, macIsMac0Only, macIsMac1Only, macIsMove, MacUnit.idle, MacUnit.selLow, HalfSel.low])

theorem RoundTrip.macA1Sub (m : MMod) (mm : Bool) (x : MulSrc) : RoundTrip.Statement (.macA1Sub m mm x) := by
  intro _
  exact mac_law m mm false false .sub ⟨x.sh, x.th⟩ false .none .low .r0 x.s x.t rfl (by simp [macInstr, macIsMnop, macIsMac0Only, macIsMac1Only, macIsMove, MacUnit.idle, MacUnit.selLow, HalfSel.low])

theorem RoundTrip.macA0SubLo (m : MMod) (d : DReg) (x : MulSrc) : RoundTrip.Statement (.macA0SubLo m d x) := by
  intro _
  exact mac_law m false false false .none .low true .sub ⟨x.sh, x.th⟩ d x.s x.t rfl (by simp [macInstr, macIsMnop, macIsMac0Only, macIsMac1Only, macIsMove, MacUnit.idle, MacUnit.selLow, HalfSel.low])

theorem RoundTrip.macA1SubHi (m : MMod) (mm : Bool) (d : DReg) (x : MulSrc) : RoundTrip.Statement (.macA1SubHi m mm d x) := by
  intro _
  exact mac_law m mm false true .sub ⟨x.sh, x.th⟩ false .none .low d x.s x.t rfl (by simp [macInstr, macIsMnop, macIsMac0Only, macIsMac1Only, macIsMove, MacUnit.idle, MacUnit.selLow, HalfSel.low])

theorem RoundTrip.macA0SubEven (m : MMod) (d : DReg) (x : MulSrc) : RoundTrip.Statement (.macA0SubEven m d x) := by
  intro _
  exact mac_law m false true false .none .low true .sub ⟨x.sh, x.th⟩ d x.s x.t rfl (by simp [macInstr, macIsMnop, macIsMac0Only, macIsMac1Only, macIsMove, MacUnit.idle, MacUnit.selLow, HalfSel.low])

theorem RoundTrip.macA1SubOdd (m : MMod) (mm : Bool) (d : DReg) (x : MulSrc) : RoundTrip.Statement (.macA1SubOdd m mm d x) := by
  intro _
  exact mac_law m mm true true .sub ⟨x.sh, x.th⟩ false .none .low d x.s x.t rfl (by simp [macInstr, macIsMnop, macIsMac0Only, macIsMac1Only, macIsMove, MacUnit.idle, MacUnit.selLow, HalfSel.low])

theorem RoundTrip.macDual (m : MMod) (mm pair : Bool) (u1 u0 : MacUnit) (d s t : DReg) : RoundTrip.Statement (.macDual m mm pair u1 u0 d s t) := by
  intro wf
  simp only [Instr.spelled, macIsDual, Bool.and_eq_true, Bool.not_eq_true'] at wf
  obtain ⟨⟨⟨w1, w2⟩, w3⟩, w4⟩ := wf
  exact mac_law m mm pair u1.write u1.op u1.sel u0.write u0.op u0.sel d s t rfl (by simp [macInstr, w1, w2, w3, w4])

theorem RoundTrip.mulDreg (d s : DReg) : RoundTrip.Statement (.mulDreg d s) := by
  intro _
  have := dreg_lt s; have := dreg_lt d
  refine law16 (u := 16576 + s.num * 8 + d.num) rfl (by omega) ?_
  generalize hh : 16576 + s.num * 8 + d.num = h
  have f0 : bits h 0 3 = d.num := field (by omega)
  have f1 : bits h 3 3 = s.num := field (by omega)
  have f2 : bits h 6 4 = 3 := field (by omega)
  have f3 : bits h 10 2 = 0 := field (by omega)
  have f4 : bits h 12 4 = 4 := field (by omega)
  have f5 : bit h 9 = false := bit_of_zero (by omega)
  simp [decodeAlu2op, decode4, decode16, f0, f1, f2, f3, f4, f5, dreg_lt s, dreg_lt d]

theorem RoundTrip.bitclr (d : DReg) (n : BitVec 5) : RoundTrip.Statement (.bitclr d n) := by
  intro _
  have := n.isLt; have := dreg_lt d
  refine law16 (u := 19456 + n.toNat * 8 + d.num) rfl (by omega) ?_
  generalize hh : 19456 + n.toNat * 8 + d.num = h
  have f0 : bits h 0 3 = d.num := field (by omega)
  have f1 : bits h 3 5 = n.toNat := field (by omega)
  have f2 : bits h 8 3 = 4 := field (by omega)
  have f3 : bits h 10 2 = 3 := field (by omega)
  have f4 : bits h 12 4 = 4 := field (by omega)
  have f5 : bit h 9 = false := bit_of_zero (by omega)
  simp [decodeLogi2op, decode4, decode16, f0, f1, f2, f3, f4, f5, n.isLt, dreg_lt d]

theorem RoundTrip.bitset (d : DReg) (n : BitVec 5) : RoundTrip.Statement (.bitset d n) := by
  intro _
  have := n.isLt; have := dreg_lt d
  refine law16 (u := 18944 + n.toNat * 8 + d.num) rfl (by omega) ?_
  generalize hh : 18944 + n.toNat * 8 + d.num = h
  have f0 : bits h 0 3 = d.num := field (by omega)
  have f1 : bits h 3 5 = n.toNat := field (by omega)
  have f2 : bits h 8 3 = 2 := field (by omega)
  have f3 : bits h 10 2 = 2 := field (by omega)
  have f4 : bits h 12 4 = 4 := field (by omega)
  have f5 : bit h 9 = true := bit_of_one (by omega)
  simp [decodeLogi2op, decode4, decode16, f0, f1, f2, f3, f4, f5, n.isLt, dreg_lt d]

theorem RoundTrip.bittgl (d : DReg) (n : BitVec 5) : RoundTrip.Statement (.bittgl d n) := by
  intro _
  have := n.isLt; have := dreg_lt d
  refine law16 (u := 19200 + n.toNat * 8 + d.num) rfl (by omega) ?_
  generalize hh : 19200 + n.toNat * 8 + d.num = h
  have f0 : bits h 0 3 = d.num := field (by omega)
  have f1 : bits h 3 5 = n.toNat := field (by omega)
  have f2 : bits h 8 3 = 3 := field (by omega)
  have f3 : bits h 10 2 = 2 := field (by omega)
  have f4 : bits h 12 4 = 4 := field (by omega)
  have f5 : bit h 9 = true := bit_of_one (by omega)
  simp [decodeLogi2op, decode4, decode16, f0, f1, f2, f3, f4, f5, n.isLt, dreg_lt d]

theorem RoundTrip.ccBittst (s : DReg) (n : BitVec 5) : RoundTrip.Statement (.ccBittst s n) := by
  intro _
  have := n.isLt; have := dreg_lt s
  refine law16 (u := 18688 + n.toNat * 8 + s.num) rfl (by omega) ?_
  generalize hh : 18688 + n.toNat * 8 + s.num = h
  have f0 : bits h 0 3 = s.num := field (by omega)
  have f1 : bits h 3 5 = n.toNat := field (by omega)
  have f2 : bits h 8 3 = 1 := field (by omega)
  have f3 : bits h 10 2 = 2 := field (by omega)
  have f4 : bits h 12 4 = 4 := field (by omega)
  have f5 : bit h 9 = false := bit_of_zero (by omega)
  simp [decodeLogi2op, decode4, decode16, f0, f1, f2, f3, f4, f5, n.isLt, dreg_lt s]

theorem RoundTrip.ccNotBittst (s : DReg) (n : BitVec 5) : RoundTrip.Statement (.ccNotBittst s n) := by
  intro _
  have := n.isLt; have := dreg_lt s
  refine law16 (u := 18432 + n.toNat * 8 + s.num) rfl (by omega) ?_
  generalize hh : 18432 + n.toNat * 8 + s.num = h
  have f0 : bits h 0 3 = s.num := field (by omega)
  have f1 : bits h 3 5 = n.toNat := field (by omega)
  have f2 : bits h 8 3 = 0 := field (by omega)
  have f3 : bits h 10 2 = 2 := field (by omega)
  have f4 : bits h 12 4 = 4 := field (by omega)
  have f5 : bit h 9 = false := bit_of_zero (by omega)
  simp [decodeLogi2op, decode4, decode16, f0, f1, f2, f3, f4, f5, n.isLt, dreg_lt s]

theorem RoundTrip.asrImmTo (d : DReg) (n : BitVec 5) : RoundTrip.Statement (.asrImmTo d n) := by
  intro _
  have := n.isLt; have := dreg_lt d
  refine law16 (u := 19712 + n.toNat * 8 + d.num) rfl (by omega) ?_
  generalize hh : 19712 + n.toNat * 8 + d.num = h
  have f0 : bits h 0 3 = d.num := field (by omega)
  have f1 : bits h 3 5 = n.toNat := field (by omega)
  have f2 : bits h 8 3 = 5 := field (by omega)
  have f3 : bits h 10 2 = 3 := field (by omega)
  have f4 : bits h 12 4 = 4 := field (by omega)
  have f5 : bit h 9 = false := bit_of_zero (by omega)
  simp [decodeLogi2op, decode4, decode16, f0, f1, f2, f3, f4, f5, n.isLt, dreg_lt d]

theorem RoundTrip.lsrImmTo (d : DReg) (n : BitVec 5) : RoundTrip.Statement (.lsrImmTo d n) := by
  intro _
  have := n.isLt; have := dreg_lt d
  refine law16 (u := 19968 + n.toNat * 8 + d.num) rfl (by omega) ?_
  generalize hh : 19968 + n.toNat * 8 + d.num = h
  have f0 : bits h 0 3 = d.num := field (by omega)
  have f1 : bits h 3 5 = n.toNat := field (by omega)
  have f2 : bits h 8 3 = 6 := field (by omega)
  have f3 : bits h 10 2 = 3 := field (by omega)
  have f4 : bits h 12 4 = 4 := field (by omega)
  have f5 : bit h 9 = true := bit_of_one (by omega)
  simp [decodeLogi2op, decode4, decode16, f0, f1, f2, f3, f4, f5, n.isLt, dreg_lt d]

theorem RoundTrip.lslImmTo (d : DReg) (n : BitVec 5) : RoundTrip.Statement (.lslImmTo d n) := by
  intro _
  have := n.isLt; have := dreg_lt d
  refine law16 (u := 20224 + n.toNat * 8 + d.num) rfl (by omega) ?_
  generalize hh : 20224 + n.toNat * 8 + d.num = h
  have f0 : bits h 0 3 = d.num := field (by omega)
  have f1 : bits h 3 5 = n.toNat := field (by omega)
  have f2 : bits h 8 3 = 7 := field (by omega)
  have f3 : bits h 10 2 = 3 := field (by omega)
  have f4 : bits h 12 4 = 4 := field (by omega)
  have f5 : bit h 9 = true := bit_of_one (by omega)
  simp [decodeLogi2op, decode4, decode16, f0, f1, f2, f3, f4, f5, n.isLt, dreg_lt d]

theorem RoundTrip.deposit (x : Bool) (d bg fg : DReg) : RoundTrip.Statement (.deposit x d bg fg) := by
  intro _
  have := dreg_lt d; have := dreg_lt fg; have := dreg_lt bg
  cases x
  · exact shift_law 10 1 0 2 0 0 0 d.num fg.num bg.num (by omega) rfl (by intros; simp [decodeShift, *])
  · exact shift_law 10 1 1 3 0 0 0 d.num fg.num bg.num (by omega) rfl (by intros; simp [decodeShift, *])

theorem RoundTrip.extract (x : Bool) (d sc pat : DReg) : RoundTrip.Statement (.extract x d sc pat) := by
  intro _
  have := dreg_lt d; have := dreg_lt pat; have := dreg_lt sc
  cases x
  · exact shift_law 10 0 0 0 0 0 0 d.num pat.num sc.num (by omega) rfl (by intros; simp [decodeShift, *])
  · exact shift_law 10 0 1 1 0 0 0 d.num pat.num sc.num (by omega) rfl (by intros; simp [decodeShift, *])

theorem RoundTrip.bitmux (asl : Bool) (s t : DReg) : RoundTrip.Statement (.bitmux asl s t) := by
  intro _
  have := dreg_lt s; have := dreg_lt t
  cases asl
  · exact shift_law 8 0 0 0 0 0 0 0 s.num t.num (by omega) rfl (by intros; simp [decodeShift, *])
  · exact shift_law 8 0 1 1 0 0 0 0 s.num t.num (by omega) rfl (by intros; simp [decodeShift, *])

theorem RoundTrip.ones (d s : DReg) : RoundTrip.Statement (.ones d s) := by
  intro _
  have := dreg_lt d; have := dreg_lt s
  exact shift_law 6 1 1 3 0 0 0 d.num 0 s.num (by omega) rfl (by intros; simp [decodeShift, *])

theorem RoundTrip.pack (d : DReg) (sh th : Half) (s t : DReg) : RoundTrip.Statement (.pack d sh th s t) := by
  intro _
  have := half_lt sh; have := half_lt th; have := dreg_lt d; have := dreg_lt t; have := dreg_lt s
  exact shift_law 4 sh.num th.num (sh.num * 2 + th.num) 0 0 0 d.num t.num s.num (by omega) rfl (by intros; simp [decodeShift, *])

theorem RoundTrip.asrImm (d s : DReg) (n : BitVec 6) : RoundTrip.Statement (.asrImm d s n) := by
  intro _
  have := dreg_lt d; have := n.isLt; have := dreg_lt s
  exact shiftImm_law 2 0 0 0 0 d.num n s.num (by omega) rfl (by intros; simp [decodeShiftImm, *])

theorem RoundTrip.lsrImm (d s : DReg) (n : BitVec 6) : RoundTrip.Statement (.lsrImm d s n) := by
  intro wf
  simp [Instr.spelled] at wf
  have := dreg_lt d; have := n.isLt; have := dreg_lt s
  exact shiftImm_law 2 2 0 0 0 d.num n s.num (by omega) rfl (by intros; simp [decodeShiftImm, *])

theorem RoundTrip.lslImm (d s : DReg) (n : BitVec 6) : RoundTrip.Statement (.lslImm d s n) := by
  intro wf
  simp [Instr.spelled] at wf
  have := dreg_lt d; have := n.isLt; have := dreg_lt s
  exact shiftImm_law 2 2 0 0 0 d.num n s.num (by omega) rfl (by intros; simp [decodeShiftImm, *])

theorem RoundTrip.lslImmSat (d s : DReg) (n : BitVec 6) : RoundTrip.Statement (.lslImmSat d s n) := by
  intro _
  have := dreg_lt d; have := n.isLt; have := dreg_lt s
  exact shiftImm_law 2 1 0 0 0 d.num n s.num (by omega) rfl (by intros; simp [decodeShiftImm, *])

theorem RoundTrip.asrImmVec (d s : DReg) (n : BitVec 6) : RoundTrip.Statement (.asrImmVec d s n) := by
  intro _
  have := dreg_lt d; have := n.isLt; have := dreg_lt s
  exact shiftImm_law 1 0 0 0 0 d.num n s.num (by omega) rfl (by intros; simp [decodeShiftImm, *])

theorem RoundTrip.lsrImmVec (d s : DReg) (n : BitVec 6) : RoundTrip.Statement (.lsrImmVec d s n) := by
  intro wf
  simp [Instr.spelled] at wf
  have := dreg_lt d; have := n.isLt; have := dreg_lt s
  exact shiftImm_law 1 2 0 0 0 d.num n s.num (by omega) rfl (by intros; simp [decodeShiftImm, *])

theorem RoundTrip.lslImmVec (d s : DReg) (n : BitVec 6) : RoundTrip.Statement (.lslImmVec d s n) := by
  intro wf
  simp [Instr.spelled] at wf
  have := dreg_lt d; have := n.isLt; have := dreg_lt s
  exact shiftImm_law 1 2 0 0 0 d.num n s.num (by omega) rfl (by intros; simp [decodeShiftImm, *])

theorem RoundTrip.lslImmVecSat (d s : DReg) (n : BitVec 6) : RoundTrip.Statement (.lslImmVecSat d s n) := by
  intro _
  have := dreg_lt d; have := n.isLt; have := dreg_lt s
  exact shiftImm_law 1 1 0 0 0 d.num n s.num (by omega) rfl (by intros; simp [decodeShiftImm, *])

theorem RoundTrip.asrImmHalf (dh : Half) (d : DReg) (sh : Half) (s : DReg) (n : BitVec 6) : RoundTrip.Statement (.asrImmHalf dh d sh s n) := by
  intro _
  have := half_lt dh; have := half_lt sh; have := dreg_lt d; have := n.isLt; have := dreg_lt s
  exact shiftImm_law 0 0 dh.num sh.num (dh.num * 2 + sh.num) d.num n s.num (by omega) rfl (by intros; simp [decodeShiftImm, *])

theorem RoundTrip.lsrImmHalf (dh : Half) (d : DReg) (sh : Half) (s : DReg) (n : BitVec 6) : RoundTrip.Statement (.lsrImmHalf dh d sh s n) := by
  intro wf
  simp [Instr.spelled] at wf
  have := half_lt dh; have := half_lt sh; have := dreg_lt d; have := n.isLt; have := dreg_lt s
  exact shiftImm_law 0 2 dh.num sh.num (dh.num * 2 + sh.num) d.num n s.num (by omega) rfl (by intros; simp [decodeShiftImm, *])

theorem RoundTrip.lslImmHalf (dh : Half) (d : DReg) (sh : Half) (s : DReg) (n : BitVec 6) : RoundTrip.Statement (.lslImmHalf dh d sh s n) := by
  intro wf
  simp [Instr.spelled] at wf
  have := half_lt dh; have := half_lt sh; have := dreg_lt d; have := n.isLt; have := dreg_lt s
  exact shiftImm_law 0 2 dh.num sh.num (dh.num * 2 + sh.num) d.num n s.num (by omega) rfl (by intros; simp [decodeShiftImm, *])

theorem RoundTrip.lslImmHalfSat (dh : Half) (d : DReg) (sh : Half) (s : DReg) (n : BitVec 6) : RoundTrip.Statement (.lslImmHalfSat dh d sh s n) := by
  intro _
  have := half_lt dh; have := half_lt sh; have := dreg_lt d; have := n.isLt; have := dreg_lt s
  exact shiftImm_law 0 1 dh.num sh.num (dh.num * 2 + sh.num) d.num n s.num (by omega) rfl (by intros; simp [decodeShiftImm, *])

theorem RoundTrip.asrDregTo (d s : DReg) : RoundTrip.Statement (.asrDregTo d s) := by
  intro _
  have := dreg_lt s; have := dreg_lt d
  refine law16 (u := 16384 + s.num * 8 + d.num) rfl (by omega) ?_
  generalize hh : 16384 + s.num * 8 + d.num = h
  have f0 : bits h 0 3 = d.num := field (by omega)
  have f1 : bits h 3 3 = s.num := field (by omega)
  have f2 : bits h 6 4 = 0 := field (by omega)
  have f3 : bits h 10 2 = 0 := field (by omega)
  have f4 : bits h 12 4 = 4 := field (by omega)
  have f5 : bit h 9 = false := bit_of_zero (by omega)
  simp [decodeAlu2op, decode4, decode16, f0, f1, f2, f3, f4, f5, dreg_lt s, dreg_lt d]

theorem RoundTrip.lsrDregTo (d s : DReg) : RoundTrip.Statement (.lsrDregTo d s) := by
  intro _
  have := dreg_lt s; have := dreg_lt d
  refine law16 (u := 16448 + s.num * 8 + d.num) rfl (by omega) ?_
  generalize hh : 16448 + s.num * 8 + d.num = h
  have f0 : bits h 0 3 = d.num := field (by omega)
  have f1 : bits h 3 3 = s.num := field (by omega)
  have f2 : bits h 6 4 = 1 := field (by omega)
  have f3 : bits h 10 2 = 0 := field (by omega)
  have f4 : bits h 12 4 = 4 := field (by omega)
  have f5 : bit h 9 = false := bit_of_zero (by omega)
  simp [decodeAlu2op, decode4, decode16, f0, f1, f2, f3, f4, f5, dreg_lt s, dreg_lt d]

theorem RoundTrip.lslDregTo (d s : DReg) : RoundTrip.Statement (.lslDregTo d s) := by
  intro _
  have := dreg_lt s; have := dreg_lt d
  refine law16 (u := 16512 + s.num * 8 + d.num) rfl (by omega) ?_
  generalize hh : 16512 + s.num * 8 + d.num = h
  have f0 : bits h 0 3 = d.num := field (by omega)
  have f1 : bits h 3 3 = s.num := field (by omega)
  have f2 : bits h 6 4 = 2 := field (by omega)
  have f3 : bits h 10 2 = 0 := field (by omega)
  have f4 : bits h 12 4 = 4 := field (by omega)
  have f5 : bit h 9 = false := bit_of_zero (by omega)
  simp [decodeAlu2op, decode4, decode16, f0, f1, f2, f3, f4, f5, dreg_lt s, dreg_lt d]

theorem RoundTrip.ashift (d v c : DReg) : RoundTrip.Statement (.ashift d v c) := by
  intro _
  have := dreg_lt d; have := dreg_lt c; have := dreg_lt v
  exact shift_law 2 0 0 0 0 0 0 d.num c.num v.num (by omega) rfl (by intros; simp [decodeShift, *])

theorem RoundTrip.ashiftSat (d v c : DReg) : RoundTrip.Statement (.ashiftSat d v c) := by
  intro _
  have := dreg_lt d; have := dreg_lt c; have := dreg_lt v
  exact shift_law 2 0 1 1 0 0 0 d.num c.num v.num (by omega) rfl (by intros; simp [decodeShift, *])

theorem RoundTrip.lshift (d v c : DReg) : RoundTrip.Statement (.lshift d v c) := by
  intro _
  have := dreg_lt d; have := dreg_lt c; have := dreg_lt v
  exact shift_law 2 1 0 2 0 0 0 d.num c.num v.num (by omega) rfl (by intros; simp [decodeShift, *])

theorem RoundTrip.ashiftVec (d v c : DReg) : RoundTrip.Statement (.ashiftVec d v c) := by
  intro _
  have := dreg_lt d; have := dreg_lt c; have := dreg_lt v
  exact shift_law 1 0 0 0 0 0 0 d.num c.num v.num (by omega) rfl (by intros; simp [decodeShift, *])

theorem RoundTrip.ashiftVecSat (d v c : DReg) : RoundTrip.Statement (.ashiftVecSat d v c) := by
  intro _
  have := dreg_lt d; have := dreg_lt c; have := dreg_lt v
  exact shift_law 1 0 1 1 0 0 0 d.num c.num v.num (by omega) rfl (by intros; simp [decodeShift, *])

theorem RoundTrip.lshiftVec (d v c : DReg) : RoundTrip.Statement (.lshiftVec d v c) := by
  intro _
  have := dreg_lt d; have := dreg_lt c; have := dreg_lt v
  exact shift_law 1 1 0 2 0 0 0 d.num c.num v.num (by omega) rfl (by intros; simp [decodeShift, *])

theorem RoundTrip.ashiftHalf (dh : Half) (d : DReg) (vh : Half) (v c : DReg) : RoundTrip.Statement (.ashiftHalf dh d vh v c) := by
  intro _
  have := half_lt dh; have := half_lt vh; have := dreg_lt d; have := dreg_lt c; have := dreg_lt v
  exact shift_law 0 0 0 0 dh.num vh.num (dh.num * 2 + vh.num) d.num c.num v.num (by omega) rfl (by intros; simp [decodeShift, *])

theorem RoundTrip.ashiftHalfSat (dh : Half) (d : DReg) (vh : Half) (v c : DReg) : RoundTrip.Statement (.ashiftHalfSat dh d vh v c) := by
  intro _
  have := half_lt dh; have := half_lt vh; have := dreg_lt d; have := dreg_lt c; have := dreg_lt v
  exact shift_law 0 0 1 1 dh.num vh.num (dh.num * 2 + vh.num) d.num c.num v.num (by omega) rfl (by intros; simp [decodeShift, *])

theorem RoundTrip.lshiftHalf (dh : Half) (d : DReg) (vh : Half) (v c : DReg) : RoundTrip.Statement (.lshiftHalf dh d vh v c) := by
  intro _
  have := half_lt dh; have := half_lt vh; have := dreg_lt d; have := dreg_lt c; have := dreg_lt v
  exact shift_law 0 1 0 2 dh.num vh.num (dh.num * 2 + vh.num) d.num c.num v.num (by omega) rfl (by intros; simp [decodeShift, *])

theorem RoundTrip.rotImm (d s : DReg) (n : BitVec 6) : RoundTrip.Statement (.rotImm d s n) := by
  intro _
  have := dreg_lt d; have := n.isLt; have := dreg_lt s
  exact shiftImm_law 2 3 0 0 0 d.num n s.num (by omega) rfl (by intros; simp [decodeShiftImm, *])

theorem RoundTrip.rotDreg (d v c : DReg) : RoundTrip.Statement (.rotDreg d v c) := by
  intro _
  have := dreg_lt d; have := dreg_lt c; have := dreg_lt v
  exact shift_law 2 1 1 3 0 0 0 d.num c.num v.num (by omega) rfl (by intros; simp [decodeShift, *])

theorem RoundTrip.rotAccImm (a : AccN) (n : BitVec 6) : RoundTrip.Statement (.rotAccImm a n) := by
  intro _
  have := accN_lt a; have := n.isLt
  exact shiftImm_law 3 2 0 a.num a.num 0 n 0 (by omega) rfl (by intros; simp [decodeShiftImm, *])

theorem RoundTrip.rotAcc (a : AccN) (c : DReg) : RoundTrip.Statement (.rotAcc a c) := by
  intro _
  have := accN_lt a; have := dreg_lt c
  exact shift_law 3 1 0 2 0 a.num a.num 0 c.num 0 (by omega) rfl (by intros; simp [decodeShift, *])

theorem RoundTrip.asrAccImm (a : AccN) (n : BitVec 6) : RoundTrip.Statement (.asrAccImm a n) := by
  intro wf
  simp [Instr.spelled] at wf
  have := accN_lt a; have := n.isLt
  exact shiftImm_law 3 0 0 a.num a.num 0 n 0 (by omega) rfl (by intros; simp [decodeShiftImm, *])

theorem RoundTrip.lsrAccImm (a : AccN) (n : BitVec 6) : RoundTrip.Statement (.lsrAccImm a n) := by
  intro _
  have := accN_lt a; have := n.isLt
  exact shiftImm_law 3 1 0 a.num a.num 0 n 0 (by omega) rfl (by intros; simp [decodeShiftImm, *])

theorem RoundTrip.lslAccImm (a : AccN) (n : BitVec 6) : RoundTrip.Statement (.lslAccImm a n) := by
  intro wf
  simp [Instr.spelled] at wf
  have := accN_lt a; have := n.isLt
  exact shiftImm_law 3 0 0 a.num a.num 0 n 0 (by omega) rfl (by intros; simp [decodeShiftImm, *])

theorem RoundTrip.ashiftAcc (a : AccN) (c : DReg) : RoundTrip.Statement (.ashiftAcc a c) := by
  intro _
  have := accN_lt a; have := dreg_lt c
  exact shift_law 3 0 0 0 0 a.num a.num 0 c.num 0 (by omega) rfl (by intros; simp [decodeShift, *])

theorem RoundTrip.bxorShift (aa hh : BitVec 2) (d s t : DReg) : RoundTrip.Statement (.bxorShift aa hh d s t) := by
  intro _
  have := aa.isLt; have := hh.isLt; have := dreg_lt d; have := dreg_lt s; have := dreg_lt t
  exact shift_law 11 (aa.toNat / 2) (aa.toNat % 2) aa.toNat (hh.toNat / 2) (hh.toNat % 2) hh.toNat d.num s.num t.num (by omega) rfl (by intros; simp [decodeShift, *])

theorem RoundTrip.bxorAcc (aa hh : BitVec 2) (d s t : DReg) : RoundTrip.Statement (.bxorAcc aa hh d s t) := by
  intro _
  have := aa.isLt; have := hh.isLt; have := dreg_lt d; have := dreg_lt s; have := dreg_lt t
  exact shift_law 12 (aa.toNat / 2) (aa.toNat % 2) aa.toNat (hh.toNat / 2) (hh.toNat % 2) hh.toNat d.num s.num t.num (by omega) rfl (by intros; simp [decodeShift, *])

theorem RoundTrip.saa (hl s x : Bool) (d e p q : DReg) : RoundTrip.Statement (.saa hl s x d e p q) := by
  intro _
  have := b2n_lt hl; have := b2n_lt s; have := b2n_lt x; have := dreg_lt d; have := dreg_lt e; have := dreg_lt p; have := dreg_lt q
  exact alu_law (b2n hl) 18 0 0 0 (b2n s) (b2n x) d.num e.num p.num q.num (by omega) rfl (by intros; simp [decodeAlu, *])

theorem RoundTrip.byteop1p (hl : Bool) (b : BitVec 2) (s x : Bool) (d e p q : DReg) : RoundTrip.Statement (.byteop1p hl b s x d e p q) := by
  intro _
  have := b2n_lt hl; have := b.isLt; have := b2n_lt s; have := b2n_lt x; have := dreg_lt d; have := dreg_lt e; have := dreg_lt p; have := dreg_lt q
  exact alu_law (b2n hl) 20 (b.toNat / 2) (b.toNat % 2) b.toNat (b2n s) (b2n x) d.num e.num p.num q.num (by omega) rfl (by intros; simp [decodeAlu, *])

theorem RoundTrip.byteop16 (hl : Bool) (b : BitVec 2) (s x : Bool) (d e p q : DReg) : RoundTrip.Statement (.byteop16 hl b s x d e p q) := by
  intro _
  have := b2n_lt hl; have := b.isLt; have := b2n_lt s; have := b2n_lt x; have := dreg_lt d; have := dreg_lt e; have := dreg_lt p; have := dreg_lt q
  exact alu_law (b2n hl) 21 (b.toNat / 2) (b.toNat % 2) b.toNat (b2n s) (b2n x) d.num e.num p.num q.num (by omega) rfl (by intros; simp [decodeAlu, *])

theorem RoundTrip.byteop2p (hl : Bool) (b : BitVec 2) (s x : Bool) (d e p q : DReg) : RoundTrip.Statement (.byteop2p hl b s x d e p q) := by
  intro _
  have := b2n_lt hl; have := b.isLt; have := b2n_lt s; have := b2n_lt x; have := dreg_lt d; have := dreg_lt e; have := dreg_lt p; have := dreg_lt q
  exact alu_law (b2n hl) 22 (b.toNat / 2) (b.toNat % 2) b.toNat (b2n s) (b2n x) d.num e.num p.num q.num (by omega) rfl (by intros; simp [decodeAlu, *])

theorem RoundTrip.byteop3p (hl : Bool) (b : BitVec 2) (s x : Bool) (d e p q : DReg) : RoundTrip.Statement (.byteop3p hl b s x d e p q) := by
  intro _
  have := b2n_lt hl; have := b.isLt; have := b2n_lt s; have := b2n_lt x; have := dreg_lt d; have := dreg_lt e; have := dreg_lt p; have := dreg_lt q
  exact alu_law (b2n hl) 23 (b.toNat / 2) (b.toNat % 2) b.toNat (b2n s) (b2n x) d.num e.num p.num q.num (by omega) rfl (by intros; simp [decodeAlu, *])

theorem RoundTrip.bytepack (hl : Bool) (b : BitVec 2) (s x : Bool) (d e p q : DReg) : RoundTrip.Statement (.bytepack hl b s x d e p q) := by
  intro _
  have := b2n_lt hl; have := b.isLt; have := b2n_lt s; have := b2n_lt x; have := dreg_lt d; have := dreg_lt e; have := dreg_lt p; have := dreg_lt q
  exact alu_law (b2n hl) 24 (b.toNat / 2) (b.toNat % 2) b.toNat (b2n s) (b2n x) d.num e.num p.num q.num (by omega) rfl (by intros; simp [decodeAlu, *])

theorem RoundTrip.jumpShort (o : BitVec 12) : RoundTrip.Statement (.jumpShort o) := by
  intro _
  have := o.isLt
  refine law16 (u := 8192 + o.toNat) rfl (by omega) ?_
  generalize hh : 8192 + o.toNat = h
  have f0 : bits h 0 12 = o.toNat := field (by omega)
  have f1 : bits h 12 4 = 2 := field (by omega)
  simp [decode16, f0, f1, o.isLt]

theorem RoundTrip.jumpLong (o : BitVec 24) : RoundTrip.Statement (.jumpLong o) := by
  intro _
  have := o.isLt
  refine law32 (u := 57856 + (o.toNat / 65536)) (v := (o.toNat % 65536)) rfl (by omega) ?_
  generalize hhi : 57856 + (o.toNat / 65536) = hi
  generalize hlo : (o.toNat % 65536) = lo
  have f0 : bits hi 0 8 = (o.toNat / 65536) := field (by omega)
  have f1 : bits hi 7 2 = (o.toNat / 65536 / 128) := field (by omega)
  have f2 : bits hi 8 4 = 2 := field (by omega)
  have f3 : bits hi 9 2 = 1 := field (by omega)
  have f4 : bits hi 12 4 = 14 := field (by omega)
  have f5 : bit hi 7 = decide (o.toNat / 65536 / 128 = 1) := bit_of (by omega)
  simp [decodeE, decode32, f0, f1, f2, f3, f4, f5, o.isLt, ← hlo, Nat.div_add_mod']

theorem RoundTrip.jumpAny (o : BitVec 24) : RoundTrip.Statement (.jumpAny o) := by
  intro h; cases h

theorem RoundTrip.jumpPreg (p : PReg) : RoundTrip.Statement (.jumpPreg p) := by
  intro _
  have := preg_lt p
  refine law16 (u := 80 + p.num) rfl (by omega) ?_
  generalize hh : 80 + p.num = h
  have f0 : bits h 0 4 = p.num := field (by omega)
  have f1 : bits h 4 4 = 5 := field (by omega)
  have f2 : bits h 5 3 = 2 := field (by omega)
  have f3 : bits h 6 2 = 1 := field (by omega)
  have f4 : bits h 8 3 = 0 := field (by omega)
  have f5 : bits h 8 4 = 0 := field (by omega)
  have f6 : bits h 12 4 = 0 := field (by omega)
  have f7 : bit h 7 = false := bit_of_zero (by omega)
  simp [decodeProgCtrl, decode0, decode16, f0, f1, f2, f3, f4, f5, f6, f7, preg_lt p]

theorem RoundTrip.jumpPcPreg (p : PReg) : RoundTrip.Statement (.jumpPcPreg p) := by
  intro _
  have := preg_lt p
  refine law16 (u := 128 + p.num) rfl (by omega) ?_
  generalize hh : 128 + p.num = h
  have f0 : bits h 0 4 = p.num := field (by omega)
  have f1 : bits h 4 4 = 8 := field (by omega)
  have f2 : bits h 5 3 = 4 := field (by omega)
  have f3 : bits h 6 2 = 2 := field (by omega)
  have f4 : bits h 8 3 = 0 := field (by omega)
  have f5 : bits h 8 4 = 0 := field (by omega)
  have f6 : bits h 12 4 = 0 := field (by omega)
  have f7 : bit h 7 = true := bit_of_one (by omega)
  simp [decodeProgCtrl, decode0, decode16, f0, f1, f2, f3, f4, f5, f6, f7, preg_lt p]

theorem RoundTrip.callOff (o : BitVec 24) : RoundTrip.Statement (.callOff o) := by
  intro _
  have := o.isLt
  refine law32 (u := 58112 + (o.toNat / 65536)) (v := (o.toNat % 65536)) rfl (by omega) ?_
  generalize hhi : 58112 + (o.toNat / 65536) = hi
  generalize hlo : (o.toNat % 65536) = lo
  have f0 : bits hi 0 8 = (o.toNat / 65536) := field (by omega)
  have f1 : bits hi 7 2 = 2 + (o.toNat / 65536 / 128) := field (by omega)
  have f2 : bits hi 8 4 = 3 := field (by omega)
  have f3 : bits hi 9 2 = 1 := field (by omega)
  have f4 : bits hi 12 4 = 14 := field (by omega)
  have f5 : bit hi 7 = decide (o.toNat / 65536 / 128 = 1) := bit_of (by omega)
  simp [decodeE, decode32, f0, f1, f2, f3, f4, f5, o.isLt, ← hlo, Nat.div_add_mod']

theorem RoundTrip.callPreg (p : PReg) : RoundTrip.Statement (.callPreg p) := by
  intro _
  have := preg_lt p
  refine law16 (u := 96 + p.num) rfl (by omega) ?_
  generalize hh : 96 + p.num = h
  have f0 : bits h 0 4 = p.num := field (by omega)
  have f1 : bits h 4 4 = 6 := field (by omega)
  have f2 : bits h 5 3 = 3 := field (by omega)
  have f3 : bits h 6 2 = 1 := field (by omega)
  have f4 : bits h 8 3 = 0 := field (by omega)
  have f5 : bits h 8 4 = 0 := field (by omega)
  have f6 : bits h 12 4 = 0 := field (by omega)
  have f7 : bit h 7 = false := bit_of_zero (by omega)
  simp [decodeProgCtrl, decode0, decode16, f0, f1, f2, f3, f4, f5, f6, f7, preg_lt p]

theorem RoundTrip.callPcPreg (p : PReg) : RoundTrip.Statement (.callPcPreg p) := by
  intro _
  have := preg_lt p
  refine law16 (u := 112 + p.num) rfl (by omega) ?_
  generalize hh : 112 + p.num = h
  have f0 : bits h 0 4 = p.num := field (by omega)
  have f1 : bits h 4 4 = 7 := field (by omega)
  have f2 : bits h 5 3 = 3 := field (by omega)
  have f3 : bits h 6 2 = 1 := field (by omega)
  have f4 : bits h 8 3 = 0 := field (by omega)
  have f5 : bits h 8 4 = 0 := field (by omega)
  have f6 : bits h 12 4 = 0 := field (by omega)
  have f7 : bit h 7 = false := bit_of_zero (by omega)
  simp [decodeProgCtrl, decode0, decode16, f0, f1, f2, f3, f4, f5, f6, f7, preg_lt p]

theorem RoundTrip.rts : RoundTrip.Statement (.rts) := by
  intro _
  rfl

theorem RoundTrip.rti : RoundTrip.Statement (.rti) := by
  intro _
  rfl

theorem RoundTrip.rtx : RoundTrip.Statement (.rtx) := by
  intro _
  rfl

theorem RoundTrip.rtn : RoundTrip.Statement (.rtn) := by
  intro _
  rfl

theorem RoundTrip.rte : RoundTrip.Statement (.rte) := by
  intro _
  rfl

theorem RoundTrip.brcc (o : BitVec 10) : RoundTrip.Statement (.brcc o) := by
  intro _
  have := o.isLt
  refine law16 (u := 6144 + o.toNat) rfl (by omega) ?_
  generalize hh : 6144 + o.toNat = h
  have f0 : bits h 0 10 = o.toNat := field (by omega)
  have f1 : bits h 10 2 = 2 := field (by omega)
  have f2 : bits h 12 4 = 1 := field (by omega)
  simp [decodeBrcc, decode16, f0, f1, f2, o.isLt]

theorem RoundTrip.brncc (o : BitVec 10) : RoundTrip.Statement (.brncc o) := by
  intro _
  have := o.isLt
  refine law16 (u := 4096 + o.toNat) rfl (by omega) ?_
  generalize hh : 4096 + o.toNat = h
  have f0 : bits h 0 10 = o.toNat := field (by omega)
  have f1 : bits h 10 2 = 0 := field (by omega)
  have f2 : bits h 12 4 = 1 := field (by omega)
  simp [decodeBrcc, decode16, f0, f1, f2, o.isLt]

theorem RoundTrip.brccBp (o : BitVec 10) : RoundTrip.Statement (.brccBp o) := by
  intro _
  have := o.isLt
  refine law16 (u := 7168 + o.toNat) rfl (by omega) ?_
  generalize hh : 7168 + o.toNat = h
  have f0 : bits h 0 10 = o.toNat := field (by omega)
  have f1 : bits h 10 2 = 3 := field (by omega)
  have f2 : bits h 12 4 = 1 := field (by omega)
  simp [decodeBrcc, decode16, f0, f1, f2, o.isLt]

theorem RoundTrip.brnccBp (o : BitVec 10) : RoundTrip.Statement (.brnccBp o) := by
  intro _
  have := o.isLt
  refine law16 (u := 5120 + o.toNat) rfl (by omega) ?_
  generalize hh : 5120 + o.toNat = h
  have f0 : bits h 0 10 = o.toNat := field (by omega)
  have f1 : bits h 10 2 = 1 := field (by omega)
  have f2 : bits h 12 4 = 1 := field (by omega)
  simp [decodeBrcc, decode16, f0, f1, f2, o.isLt]

theorem RoundTrip.lsetupPreg (c : LoopN) (top : BitVec 4) (p : PReg) (bot : BitVec 10) : RoundTrip.Statement (.lsetupPreg c top p bot) := by
  intro _
  have := loopN_lt c; have := top.isLt; have := preg_lt p; have := bot.isLt
  refine law32 (u := 57504 + c.num * 16 + top.toNat) (v := p.num * 4096 + bot.toNat) rfl (by omega) ?_
  generalize hhi : 57504 + c.num * 16 + top.toNat = hi
  generalize hlo : p.num * 4096 + bot.toNat = lo
  have f0 : bits hi 0 4 = top.toNat := field (by omega)
  have f1 : bits hi 5 2 = 1 := field (by omega)
  have f2 : bits hi 7 2 = 1 := field (by omega)
  have f3 : bits hi 8 4 = 0 := field (by omega)
  have f4 : bits hi 9 2 = 0 := field (by omega)
  have f5 : bits hi 12 4 = 14 := field (by omega)
  have f6 : bits lo 0 10 = bot.toNat := field (by omega)
  have f7 : bits lo 10 2 = 0 := field (by omega)
  have f8 : bits lo 12 4 = p.num := field (by omega)
  have f9 : bit hi 4 = decide (c.num = 1) := bit_of (by omega)
  have f10 : bit hi 7 = true := bit_of_one (by omega)
  simp [decodeLoopSetup, decodeE, decode32, f0, f1, f2, f3, f4, f5, f6, f7, f8, f9, f10, loopN_lt c, top.isLt, preg_lt p, bot.isLt]

theorem RoundTrip.lsetup (c : LoopN) (top : BitVec 4) (bot : BitVec 10) : RoundTrip.Statement (.lsetup c top bot) := by
  intro _
  have := loopN_lt c; have := top.isLt; have := bot.isLt
  refine law32 (u := 57472 + c.num * 16 + top.toNat) (v := bot.toNat) rfl (by omega) ?_
  generalize hhi : 57472 + c.num * 16 + top.toNat = hi
  generalize hlo : bot.toNat = lo
  have f0 : bits hi 0 4 = top.toNat := field (by omega)
  have f1 : bits hi 5 2 = 0 := field (by omega)
  have f2 : bits hi 7 2 = 1 := field (by omega)
  have f3 : bits hi 8 4 = 0 := field (by omega)
  have f4 : bits hi 9 2 = 0 := field (by omega)
  have f5 : bits hi 12 4 = 14 := field (by omega)
  have f6 : bits lo 0 10 = bot.toNat := field (by omega)
  have f7 : bits lo 10 2 = 0 := field (by omega)
  have f8 : bits lo 12 4 = 0 := field (by omega)
  have f9 : bit hi 4 = decide (c.num = 1) := bit_of (by omega)
  have f10 : bit hi 7 = true := bit_of_one (by omega)
  simp [decodeLoopSetup, decodeE, decode32, f0, f1, f2, f3, f4, f5, f6, f7, f8, f9, f10, loopN_lt c, top.isLt, bot.isLt]

theorem RoundTrip.lsetupPregHalf (c : LoopN) (top : BitVec 4) (p : PReg) (bot : BitVec 10) : RoundTrip.Statement (.lsetupPregHalf c top p bot) := by
  intro _
  have := loopN_lt c; have := top.isLt; have := preg_lt p; have := bot.isLt
  refine law32 (u := 57568 + c.num * 16 + top.toNat) (v := p.num * 4096 + bot.toNat) rfl (by omega) ?_
  generalize hhi : 57568 + c.num * 16 + top.toNat = hi
  generalize hlo : p.num * 4096 + bot.toNat = lo
  have f0 : bits hi 0 4 = top.toNat := field (by omega)
  have f1 : bits hi 5 2 = 3 := field (by omega)
  have f2 : bits hi 7 2 = 1 := field (by omega)
  have f3 : bits hi 8 4 = 0 := field (by omega)
  have f4 : bits hi 9 2 = 0 := field (by omega)
  have f5 : bits hi 12 4 = 14 := field (by omega)
  have f6 : bits lo 0 10 = bot.toNat := field (by omega)
  have f7 : bits lo 10 2 = 0 := field (by omega)
  have f8 : bits lo 12 4 = p.num := field (by omega)
  have f9 : bit hi 4 = decide (c.num = 1) := bit_of (by omega)
  have f10 : bit hi 7 = true := bit_of_one (by omega)
  simp [decodeLoopSetup, decodeE, decode32, f0, f1, f2, f3, f4, f5, f6, f7, f8, f9, f10, loopN_lt c, top.isLt, preg_lt p, bot.isLt]

theorem RoundTrip.disalgnexcpt : RoundTrip.Statement (.disalgnexcpt) := by
  intro _
  exact alu_law 0 18 1 1 3 0 0 0 0 0 0 (by omega) rfl (by intros; simp [decodeAlu, *])

theorem RoundTrip.loadP (a : PostMod) (d p : PReg) : RoundTrip.Statement (.loadP a d p) := by
  intro _
  have := postMod_lt a; have := preg_lt p; have := preg_lt d
  exact ldst_law 0 0 a.num 1 p.num d.num (by omega) rfl (by intros; simp [decodeLdst, *])

theorem RoundTrip.loadD (a : PostMod) (d : DReg) (p : PReg) : RoundTrip.Statement (.loadD a d p) := by
  intro _
  have := postMod_lt a; have := preg_lt p; have := dreg_lt d
  exact ldst_law 0 0 a.num 0 p.num d.num (by omega) rfl (by intros; simp [decodeLdst, *])

theorem RoundTrip.loadWZ (a : PostMod) (d : DReg) (p : PReg) : RoundTrip.Statement (.loadWZ a d p) := by
  intro _
  have := postMod_lt a; have := preg_lt p; have := dreg_lt d
  exact ldst_law 1 0 a.num 0 p.num d.num (by omega) rfl (by intros; simp [decodeLdst, *])

theorem RoundTrip.loadWX (a : PostMod) (d : DReg) (p : PReg) : RoundTrip.Statement (.loadWX a d p) := by
  intro _
  have := postMod_lt a; have := preg_lt p; have := dreg_lt d
  exact ldst_law 1 0 a.num 1 p.num d.num (by omega) rfl (by intros; simp [decodeLdst, *])

theorem RoundTrip.loadBZ (a : PostMod) (d : DReg) (p : PReg) : RoundTrip.Statement (.loadBZ a d p) := by
  intro _
  have := postMod_lt a; have := preg_lt p; have := dreg_lt d
  exact ldst_law 2 0 a.num 0 p.num d.num (by omega) rfl (by intros; simp [decodeLdst, *])

theorem RoundTrip.loadBX (a : PostMod) (d : DReg) (p : PReg) : RoundTrip.Statement (.loadBX a d p) := by
  intro _
  have := postMod_lt a; have := preg_lt p; have := dreg_lt d
  exact ldst_law 2 0 a.num 1 p.num d.num (by omega) rfl (by intros; simp [decodeLdst, *])

theorem RoundTrip.storeP (a : PostMod) (p s : PReg) : RoundTrip.Statement (.storeP a p s) := by
  intro _
  have := postMod_lt a; have := preg_lt p; have := preg_lt s
  exact ldst_law 0 1 a.num 1 p.num s.num (by omega) rfl (by intros; simp [decodeLdst, *])

theorem RoundTrip.storeD (a : PostMod) (p : PReg) (s : DReg) : RoundTrip.Statement (.storeD a p s) := by
  intro _
  have := postMod_lt a; have := preg_lt p; have := dreg_lt s
  exact ldst_law 0 1 a.num 0 p.num s.num (by omega) rfl (by intros; simp [decodeLdst, *])

theorem RoundTrip.storeW (a : PostMod) (p : PReg) (s : DReg) : RoundTrip.Statement (.storeW a p s) := by
  intro _
  have := postMod_lt a; have := preg_lt p; have := dreg_lt s
  exact ldst_law 1 1 a.num 0 p.num s.num (by omega) rfl (by intros; simp [decodeLdst, *])

theorem RoundTrip.storeB (a : PostMod) (p : PReg) (s : DReg) : RoundTrip.Statement (.storeB a p s) := by
  intro _
  have := postMod_lt a; have := preg_lt p; have := dreg_lt s
  exact ldst_law 2 1 a.num 0 p.num s.num (by omega) rfl (by intros; simp [decodeLdst, *])

theorem RoundTrip.loadDOff (d : DReg) (p : PReg) (o : BitVec 4) : RoundTrip.Statement (.loadDOff d p o) := by
  intro _
  have := o.isLt; have := preg_lt p; have := dreg_lt d
  exact ldstIi_law 0 o p.num d.num (by omega) rfl (by intros; simp [decodeLdstIi, *])

theorem RoundTrip.loadWZOff (d : DReg) (p : PReg) (o : BitVec 4) : RoundTrip.Statement (.loadWZOff d p o) := by
  intro _
  have := o.isLt; have := preg_lt p; have := dreg_lt d
  exact ldstIi_law 1 o p.num d.num (by omega) rfl (by intros; simp [decodeLdstIi, *])

theorem RoundTrip.loadWXOff (d : DReg) (p : PReg) (o : BitVec 4) : RoundTrip.Statement (.loadWXOff d p o) := by
  intro _
  have := o.isLt; have := preg_lt p; have := dreg_lt d
  exact ldstIi_law 2 o p.num d.num (by omega) rfl (by intros; simp [decodeLdstIi, *])

theorem RoundTrip.loadPOff (d p : PReg) (o : BitVec 4) : RoundTrip.Statement (.loadPOff d p o) := by
  intro _
  have := o.isLt; have := preg_lt p; have := preg_lt d
  exact ldstIi_law 3 o p.num d.num (by omega) rfl (by intros; simp [decodeLdstIi, *])

theorem RoundTrip.storeDOff (p : PReg) (o : BitVec 4) (s : DReg) : RoundTrip.Statement (.storeDOff p o s) := by
  intro _
  have := o.isLt; have := preg_lt p; have := dreg_lt s
  exact ldstIi_law 4 o p.num s.num (by omega) rfl (by intros; simp [decodeLdstIi, *])

theorem RoundTrip.storeWOff (p : PReg) (o : BitVec 4) (s : DReg) : RoundTrip.Statement (.storeWOff p o s) := by
  intro _
  have := o.isLt; have := preg_lt p; have := dreg_lt s
  exact ldstIi_law 5 o p.num s.num (by omega) rfl (by intros; simp [decodeLdstIi, *])

theorem RoundTrip.storePOff (p : PReg) (o : BitVec 4) (s : PReg) : RoundTrip.Statement (.storePOff p o s) := by
  intro _
  have := o.isLt; have := preg_lt p; have := preg_lt s
  exact ldstIi_law 7 o p.num s.num (by omega) rfl (by intros; simp [decodeLdstIi, *])

theorem RoundTrip.loadFp (d : DPReg) (o : BitVec 5) : RoundTrip.Statement (.loadFp d o) := by
  intro _
  have := o.isLt; have := dpreg_cls_lt d; have := dpreg_lt d
  refine law16 (u := 47104 + o.toNat * 16 + d.cls * 8 + d.num) rfl (by omega) ?_
  generalize hh : 47104 + o.toNat * 16 + d.cls * 8 + d.num = h
  have f0 : bits h 0 3 = d.num := field (by omega)
  have f1 : bits h 0 4 = d.cls * 8 + d.num := field (by omega)
  have f2 : bits h 3 3 = (o.toNat % 4) * 2 + d.cls := field (by omega)
  have f3 : bits h 4 5 = o.toNat := field (by omega)
  have f4 : bits h 6 4 = (o.toNat / 4) := field (by omega)
  have f5 : bits h 10 3 = 6 := field (by omega)
  have f6 : bits h 12 4 = 11 := field (by omega)
  have f7 : bit h 9 = false := bit_of_zero (by omega)
  simp [decodeLdstIi, decode16, f0, f1, f2, f3, f4, f5, f6, f7, o.isLt, dpreg_cls_lt d, dpreg_lt d]

theorem RoundTrip.storeFp (o : BitVec 5) (s : DPReg) : RoundTrip.Statement (.storeFp o s) := by
  intro _
  have := o.isLt; have := dpreg_cls_lt s; have := dpreg_lt s
  refine law16 (u := 47616 + o.toNat * 16 + s.cls * 8 + s.num) rfl (by omega) ?_
  generalize hh : 47616 + o.toNat * 16 + s.cls * 8 + s.num = h
  have f0 : bits h 0 3 = s.num := field (by omega)
  have f1 : bits h 0 4 = s.cls * 8 + s.num := field (by omega)
  have f2 : bits h 3 3 = (o.toNat % 4) * 2 + s.cls := field (by omega)
  have f3 : bits h 4 5 = o.toNat := field (by omega)
  have f4 : bits h 6 4 = 8 + (o.toNat / 4) := field (by omega)
  have f5 : bits h 10 3 = 6 := field (by omega)
  have f6 : bits h 12 4 = 11 := field (by omega)
  have f7 : bit h 9 = true := bit_of_one (by omega)
  simp [decodeLdstIi, decode16, f0, f1, f2, f3, f4, f5, f6, f7, o.isLt, dpreg_cls_lt s, dpreg_lt s]

theorem RoundTrip.loadDLong (d : DReg) (p : PReg) (o : BitVec 16) : RoundTrip.Statement (.loadDLong d p o) := by
  intro _
  have := preg_lt p; have := dreg_lt d; have := o.isLt
  exact idx_law 0 0 0 p.num d.num o (by omega) rfl (by intros; simp [decodeLdstIdx, *])

theorem RoundTrip.loadPLong (d p : PReg) (o : BitVec 16) : RoundTrip.Statement (.loadPLong d p o) := by
  intro _
  have := preg_lt p; have := preg_lt d; have := o.isLt
  exact idx_law 0 1 0 p.num d.num o (by omega) rfl (by intros; simp [decodeLdstIdx, *])

theorem RoundTrip.loadWZLong (d : DReg) (p : PReg) (o : BitVec 16) : RoundTrip.Statement (.loadWZLong d p o) := by
  intro _
  have := preg_lt p; have := dreg_lt d; have := o.isLt
  exact idx_law 0 0 1 p.num d.num o (by omega) rfl (by intros; simp [decodeLdstIdx, *])

theorem RoundTrip.loadWXLong (d : DReg) (p : PReg) (o : BitVec 16) : RoundTrip.Statement (.loadWXLong d p o) := by
  intro _
  have := preg_lt p; have := dreg_lt d; have := o.isLt
  exact idx_law 0 1 1 p.num d.num o (by omega) rfl (by intros; simp [decodeLdstIdx, *])

theorem RoundTrip.loadBZLong (d : DReg) (p : PReg) (o : BitVec 16) : RoundTrip.Statement (.loadBZLong d p o) := by
  intro _
  have := preg_lt p; have := dreg_lt d; have := o.isLt
  exact idx_law 0 0 2 p.num d.num o (by omega) rfl (by intros; simp [decodeLdstIdx, *])

theorem RoundTrip.loadBXLong (d : DReg) (p : PReg) (o : BitVec 16) : RoundTrip.Statement (.loadBXLong d p o) := by
  intro _
  have := preg_lt p; have := dreg_lt d; have := o.isLt
  exact idx_law 0 1 2 p.num d.num o (by omega) rfl (by intros; simp [decodeLdstIdx, *])

theorem RoundTrip.storeDLong (p : PReg) (o : BitVec 16) (s : DReg) : RoundTrip.Statement (.storeDLong p o s) := by
  intro _
  have := preg_lt p; have := dreg_lt s; have := o.isLt
  exact idx_law 1 0 0 p.num s.num o (by omega) rfl (by intros; simp [decodeLdstIdx, *])

theorem RoundTrip.storePLong (p : PReg) (o : BitVec 16) (s : PReg) : RoundTrip.Statement (.storePLong p o s) := by
  intro _
  have := preg_lt p; have := preg_lt s; have := o.isLt
  exact idx_law 1 1 0 p.num s.num o (by omega) rfl (by intros; simp [decodeLdstIdx, *])

theorem RoundTrip.storeWLong (p : PReg) (o : BitVec 16) (s : DReg) : RoundTrip.Statement (.storeWLong p o s) := by
  intro _
  have := preg_lt p; have := dreg_lt s; have := o.isLt
  exact idx_law 1 0 1 p.num s.num o (by omega) rfl (by intros; simp [decodeLdstIdx, *])

theorem RoundTrip.storeBLong (p : PReg) (o : BitVec 16) (s : DReg) : RoundTrip.Statement (.storeBLong p o s) := by
  intro _
  have := preg_lt p; have := dreg_lt s; have := o.isLt
  exact idx_law 1 0 2 p.num s.num o (by omega) rfl (by intros; simp [decodeLdstIdx, *])

theorem RoundTrip.loadDIdx (d : DReg) (p x : PReg) : RoundTrip.Statement (.loadDIdx d p x) := by
  intro _
  have := dreg_lt d; have := preg_lt x; have := preg_lt p
  exact pmod_law 0 d.num x.num p.num (by omega) rfl (by intros; simp [decodeLdstPmod, *])

theorem RoundTrip.loadLoIdx (d : DReg) (p x : PReg) : RoundTrip.Statement (.loadLoIdx d p x) := by
  intro _
  have := dreg_lt d; have := preg_lt x; have := preg_lt p
  exact pmod_law 1 d.num x.num p.num (by omega) rfl (by intros; simp [decodeLdstPmod, *])

theorem RoundTrip.loadHiIdx (d : DReg) (p x : PReg) : RoundTrip.Statement (.loadHiIdx d p x) := by
  intro _
  have := dreg_lt d; have := preg_lt x; have := preg_lt p
  exact pmod_law 2 d.num x.num p.num (by omega) rfl (by intros; simp [decodeLdstPmod, *])

theorem RoundTrip.loadWZIdx (d : DReg) (p x : PReg) : RoundTrip.Statement (.loadWZIdx d p x) := by
  intro _
  have := dreg_lt d; have := preg_lt x; have := preg_lt p
  exact pmod_law 3 d.num x.num p.num (by omega) rfl (by intros; simp [decodeLdstPmod, *])

theorem RoundTrip.loadWXIdx (d : DReg) (p x : PReg) : RoundTrip.Statement (.loadWXIdx d p x) := by
  intro _
  have := dreg_lt d; have := preg_lt x; have := preg_lt p
  exact pmod_law 7 d.num x.num p.num (by omega) rfl (by intros; simp [decodeLdstPmod, *])

theorem RoundTrip.storeDIdx (p x : PReg) (s : DReg) : RoundTrip.Statement (.storeDIdx p x s) := by
  intro _
  have := dreg_lt s; have := preg_lt x; have := preg_lt p
  exact pmod_law 4 s.num x.num p.num (by omega) rfl (by intros; simp [decodeLdstPmod, *])

theorem RoundTrip.storeLoIdx (p x : PReg) (s : DReg) : RoundTrip.Statement (.storeLoIdx p x s) := by
  intro _
  have := dreg_lt s; have := preg_lt x; have := preg_lt p
  exact pmod_law 5 s.num x.num p.num (by omega) rfl (by intros; simp [decodeLdstPmod, *])

theorem RoundTrip.storeHiIdx (p x : PReg) (s : DReg) : RoundTrip.Statement (.storeHiIdx p x s) := by
  intro _
  have := dreg_lt s; have := preg_lt x; have := preg_lt p
  exact pmod_law 6 s.num x.num p.num (by omega) rfl (by intros; simp [decodeLdstPmod, *])

theorem RoundTrip.loadDI (a : PostMod) (d : DReg) (i : DagN) : RoundTrip.Statement (.loadDI a d i) := by
  intro _
  have := postMod_lt a; have := dagN_lt i; have := dreg_lt d
  exact dsp_law 0 a.num 0 i.num d.num (by omega) rfl (by intros; simp [decodeDspLdst, *])

theorem RoundTrip.loadLoI (a : PostMod) (d : DReg) (i : DagN) : RoundTrip.Statement (.loadLoI a d i) := by
  intro _
  have := postMod_lt a; have := dagN_lt i; have := dreg_lt d
  exact dsp_law 0 a.num 1 i.num d.num (by omega) rfl (by intros; simp [decodeDspLdst, *])

theorem RoundTrip.loadHiI (a : PostMod) (d : DReg) (i : DagN) : RoundTrip.Statement (.loadHiI a d i) := by
  intro _
  have := postMod_lt a; have := dagN_lt i; have := dreg_lt d
  exact dsp_law 0 a.num 2 i.num d.num (by omega) rfl (by intros; simp [decodeDspLdst, *])

theorem RoundTrip.storeDI (a : PostMod) (i : DagN) (s : DReg) : RoundTrip.Statement (.storeDI a i s) := by
  intro _
  have := postMod_lt a; have := dagN_lt i; have := dreg_lt s
  exact dsp_law 1 a.num 0 i.num s.num (by omega) rfl (by intros; simp [decodeDspLdst, *])

theorem RoundTrip.storeLoI (a : PostMod) (i : DagN) (s : DReg) : RoundTrip.Statement (.storeLoI a i s) := by
  intro _
  have := postMod_lt a; have := dagN_lt i; have := dreg_lt s
  exact dsp_law 1 a.num 1 i.num s.num (by omega) rfl (by intros; simp [decodeDspLdst, *])

theorem RoundTrip.storeHiI (a : PostMod) (i : DagN) (s : DReg) : RoundTrip.Statement (.storeHiI a i s) := by
  intro _
  have := postMod_lt a; have := dagN_lt i; have := dreg_lt s
  exact dsp_law 1 a.num 2 i.num s.num (by omega) rfl (by intros; simp [decodeDspLdst, *])

theorem RoundTrip.loadDIM (d : DReg) (i m : DagN) : RoundTrip.Statement (.loadDIM d i m) := by
  intro _
  have := dagN_lt m; have := dagN_lt i; have := dreg_lt d
  exact dsp_law 0 3 m.num i.num d.num (by omega) rfl (by intros; simp [decodeDspLdst, PostMod.ofField, *])

theorem RoundTrip.storeDIM (i m : DagN) (s : DReg) : RoundTrip.Statement (.storeDIM i m s) := by
  intro _
  have := dagN_lt m; have := dagN_lt i; have := dreg_lt s
  exact dsp_law 1 3 m.num i.num s.num (by omega) rfl (by intros; simp [decodeDspLdst, PostMod.ofField, *])

theorem RoundTrip.addIM (i m : DagN) : RoundTrip.Statement (.addIM i m) := by
  intro _
  have := dagN_lt m; have := dagN_lt i
  refine law16 (u := 40544 + m.num * 4 + i.num) rfl (by omega) ?_
  generalize hh : 40544 + m.num * 4 + i.num = h
  have f0 : bits h 0 2 = i.num := field (by omega)
  have f1 : bits h 2 2 = m.num := field (by omega)
  have f2 : bits h 4 8 = 230 := field (by omega)
  have f3 : bits h 5 2 = 3 := field (by omega)
  have f4 : bits h 8 4 = 14 := field (by omega)
  have f5 : bits h 10 2 = 3 := field (by omega)
  have f6 : bits h 12 4 = 9 := field (by omega)
  have f7 : bit h 4 = false := bit_of_zero (by omega)
  have f8 : bit h 7 = false := bit_of_zero (by omega)
  simp [decodeDagModIm, decode9, decode16, f0, f1, f2, f3, f4, f5, f6, f7, f8, dagN_lt m, dagN_lt i]

theorem RoundTrip.subIM (i m : DagN) : RoundTrip.Statement (.subIM i m) := by
  intro _
  have := dagN_lt m; have := dagN_lt i
  refine law16 (u := 40560 + m.num * 4 + i.num) rfl (by omega) ?_
  generalize hh : 40560 + m.num * 4 + i.num = h
  have f0 : bits h 0 2 = i.num := field (by omega)
  have f1 : bits h 2 2 = m.num := field (by omega)
  have f2 : bits h 4 8 = 231 := field (by omega)
  have f3 : bits h 5 2 = 3 := field (by omega)
  have f4 : bits h 8 4 = 14 := field (by omega)
  have f5 : bits h 10 2 = 3 := field (by omega)
  have f6 : bits h 12 4 = 9 := field (by omega)
  have f7 : bit h 4 = true := bit_of_one (by omega)
  have f8 : bit h 7 = false := bit_of_zero (by omega)
  simp [decodeDagModIm, decode9, decode16, f0, f1, f2, f3, f4, f5, f6, f7, f8, dagN_lt m, dagN_lt i]

theorem RoundTrip.addIMBrev (i m : DagN) : RoundTrip.Statement (.addIMBrev i m) := by
  intro _
  have := dagN_lt m; have := dagN_lt i
  refine law16 (u := 40672 + m.num * 4 + i.num) rfl (by omega) ?_
  generalize hh : 40672 + m.num * 4 + i.num = h
  have f0 : bits h 0 2 = i.num := field (by omega)
  have f1 : bits h 2 2 = m.num := field (by omega)
  have f2 : bits h 4 8 = 238 := field (by omega)
  have f3 : bits h 5 2 = 3 := field (by omega)
  have f4 : bits h 8 4 = 14 := field (by omega)
  have f5 : bits h 10 2 = 3 := field (by omega)
  have f6 : bits h 12 4 = 9 := field (by omega)
  have f7 : bit h 4 = false := bit_of_zero (by omega)
  have f8 : bit h 7 = true := bit_of_one (by omega)
  simp [decodeDagModIm, decode9, decode16, f0, f1, f2, f3, f4, f5, f6, f7, f8, dagN_lt m, dagN_lt i]

theorem RoundTrip.addPregBrev (d s : PReg) : RoundTrip.Statement (.addPregBrev d s) := by
  intro _
  have := preg_lt s; have := preg_lt d
  refine law16 (u := 17728 + s.num * 8 + d.num) rfl (by omega) ?_
  generalize hh : 17728 + s.num * 8 + d.num = h
  have f0 : bits h 0 3 = d.num := field (by omega)
  have f1 : bits h 3 3 = s.num := field (by omega)
  have f2 : bits h 6 3 = 5 := field (by omega)
  have f3 : bits h 10 2 = 1 := field (by omega)
  have f4 : bits h 12 4 = 4 := field (by omega)
  have f5 : bit h 9 = false := bit_of_zero (by omega)
  simp [decodePtr2op, decode4, decode16, f0, f1, f2, f3, f4, f5, preg_lt s, preg_lt d]

theorem RoundTrip.addI2 (i : DagN) : RoundTrip.Statement (.addI2 i) := by
  intro _
  have := dagN_lt i
  refine law16 (u := 40800 + i.num) rfl (by omega) ?_
  generalize hh : 40800 + i.num = h
  have f0 : bits h 0 2 = i.num := field (by omega)
  have f1 : bits h 2 2 = 0 := field (by omega)
  have f2 : bits h 4 8 = 246 := field (by omega)
  have f3 : bits h 5 2 = 3 := field (by omega)
  have f4 : bits h 8 4 = 15 := field (by omega)
  have f5 : bits h 10 2 = 3 := field (by omega)
  have f6 : bits h 12 4 = 9 := field (by omega)
  simp [decodeDagModIk, decode9, decode16, f0, f1, f2, f3, f4, f5, f6, dagN_lt i]

theorem RoundTrip.subI2 (i : DagN) : RoundTrip.Statement (.subI2 i) := by
  intro _
  have := dagN_lt i
  refine law16 (u := 40804 + i.num) rfl (by omega) ?_
  generalize hh : 40804 + i.num = h
  have f0 : bits h 0 2 = i.num := field (by omega)
  have f1 : bits h 2 2 = 1 := field (by omega)
  have f2 : bits h 4 8 = 246 := field (by omega)
  have f3 : bits h 5 2 = 3 := field (by omega)
  have f4 : bits h 8 4 = 15 := field (by omega)
  have f5 : bits h 10 2 = 3 := field (by omega)
  have f6 : bits h 12 4 = 9 := field (by omega)
  simp [decodeDagModIk, decode9, decode16, f0, f1, f2, f3, f4, f5, f6, dagN_lt i]

theorem RoundTrip.addI4 (i : DagN) : RoundTrip.Statement (.addI4 i) := by
  intro _
  have := dagN_lt i
  refine law16 (u := 40808 + i.num) rfl (by omega) ?_
  generalize hh : 40808 + i.num = h
  have f0 : bits h 0 2 = i.num := field (by omega)
  have f1 : bits h 2 2 = 2 := field (by omega)
  have f2 : bits h 4 8 = 246 := field (by omega)
  have f3 : bits h 5 2 = 3 := field (by omega)
  have f4 : bits h 8 4 = 15 := field (by omega)
  have f5 : bits h 10 2 = 3 := field (by omega)
  have f6 : bits h 12 4 = 9 := field (by omega)
  simp [decodeDagModIk, decode9, decode16, f0, f1, f2, f3, f4, f5, f6, dagN_lt i]

theorem RoundTrip.subI4 (i : DagN) : RoundTrip.Statement (.subI4 i) := by
  intro _
  have := dagN_lt i
  refine law16 (u := 40812 + i.num) rfl (by omega) ?_
  generalize hh : 40812 + i.num = h
  have f0 : bits h 0 2 = i.num := field (by omega)
  have f1 : bits h 2 2 = 3 := field (by omega)
  have f2 : bits h 4 8 = 246 := field (by omega)
  have f3 : bits h 5 2 = 3 := field (by omega)
  have f4 : bits h 8 4 = 15 := field (by omega)
  have f5 : bits h 10 2 = 3 := field (by omega)
  have f6 : bits h 12 4 = 9 := field (by omega)
  simp [decodeDagModIk, decode9, decode16, f0, f1, f2, f3, f4, f5, f6, dagN_lt i]

theorem RoundTrip.nop : RoundTrip.Statement (.nop) := by
  intro _
  rfl

theorem RoundTrip.mnop : RoundTrip.Statement (.mnop) := by
  intro _
  rfl

theorem RoundTrip.cli (d : DReg) : RoundTrip.Statement (.cli d) := by
  intro _
  have := dreg_lt d
  refine law16 (u := 48 + d.num) rfl (by omega) ?_
  generalize hh : 48 + d.num = h
  have f0 : bits h 0 4 = d.num := field (by omega)
  have f1 : bits h 4 4 = 3 := field (by omega)
  have f2 : bits h 5 3 = 1 := field (by omega)
  have f3 : bits h 6 2 = 0 := field (by omega)
  have f4 : bits h 8 3 = 0 := field (by omega)
  have f5 : bits h 8 4 = 0 := field (by omega)
  have f6 : bits h 12 4 = 0 := field (by omega)
  have f7 : bit h 7 = false := bit_of_zero (by omega)
  simp [decodeProgCtrl, decode0, decode16, f0, f1, f2, f3, f4, f5, f6, f7, dreg_lt d]

theorem RoundTrip.sti (s : DReg) : RoundTrip.Statement (.sti s) := by
  intro _
  have := dreg_lt s
  refine law16 (u := 64 + s.num) rfl (by omega) ?_
  generalize hh : 64 + s.num = h
  have f0 : bits h 0 4 = s.num := field (by omega)
  have f1 : bits h 4 4 = 4 := field (by omega)
  have f2 : bits h 5 3 = 2 := field (by omega)
  have f3 : bits h 6 2 = 1 := field (by omega)
  have f4 : bits h 8 3 = 0 := field (by omega)
  have f5 : bits h 8 4 = 0 := field (by omega)
  have f6 : bits h 12 4 = 0 := field (by omega)
  have f7 : bit h 7 = false := bit_of_zero (by omega)
  simp [decodeProgCtrl, decode0, decode16, f0, f1, f2, f3, f4, f5, f6, f7, dreg_lt s]

theorem RoundTrip.raiseInt (n : BitVec 4) : RoundTrip.Statement (.raiseInt n) := by
  intro _
  have := n.isLt
  refine law16 (u := 144 + n.toNat) rfl (by omega) ?_
  generalize hh : 144 + n.toNat = h
  have f0 : bits h 0 4 = n.toNat := field (by omega)
  have f1 : bits h 4 4 = 9 := field (by omega)
  have f2 : bits h 5 3 = 4 := field (by omega)
  have f3 : bits h 6 2 = 2 := field (by omega)
  have f4 : bits h 8 3 = 0 := field (by omega)
  have f5 : bits h 8 4 = 0 := field (by omega)
  have f6 : bits h 12 4 = 0 := field (by omega)
  have f7 : bit h 7 = true := bit_of_one (by omega)
  simp [decodeProgCtrl, decode0, decode16, f0, f1, f2, f3, f4, f5, f6, f7, n.isLt]

theorem RoundTrip.excpt (n : BitVec 4) : RoundTrip.Statement (.excpt n) := by
  intro _
  have := n.isLt
  refine law16 (u := 160 + n.toNat) rfl (by omega) ?_
  generalize hh : 160 + n.toNat = h
  have f0 : bits h 0 4 = n.toNat := field (by omega)
  have f1 : bits h 4 4 = 10 := field (by omega)
  have f2 : bits h 5 3 = 5 := field (by omega)
  have f3 : bits h 6 2 = 2 := field (by omega)
  have f4 : bits h 8 3 = 0 := field (by omega)
  have f5 : bits h 8 4 = 0 := field (by omega)
  have f6 : bits h 12 4 = 0 := field (by omega)
  have f7 : bit h 7 = true := bit_of_one (by omega)
  simp [decodeProgCtrl, decode0, decode16, f0, f1, f2, f3, f4, f5, f6, f7, n.isLt]

theorem RoundTrip.emuexcpt : RoundTrip.Statement (.emuexcpt) := by
  intro _
  rfl

theorem RoundTrip.idle : RoundTrip.Statement (.idle) := by
  intro _
  rfl

theorem RoundTrip.csync : RoundTrip.Statement (.csync) := by
  intro _
  rfl

theorem RoundTrip.ssync : RoundTrip.Statement (.ssync) := by
  intro _
  rfl

theorem RoundTrip.testset (p : PReg) : RoundTrip.Statement (.testset p) := by
  intro _
  have := preg_lt p
  refine law16 (u := 176 + p.num) rfl (by omega) ?_
  generalize hh : 176 + p.num = h
  have f0 : bits h 0 4 = p.num := field (by omega)
  have f1 : bits h 4 4 = 11 := field (by omega)
  have f2 : bits h 5 3 = 5 := field (by omega)
  have f3 : bits h 6 2 = 2 := field (by omega)
  have f4 : bits h 8 3 = 0 := field (by omega)
  have f5 : bits h 8 4 = 0 := field (by omega)
  have f6 : bits h 12 4 = 0 := field (by omega)
  have f7 : bit h 7 = true := bit_of_one (by omega)
  simp [decodeProgCtrl, decode0, decode16, f0, f1, f2, f3, f4, f5, f6, f7, preg_lt p]

theorem RoundTrip.prefetch (a : Bool) (p : PReg) : RoundTrip.Statement (.prefetch a p) := by
  intro _
  have := b2n_lt a; have := preg_lt p
  refine law16 (u := 576 + b2n a * 32 + p.num) rfl (by omega) ?_
  generalize hh : 576 + b2n a * 32 + p.num = h
  have f0 : bits h 0 3 = p.num := field (by omega)
  have f1 : bits h 3 2 = 0 := field (by omega)
  have f2 : bits h 5 3 = 2 + b2n a := field (by omega)
  have f3 : bits h 6 2 = 1 := field (by omega)
  have f4 : bits h 8 3 = 2 := field (by omega)
  have f5 : bits h 8 4 = 2 := field (by omega)
  have f6 : bits h 12 4 = 0 := field (by omega)
  have f7 : bit h 5 = a := bit_of_b2n (by omega)
  have f8 : bit h 7 = false := bit_of_zero (by omega)
  simp [decodeCaCtrl, decode0, decode16, f0, f1, f2, f3, f4, f5, f6, f7, f8, b2n_lt a, preg_lt p]

theorem RoundTrip.flush (a : Bool) (p : PReg) : RoundTrip.Statement (.flush a p) := by
  intro _
  have := b2n_lt a; have := preg_lt p
  refine law16 (u := 592 + b2n a * 32 + p.num) rfl (by omega) ?_
  generalize hh : 592 + b2n a * 32 + p.num = h
  have f0 : bits h 0 3 = p.num := field (by omega)
  have f1 : bits h 3 2 = 2 := field (by omega)
  have f2 : bits h 5 3 = 2 + b2n a := field (by omega)
  have f3 : bits h 6 2 = 1 := field (by omega)
  have f4 : bits h 8 3 = 2 := field (by omega)
  have f5 : bits h 8 4 = 2 := field (by omega)
  have f6 : bits h 12 4 = 0 := field (by omega)
  have f7 : bit h 5 = a := bit_of_b2n (by omega)
  have f8 : bit h 7 = false := bit_of_zero (by omega)
  simp [decodeCaCtrl, decode0, decode16, f0, f1, f2, f3, f4, f5, f6, f7, f8, b2n_lt a, preg_lt p]

theorem RoundTrip.flushinv (a : Bool) (p : PReg) : RoundTrip.Statement (.flushinv a p) := by
  intro _
  have := b2n_lt a; have := preg_lt p
  refine law16 (u := 584 + b2n a * 32 + p.num) rfl (by omega) ?_
  generalize hh : 584 + b2n a * 32 + p.num = h
  have f0 : bits h 0 3 = p.num := field (by omega)
  have f1 : bits h 3 2 = 1 := field (by omega)
  have f2 : bits h 5 3 = 2 + b2n a := field (by omega)
  have f3 : bits h 6 2 = 1 := field (by omega)
  have f4 : bits h 8 3 = 2 := field (by omega)
  have f5 : bits h 8 4 = 2 := field (by omega)
  have f6 : bits h 12 4 = 0 := field (by omega)
  have f7 : bit h 5 = a := bit_of_b2n (by omega)
  have f8 : bit h 7 = false := bit_of_zero (by omega)
  simp [decodeCaCtrl, decode0, decode16, f0, f1, f2, f3, f4, f5, f6, f7, f8, b2n_lt a, preg_lt p]

theorem RoundTrip.iflush (a : Bool) (p : PReg) : RoundTrip.Statement (.iflush a p) := by
  intro _
  have := b2n_lt a; have := preg_lt p
  refine law16 (u := 600 + b2n a * 32 + p.num) rfl (by omega) ?_
  generalize hh : 600 + b2n a * 32 + p.num = h
  have f0 : bits h 0 3 = p.num := field (by omega)
  have f1 : bits h 3 2 = 3 := field (by omega)
  have f2 : bits h 5 3 = 2 + b2n a := field (by omega)
  have f3 : bits h 6 2 = 1 := field (by omega)
  have f4 : bits h 8 3 = 2 := field (by omega)
  have f5 : bits h 8 4 = 2 := field (by omega)
  have f6 : bits h 12 4 = 0 := field (by omega)
  have f7 : bit h 5 = a := bit_of_b2n (by omega)
  have f8 : bit h 7 = false := bit_of_zero (by omega)
  simp [decodeCaCtrl, decode0, decode16, f0, f1, f2, f3, f4, f5, f6, f7, f8, b2n_lt a, preg_lt p]

theorem RoundTrip.pushReg (r : AllReg) : RoundTrip.Statement (.pushReg r) := by
  intro _
  have := allReg_lt r
  refine law16 (u := 320 + r.code) rfl (by omega) ?_
  generalize hh : 320 + r.code = h
  have f0 : bits h 0 3 = (r.code % 8) := field (by omega)
  have f1 : bits h 3 3 = (r.code / 8) := field (by omega)
  have f2 : bits h 5 3 = 2 + (r.code / 32) := field (by omega)
  have f3 : bits h 6 2 = 1 := field (by omega)
  have f4 : bits h 8 3 = 1 := field (by omega)
  have f5 : bits h 8 4 = 1 := field (by omega)
  have f6 : bits h 12 4 = 0 := field (by omega)
  have f7 : bit h 6 = true := bit_of_one (by omega)
  have f8 : bit h 7 = false := bit_of_zero (by omega)
  simp [decodePushPopReg, decode0, decode16, f0, f1, f2, f3, f4, f5, f6, f7, f8, allReg_lt r]

theorem RoundTrip.popReg (r : AllReg) : RoundTrip.Statement (.popReg r) := by
  intro _
  have := allReg_lt r
  refine law16 (u := 256 + r.code) rfl (by omega) ?_
  generalize hh : 256 + r.code = h
  have f0 : bits h 0 3 = (r.code % 8) := field (by omega)
  have f1 : bits h 3 3 = (r.code / 8) := field (by omega)
  have f2 : bits h 5 3 = (r.code / 32) := field (by omega)
  have f3 : bits h 6 2 = 0 := field (by omega)
  have f4 : bits h 8 3 = 1 := field (by omega)
  have f5 : bits h 8 4 = 1 := field (by omega)
  have f6 : bits h 12 4 = 0 := field (by omega)
  have f7 : bit h 6 = false := bit_of_zero (by omega)
  have f8 : bit h 7 = false := bit_of_zero (by omega)
  simp [decodePushPopReg, decode0, decode16, f0, f1, f2, f3, f4, f5, f6, f7, f8, allReg_lt r]

theorem RoundTrip.pushMulti (r : MultiRegs) : RoundTrip.Statement (.pushMulti r) := by
  intro wf
  rcases r with ⟨_ | zd, _ | zp⟩
  · rfl
  · have wp := preg_inRange (p := zp) (by simpa [Instr.spelled] using wf)
    have := preg_lt zp
    refine law16 (u := 1216 + zp.num) (by simp only [encode, MultiRegs.code]; congr 1; omega) (by omega) ?_
    generalize hh : 1216 + zp.num = h
    have f0 : bits h 0 3 = zp.num := field (by omega)
    have f1 : bits h 3 3 = 0 := field (by omega)
    have f2 : bits h 5 3 = 6 := field (by omega)
    have f3 : bits h 6 2 = 3 := field (by omega)
    have f4 : bits h 8 3 = 4 := field (by omega)
    have f5 : bits h 8 4 = 4 := field (by omega)
    have f6 : bits h 12 4 = 0 := field (by omega)
    have f7 : bit h 6 = true := bit_of_one (by omega)
    have f8 : bit h 7 = true := bit_of_one (by omega)
    have f9 : bit h 8 = false := bit_of_zero (by omega)
    simp [decodePushPopMultiple, decode0, decode16, f0, f1, f2, f3, f4, f5, f6, f7, f8, f9, wp]
  · have := dreg_lt zd
    refine law16 (u := 1344 + zd.num * 8) (by simp only [encode, MultiRegs.code]; congr 1; omega) (by omega) ?_
    generalize hh : 1344 + zd.num * 8 = h
    have f0 : bits h 0 3 = 0 := field (by omega)
    have f1 : bits h 3 3 = zd.num := field (by omega)
    have f2 : bits h 5 3 = 2 + (zd.num / 4) := field (by omega)
    have f3 : bits h 6 2 = 1 := field (by omega)
    have f4 : bits h 8 3 = 5 := field (by omega)
    have f5 : bits h 8 4 = 5 := field (by omega)
    have f6 : bits h 12 4 = 0 := field (by omega)
    have f7 : bit h 6 = true := bit_of_one (by omega)
    have f8 : bit h 7 = false := bit_of_zero (by omega)
    have f9 : bit h 8 = true := bit_of_one (by omega)
    simp [decodePushPopMultiple, decode0, decode16, f0, f1, f2, f3, f4, f5, f6, f7, f8, f9]
  · have wp := preg_inRange (p := zp) (by simpa [Instr.spelled] using wf)
    have := dreg_lt zd; have := preg_lt zp
    refine law16 (u := 1472 + zd.num * 8 + zp.num) (by simp only [encode, MultiRegs.code]; congr 1; omega) (by omega) ?_
    generalize hh : 1472 + zd.num * 8 + zp.num = h
    have f0 : bits h 0 3 = zp.num := field (by omega)
    have f1 : bits h 3 3 = zd.num := field (by omega)
    have f2 : bits h 5 3 = 6 + (zd.num / 4) := field (by omega)
    have f3 : bits h 6 2 = 3 := field (by omega)
    have f4 : bits h 8 3 = 5 := field (by omega)
    have f5 : bits h 8 4 = 5 := field (by omega)
    have f6 : bits h 12 4 = 0 := field (by omega)
    have f7 : bit h 6 = true := bit_of_one (by omega)
    have f8 : bit h 7 = true := bit_of_one (by omega)
    have f9 : bit h 8 = true := bit_of_one (by omega)
    simp [decodePushPopMultiple, decode0, decode16, f0, f1, f2, f3, f4, f5, f6, f7, f8, f9, wp]

theorem RoundTrip.popMulti (r : MultiRegs) : RoundTrip.Statement (.popMulti r) := by
  intro wf
  rcases r with ⟨_ | zd, _ | zp⟩
  · rfl
  · have wp := preg_inRange (p := zp) (by simpa [Instr.spelled] using wf)
    have := preg_lt zp
    refine law16 (u := 1152 + zp.num) (by simp only [encode, MultiRegs.code]; congr 1; omega) (by omega) ?_
    generalize hh : 1152 + zp.num = h
    have f0 : bits h 0 3 = zp.num := field (by omega)
    have f1 : bits h 3 3 = 0 := field (by omega)
    have f2 : bits h 5 3 = 4 := field (by omega)
    have f3 : bits h 6 2 = 2 := field (by omega)
    have f4 : bits h 8 3 = 4 := field (by omega)
    have f5 : bits h 8 4 = 4 := field (by omega)
    have f6 : bits h 12 4 = 0 := field (by omega)
    have f7 : bit h 6 = false := bit_of_zero (by omega)
    have f8 : bit h 7 = true := bit_of_one (by omega)
    have f9 : bit h 8 = false := bit_of_zero (by omega)
    simp [decodePushPopMultiple, decode0, decode16, f0, f1, f2, f3, f4, f5, f6, f7, f8, f9, wp]
  · have := dreg_lt zd
    refine law16 (u := 1280 + zd.num * 8) (by simp only [encode, MultiRegs.code]; congr 1; omega) (by omega) ?_
    generalize hh : 1280 + zd.num * 8 = h
    have f0 : bits h 0 3 = 0 := field (by omega)
    have f1 : bits h 3 3 = zd.num := field (by omega)
    have f2 : bits h 5 3 = (zd.num / 4) := field (by omega)
    have f3 : bits h 6 2 = 0 := field (by omega)
    have f4 : bits h 8 3 = 5 := field (by omega)
    have f5 : bits h 8 4 = 5 := field (by omega)
    have f6 : bits h 12 4 = 0 := field (by omega)
    have f7 : bit h 6 = false := bit_of_zero (by omega)
    have f8 : bit h 7 = false := bit_of_zero (by omega)
    have f9 : bit h 8 = true := bit_of_one (by omega)
    simp [decodePushPopMultiple, decode0, decode16, f0, f1, f2, f3, f4, f5, f6, f7, f8, f9]
  · have wp := preg_inRange (p := zp) (by simpa [Instr.spelled] using wf)
    have := dreg_lt zd; have := preg_lt zp
    refine law16 (u := 1408 + zd.num * 8 + zp.num) (by simp only [encode, MultiRegs.code]; congr 1; omega) (by omega) ?_
    generalize hh : 1408 + zd.num * 8 + zp.num = h
    have f0 : bits h 0 3 = zp.num := field (by omega)
    have f1 : bits h 3 3 = zd.num := field (by omega)
    have f2 : bits h 5 3 = 4 + (zd.num / 4) := field (by omega)
    have f3 : bits h 6 2 = 2 := field (by omega)
    have f4 : bits h 8 3 = 5 := field (by omega)
    have f5 : bits h 8 4 = 5 := field (by omega)
    have f6 : bits h 12 4 = 0 := field (by omega)
    have f7 : bit h 6 = false := bit_of_zero (by omega)
    have f8 : bit h 7 = true := bit_of_one (by omega)
    have f9 : bit h 8 = true := bit_of_one (by omega)
    simp [decodePushPopMultiple, decode0, decode16, f0, f1, f2, f3, f4, f5, f6, f7, f8, f9, wp]

theorem RoundTrip.link (n : BitVec 16) : RoundTrip.Statement (.link n) := by
  intro _
  have := n.isLt
  refine law32 (u := 59392) (v := n.toNat) rfl (by omega) ?_
  generalize hhi : 59392 = hi
  generalize hlo : n.toNat = lo
  have f0 : bits hi 0 8 = 0 := field (by omega)
  have f1 : bits hi 7 2 = 0 := field (by omega)
  have f2 : bits hi 8 4 = 8 := field (by omega)
  have f3 : bits hi 9 2 = 0 := field (by omega)
  have f4 : bits hi 12 4 = 14 := field (by omega)
  have f5 : bit hi 7 = false := bit_of_zero (by omega)
  simp [decodeE, decode32, f0, f1, f2, f3, f4, f5, n.isLt, ← hlo]

theorem RoundTrip.unlink : RoundTrip.Statement (.unlink) := by
  intro _
  rfl

end Sys2Proof.Laws
end

