-- ==== Sys2Proof/Safety.lean ====
section
/-!
DEFINITION. The terms in which statements about the machine are made: what a state keeps apart from the registers, flags
and bytes that an instruction names (a frame), how an instruction ends, what an exception entry leaves, which data
accesses nothing stands in the way of, and the invariants of the machine.
-/

namespace Sys2Proof.Machine

/-! ## Bytes, halves and words of memory (20_memory.md R330) -/

/-- The byte at an address as the current core sees it (G2 of R340): what the newest of its pending stores to it holds,
else what memory has; none where nothing has been written. -/
def State.seen (s : State) (a : Nat) : Option Byte := (pendByte s.cur.stores a).or (s.mem.read a)

/-- The byte that a data access of the current core reads at an address (R330). -/
def State.byte (s : State) (a : Nat) : Byte := (pendByte s.cur.stores a).getD (s.mem.load a)

/-- The half word at an address: the byte at the lower address is the less significant one. -/
def State.half (s : State) (a : Nat) : HWord := s.byte (a + 1) ++ s.byte a

/-- The word at an address: the byte at the lowest address is the least significant one. -/
def State.word (s : State) (a : Nat) : Word := s.byte (a + 3) ++ s.byte (a + 2) ++ s.byte (a + 1) ++ s.byte a

/-- The `n` bytes from address `a` on. -/
def bytesAt (a n : Nat) (x : Nat) : Prop := a ≤ x ∧ x < a + n

/-- No byte at all. -/
def noBytes (_ : Nat) : Prop := False

/-- From `s` to `t` the core has stored to the bytes in `st` alone: stores to those bytes have joined its pending stores,
at the end, memory itself is as it was (R331, R341), and the core sees every other byte as before. -/
def storesTo (s t : State) (st : Nat → Prop) : Prop :=
  t.mem = s.mem ∧
    (∃ new, t.cur.stores = s.cur.stores ++ new ∧ ∀ q ∈ new, 0 < q.size ∧ ∀ x, bytesAt q.addr q.size x → st x) ∧
    ∀ a, ¬ st a → t.seen a = s.seen a ∧ t.byte a = s.byte a

/-! ## Frames -/

/-- A flag of ASTAT (R70): those that CC moves can name, CC itself, and RND_MOD. -/
inductive FlagName where
  | az | an | aq | ac0 | ac1 | av0 | av0s | av1 | av1s | v | vs | cc | rndMod
  deriving DecidableEq, Repr

/-- The value of a flag. -/
def State.flag (s : State) : FlagName → Bool
  | .az => s.cur.astat.az
  | .an => s.cur.astat.an
  | .aq => s.cur.astat.aq
  | .ac0 => s.cur.astat.ac0
  | .ac1 => s.cur.astat.ac1
  | .av0 => s.cur.astat.av0
  | .av0s => s.cur.astat.av0s
  | .av1 => s.cur.astat.av1
  | .av1s => s.cur.astat.av1s
  | .v => s.cur.astat.v
  | .vs => s.cur.astat.vs
  | .cc => s.cur.astat.cc
  | .rndMod => s.cur.astat.rndMod

/-- The stack pointer that the current mode does not call SP (R54). -/
def State.otherSp (s : State) : Word := if s.user then s.cur.p.ssp else s.cur.p.usp

/-- Core `c` with the registers that an instruction can name, and the pending stores, taken from `g`: what is left is
everything else. -/
def Core.withNamed (c g : Core) : Core :=
  { c with
    r := g.r, p := g.p, i := g.i, m := g.m, b := g.b, l := g.l, a0 := g.a0, a1 := g.a1, astat := g.astat,
    rets := g.rets, loop0 := g.loop0, loop1 := g.loop1, cycles := g.cycles, seqstat := g.seqstat, syscfg := g.syscfg,
    stepLate := g.stepLate, reti := g.reti, retx := g.retx, retn := g.retn, rete := g.rete, stores := g.stores }

/-- From `s` to `t` nothing changes but the registers in `rs`, the flags in `fs` and the bytes in `st`: the pc, the mode,
the event controller, the core MMRs, the caches, the fills, the debug units, the other core, the peripherals, the board
and every other byte of memory stay, and the outside world sees nothing. What the core stores is seen by its own loads at
once and pending in its buffers (`storesTo`). The name USP is that of SP in User mode, and of the other stack pointer in
Supervisor mode (R54). (The model's own counter of free values and its own bookkeeping of the step in progress are no
state of the machine.) -/
structure Frame (s t : State) (rs : List AllReg) (fs : List FlagName) (st : Nat → Prop) : Prop where
  regs : ∀ r, r ∉ rs → r ≠ .astat → r ≠ .usp → t.readReg r = s.readReg r
  otherSp : AllReg.usp ∈ rs ∨ t.otherSp = s.otherSp
  flags : ∀ f, f ∉ fs → t.flag f = s.flag f
  core : t.cur.withNamed s.cur = s.cur
  oth : t.oth = s.oth
  sys : t.sys = s.sys
  inputs : t.inputs = s.inputs
  mem : storesTo s t st
  outside : t.board = s.board ∧ t.out = s.out

/-- The instruction `i` completes from `s`: exec answers a next state, which is some state `u` moved on by the sequencer
past an instruction of `len` bytes (R830, R860; `State.finish`); `u` differs from `s` as `Frame` says, and `P` holds of
it. -/
def Completes (i : Instr) (s : State) (len : Nat) (rs : List AllReg) (fs : List FlagName) (st : Nat → Prop)
    (P : State → Prop) : Prop :=
  ∃ u, exec i s = .next (u.finish len) ∧ u.issue.slot = s.issue.slot ∧ Frame s u rs fs st ∧ P u

/-- The same for an instruction that also changes something besides registers, flags and bytes of memory: `v` is `s` with
that changed, and `u` differs from `v` as `Frame` says. -/
def CompletesVia (i : Instr) (s v : State) (len : Nat) (rs : List AllReg) (fs : List FlagName) (st : Nat → Prop)
    (P : State → Prop) : Prop :=
  ∃ u, exec i s = .next (u.finish len) ∧ u.issue.slot = s.issue.slot ∧ Frame v u rs fs st ∧ P u

/-- Core `c` with what entering an exception touches taken from `g`: the pc and RETX, SEQSTAT, the event controller, the
report of a CPLB, the entries of the trace buffer, the counts of the performance monitor, and the model's own bookkeeping of
fetches, waits and loads made ahead. -/
def Core.withEntry (c g : Core) : Core :=
  { c with
    pc := g.pc, retx := g.retx, seqstat := g.seqstat, ev := g.ev, idle := g.idle
    dmem := { c.dmem with faultAddr := g.dmem.faultAddr, status := g.dmem.status }
    imem := { c.imem with faultAddr := g.imem.faultAddr, status := g.imem.status }
    trace := { c.trace with entries := g.trace.entries }
    perf := { c.perf with cntr0 := g.perf.cntr0, cntr1 := g.perf.cntr1 }
    stale := g.stale, waiting := g.waiting, progress := g.progress, early := g.early, synced := g.synced }

/-- The performance monitor is off (R1880). -/
def State.perfOff (s : State) : Prop := s.cur.perf.ctl.getLsbD 0 = false

/-- The trace buffer is off (R1870). -/
def State.traceOff (s : State) : Prop := s.cur.trace.en = false

/-- The outcome `o` of an instruction or a bundle that was about to run in `s`, alone and not in an exception routine, is the
entry of the error exception `code` (R1720, R1740), with nothing of the instruction committed: RETX is its own address,
EXCAUSE the code, event 3 is in service (IPEND[4] keeps its value, which R1740 item 4 derives), the core goes on at EVT3.
Everything else stays: every register (RETS, RETI, RETN, RETE, SYSCFG, CYCLES and the loops among them), the flags, the event
vectors, IMASK, the rest of IPEND, the latched events (but for bit 3 of ILAT, which the entry clears, and bit 5, which a
performance monitor that is on may latch, with its HWERRCAUSE), the core MMRs and caches but for a CPLB's report, the trace
and the counts, the other core, the peripherals, memory, the board, the inputs, and the outside world sees nothing. -/
def Entered (o : Outcome) (s : State) (code : BitVec 6) : Prop :=
  ∃ t, o = .next t ∧ t.cur.retx = s.cur.pc ∧ t.cur.pc = s.cur.ev.evt.toList.getD 3 0 ∧
    { t.cur.seqstat with hwerrcause := s.cur.seqstat.hwerrcause } = { s.cur.seqstat with excause := code } ∧
    { t.cur.ev with ilat := s.cur.ev.ilat, raised := s.cur.ev.raised } =
      { s.cur.ev with ipend := s.cur.ev.ipend ||| 0x8 } ∧
    (∀ k, k < 16 → k ≠ 3 → k ≠ 5 ∨ s.perfOff → t.cur.ev.ilat.getLsbD k = s.cur.ev.ilat.getLsbD k) ∧
    (s.perfOff → t.cur.perf = s.cur.perf ∧ t.cur.seqstat.hwerrcause = s.cur.seqstat.hwerrcause) ∧
    t.cur.withEntry s.cur = s.cur ∧ t.oth = s.oth ∧ t.sys = s.sys ∧ t.mem = s.mem ∧ t.board = s.board ∧
    t.inputs = s.inputs ∧ t.out = s.out

/-- The instruction `i` takes the error exception `code` from `s`. -/
def Traps (i : Instr) (s : State) (code : BitVec 6) : Prop := Entered (exec i s) s code

/-- The state is one in which an error exception is taken at once: the instruction is issued alone, and no exception, NMI
or reset routine is in service (R1727). -/
def State.canTrap (s : State) : Prop := s.issue.slot = .single ∧ s.cur.inException = false

/-! ## What the flags say of a result (10_state.md R70 to R72; 41_alu.md R600, R601) -/

/-- AZ and AN say whether the result is zero and negative. -/
def State.signs {w : Nat} (u : State) (r : BitVec w) : Prop := u.flag .az = (r == 0) ∧ u.flag .an = r.msb

/-- V says `o`, and VS keeps what it was or takes a true `o`. -/
def overflows (s u : State) (o : Bool) : Prop := u.flag .v = o ∧ u.flag .vs = (s.flag .vs || o)

/-- The overflow flag of an accumulator says `o`, and its sticky flag keeps what it was or takes a true `o`. -/
def accOverflows (s u : State) (a : AccN) (o : Bool) : Prop :=
  match a with
  | .a0 => u.flag .av0 = o ∧ u.flag .av0s = (s.flag .av0s || o)
  | .a1 => u.flag .av1 = o ∧ u.flag .av1s = (s.flag .av1s || o)

/-- The flags of the row AZ, AN from the result; AC0, AC1, V cleared. -/
def State.logicSigns (u : State) (r : Word) : Prop :=
  u.signs r ∧ u.flag .ac0 = false ∧ u.flag .ac1 = false ∧ u.flag .v = false

/-- The exact number `x` is no signed number of `w` bits. -/
def outside (w : Nat) (x : Int) : Bool := decide (x < -(2 ^ (w - 1)) ∨ 2 ^ (w - 1) - 1 < x)

/-- The signed number of `w` bits nearest to `x`. -/
def nearest (w : Nat) (x : Int) : Int := max (-(2 ^ (w - 1))) (min (2 ^ (w - 1) - 1) x)

/-- The `w` bits that the exact number `x` leaves: with saturation the nearest number, else the low bits (R600). -/
def written (w : Nat) (sat : Bool) (x : Int) : BitVec w := BitVec.ofInt w (if sat then nearest w x else x)

/-- The flags that a sum writes (R601): AZ, AN, AC0, V and the sticky VS. -/
def sumNames : List FlagName := [.az, .an, .ac0, .v, .vs]

/-- The flags that two sums at once write: those of a sum and AC1. -/
def sumNames2 : List FlagName := [.az, .an, .ac0, .ac1, .v, .vs]

/-- The flags of the row that clears AC0, AC1 and V. -/
def logicNames : List FlagName := [.az, .an, .ac0, .ac1, .v]

/-- The flags that AZ, AN, V and the sticky VS are. -/
def znvNames : List FlagName := [.az, .an, .v, .vs]

/-- The overflow flags of an accumulator. -/
def avNames : AccN → List FlagName
  | .a0 => [.av0, .av0s]
  | .a1 => [.av1, .av1s]

/-- The two parts of an accumulator as registers. -/
def accParts (a : AccN) : List AllReg := [.ax a, .aw a]

/-- The bit of ASTAT that holds a flag (R70). -/
def FlagName.pos : FlagName → Nat
  | .az => 0 | .an => 1 | .cc => 5 | .aq => 6 | .rndMod => 8 | .ac0 => 12 | .ac1 => 13 | .av0 => 16 | .av0s => 17
  | .av1 => 18 | .av1s => 19 | .v => 24 | .vs => 25

/-- Every flag. -/
def FlagName.all : List FlagName := [.az, .an, .aq, .ac0, .ac1, .av0, .av0s, .av1, .av1s, .v, .vs, .cc, .rndMod]

/-- The name of a flag that CC moves can name. -/
def FlagName.of : Flag → FlagName
  | .az => .az | .an => .an | .aq => .aq | .ac0 => .ac0 | .ac1 => .ac1 | .av0 => .av0 | .av0s => .av0s | .av1 => .av1
  | .av1s => .av1s | .v => .v | .vs => .vs

/-- What a register reads after it has taken the value `v` (R550, R57, R60, R61, R70): ASTAT keeps the flags, An.X eight
bits, SYSCFG its two; SEQSTAT takes nothing. -/
def State.took (u : State) (r : AllReg) (v : Word) : Prop :=
  match r with
  | .astat => ∀ f, u.flag f = v.getLsbD f.pos
  | .ax a => accX (u.acc a) = v.extractLsb' 0 8
  | .syscfg => u.cur.syscfg.ssstep = v.getLsbD 0 ∧ u.cur.syscfg.ccen = v.getLsbD 1
  | .seqstat => True
  | _ => u.readReg r = v

/-- The registers that a write to `r` changes, ASTAT left out: its flags are named one by one. -/
def changedBy (r : AllReg) : List AllReg :=
  match r with
  | .astat | .seqstat => []
  | _ => [r]

/-- The flags that a write to `r` changes. -/
def changedFlags (r : AllReg) : List FlagName :=
  match r with
  | .astat => FlagName.all
  | _ => []

/-! ## More of what results look like -/

/-- AZ and AN over two results: their OR (D22). -/
def State.signs2 {w : Nat} (u : State) (r r' : BitVec w) : Prop :=
  u.flag .az = (r == 0 || r' == 0) ∧ u.flag .an = (r.msb || r'.msb)

/-- Half `h` of a data register has become `v`; its other half is what it was (R51). -/
def State.halfTook (s u : State) (d : DReg) (h : Half) (v : HWord) : Prop :=
  u.dh d h = v ∧
    match h with
    | .lo => u.dh d .hi = s.dh d .hi
    | .hi => u.dh d .lo = s.dh d .lo

/-- A data register holds the two lane results, crossed or not. -/
def State.lanes (u : State) (d : DReg) (cross : Bool) (h l : HWord) : Prop :=
  u.d d = if cross then l ++ h else h ++ l

/-- Exactly the `n + 1` leading bits of `a` are equal to its sign bit. -/
def leads {w : Nat} (a : BitVec w) (n : Nat) : Prop :=
  n < w ∧ (∀ k, k ≤ n → a.getLsbD (w - 1 - k) = a.msb) ∧ (n + 1 < w → a.getLsbD (w - 1 - (n + 1)) = !a.msb)

/-- The exact value of the signed number `x` shifted by `n` places: to the left, or for a negative `n` to the right,
towards minus infinity (R760, R761). -/
def shifted (x n : Int) : Int := if 0 ≤ n then x * 2 ^ n.toNat else x / 2 ^ (-n).toNat

/-- The logical shift of the `w`-bit number `x` by `n` places; zeros come in (R760, R761). -/
def shiftedL (w x : Nat) (n : Int) : Nat := if 0 ≤ n then x * 2 ^ n.toNat % 2 ^ w else x / 2 ^ (-n).toNat

/-- Place `k` of the ring of a `w`-bit value and CC on top of it (R794). -/
def ringBit {w : Nat} (cc : Bool) (a : BitVec w) (k : Nat) : Bool := if k < w then a.getLsbD k else cc

/-- The accumulator `a` has taken the exact value `x` under an option: saturated as R704 and R706 say, with its overflow
flags. -/
def State.accTook (s u : State) (m : MMod) (mm : Bool) (a : AccN) (x : Int) : Prop :=
  u.acc a = BitVec.ofInt 40 (accClamp m mm x) ∧ accOverflows s u a (decide (accClamp m mm x ≠ x))

/-- The value that an accumulation computes from the accumulator's old value and the product (R724 to R726). -/
def macValue (op : MacOp) (old p : Int) : Int :=
  match op with
  | .set => p
  | .add => old + p
  | .sub => old - p
  | .none => old

/-- A half of a data register has taken the extraction of `x` under option `o` (R712), with its V (R714). -/
def State.halfExtracted (s u : State) (o : MMod) (x : Int) (d : DReg) (h : Half) : Prop :=
  let y := extract16 s.cur.astat.rndMod o x
  State.halfTook s u d h y.1 ∧ overflows s u y.2

/-- A data register has taken the extraction of `x` under option `o` (R713), with its V (R714); both are free where R713
gives the option no value (log entry 21). -/
def State.wordExtracted (s u : State) (o : MMod) (x : Int) (d : DReg) : Prop :=
  ∃ w v, (∀ y, extract32 o x = some y → y = (w, v)) ∧ u.d d = w ∧ overflows s u v

/-- V and its sticky flag. -/
def vNames : List FlagName := [.v, .vs]

/-- The registers of the dual forms: the two halves of `d`, or with `pair` its register pair. -/
def dualDest (pair : Bool) (d : DReg) : List AllReg := if pair then [.d d, .d (DReg.pairHi d)] else [.d d]

/-! ## Data accesses that nothing stands in the way of -/

/-- An access of `n` bytes at `a`, aligned, with the DCPLBs off, to this core's L1 data SRAM or its scratchpad, which the
watchpoint unit does not see, the other part of a bundle does not store to, and the core has not made ahead of an older one
(R340): it raises nothing and waits for nothing, reads the bytes as the core sees them, or joins the core's pending stores
(R341). -/
def State.plain (s : State) (a : Word) (n : Nat) : Prop :=
  a.toNat % n = 0 ∧ s.cur.dmem.endcplb = false ∧ s.cur.wp.iactl.getLsbD 0 = false ∧ s.issue.clash = none ∧
    s.cur.earlyRead a.toNat n = none ∧ (s.cur.region a.toNat = .dataSram ∨ s.cur.region a.toNat = .scratchpad)

/-- The data access of an instruction that makes one, the first one of an instruction that makes several: its address, its
number of bytes, and whether it stores (45_loadstore.md R901 to R909, R912; 46_system.md R1015, R1016, R1018 to R1020). None
for a form that the spec calls not meaningful, for a push or pop that the mode may not make, for a push or pop multiple of no
register (log entry 3), and for a LINK of a size outside its range. -/
def State.access (s : State) : Instr → Option (Word × Nat × Bool)
  | .loadP a d p => if d = p ∧ a ≠ .keep then none else some (s.p p, 4, false)
  | .loadD _ _ p => some (s.p p, 4, false)
  | .loadWZ _ _ p | .loadWX _ _ p => some (s.p p, 2, false)
  | .loadBZ _ _ p | .loadBX _ _ p => some (s.p p, 1, false)
  | .storeP _ p _ | .storeD _ p _ => some (s.p p, 4, true)
  | .storeW _ p _ => some (s.p p, 2, true)
  | .storeB _ p _ => some (s.p p, 1, true)
  | .loadDOff _ p o | .loadPOff _ p o => some (s.p p + BitVec.ofNat 32 (4 * o.toNat), 4, false)
  | .loadWZOff _ p o | .loadWXOff _ p o => some (s.p p + BitVec.ofNat 32 (2 * o.toNat), 2, false)
  | .storeDOff p o _ | .storePOff p o _ => some (s.p p + BitVec.ofNat 32 (4 * o.toNat), 4, true)
  | .storeWOff p o _ => some (s.p p + BitVec.ofNat 32 (2 * o.toNat), 2, true)
  | .loadDLong _ p o | .loadPLong _ p o => some (s.p p + BitVec.ofInt 32 (4 * o.toInt), 4, false)
  | .loadWZLong _ p o | .loadWXLong _ p o => some (s.p p + BitVec.ofInt 32 (2 * o.toInt), 2, false)
  | .loadBZLong _ p o | .loadBXLong _ p o => some (s.p p + BitVec.ofInt 32 o.toInt, 1, false)
  | .storeDLong p o _ | .storePLong p o _ => some (s.p p + BitVec.ofInt 32 (4 * o.toInt), 4, true)
  | .storeWLong p o _ => some (s.p p + BitVec.ofInt 32 (2 * o.toInt), 2, true)
  | .storeBLong p o _ => some (s.p p + BitVec.ofInt 32 o.toInt, 1, true)
  | .loadFp _ o => some (s.p .fp - BitVec.ofNat 32 (4 * (32 - o.toNat)), 4, false)
  | .storeFp o _ => some (s.p .fp - BitVec.ofNat 32 (4 * (32 - o.toNat)), 4, true)
  | .loadDIdx _ p x => if p = x then none else some (s.p p, 4, false)
  | .loadWZIdx _ p x | .loadWXIdx _ p x => if p = x then none else some (s.p p, 2, false)
  | .loadLoIdx _ p _ | .loadHiIdx _ p _ => some (s.p p, 2, false)
  | .storeDIdx p x _ => if p = x then none else some (s.p p, 4, true)
  | .storeLoIdx p _ _ | .storeHiIdx p _ _ => some (s.p p, 2, true)
  | .loadDI _ _ i | .loadDIM _ i _ => some (if s.issue.noAlign then s.i i &&& 0xFFFFFFFC else s.i i, 4, false)
  | .loadLoI _ _ i | .loadHiI _ _ i => some (s.i i, 2, false)
  | .storeDI _ i _ | .storeDIM i _ _ => some (s.i i, 4, true)
  | .storeLoI _ i _ | .storeHiI _ i _ => some (s.i i, 2, true)
  | .pushReg r => if s.user && supervisorReg r || decide (r = .emudat) then none else some (s.p .sp - 4, 4, true)
  | .popReg r =>
    if s.user && supervisorDest r || decide (r = .emudat) || decide (r = .p .sp) then none else some (s.p .sp, 4, false)
  | .pushMulti m => if multiList m = [] then none else some (s.p .sp - 4, 4, true)
  | .popMulti m => if multiList m = [] then none else some (s.p .sp, 4, false)
  | .link n => if n.toNat < 2 then none else some (s.p .sp - 4, 4, true)
  | .unlink => some (s.p .fp, 4, false)
  | _ => none

/-- An access of `n` bytes at `a`, aligned, with the DCPLBs off, past the caches to on-chip L2 or external memory, which the
watchpoint unit does not see, no other part of a bundle makes, and the core has not made ahead of an older one (R340). -/
def State.behind (s : State) (a : Word) (n : Nat) : Prop :=
  a.toNat % n = 0 ∧ s.cur.dmem.endcplb = false ∧ s.cur.wp.iactl.getLsbD 0 = false ∧ s.issue.clash = none ∧
    s.cur.earlyRead a.toNat n = none ∧ (s.cur.region a.toNat = .l2 ∨ s.cur.region a.toNat = .external)

/-- The EBIU serves an access to the asynchronous bank at `a` at once: the bank is enabled with a setup and a read time, and
does not listen to ARDY, no other master has the bus, no other access is under way (R1626, R1634, R1636, R1660). -/
def State.bankReady (s : State) (a : Nat) (k : Nat) : Prop :=
  let c := s.sys.ebiu.bankCtl k
  s.sys.ebiu.extClass a = .async k ∧ c.extractLsb' 8 4 ≠ 0 ∧ c.extractLsb' 12 4 ≠ 0 ∧ c.getLsbD 0 = false ∧
    s.sys.ebiu.granted = false ∧ s.sys.ebiu.busy = none

/-- The core sees `v` at `a`, its least significant byte at the lowest address. -/
def State.holds (s : State) (a n : Nat) (v : Word) : Prop :=
  ∀ k, k < n → s.seen (a + k) = some (v.extractLsb' (8 * k) 8)

/-- The address register after an access of `n` bytes with `++`, `--` or neither (R901 to R903). -/
def postValue (a : PostMod) (v : Word) (n : Nat) : Word :=
  match a with
  | .inc => v + BitVec.ofNat 32 n
  | .dec => v - BitVec.ofNat 32 n
  | .keep => v

/-- The same for an index register, which goes round its circular buffer (R907, R908, R930). -/
def postIndex (s : State) (a : PostMod) (i : DagN) (n : Nat) : Word :=
  match a with
  | .inc => circ (s.i i) (s.b i) (s.l i) n
  | .dec => circ (s.i i) (s.b i) (s.l i) (-n)
  | .keep => s.i i

/-- The address register is written unless the form keeps it. -/
def ifPost (a : PostMod) (r : AllReg) : List AllReg := if a = .keep then [] else [r]

/-- The data or pointer register as a register that a move may name. -/
def dpAll : DPReg → AllReg
  | .d r => .d r
  | .p r => .p r

/-! ## The sequencer -/

/-- The core is at the bottom of the active loop of `u` (R860). -/
def Core.atBottom (c : Core) (u : LoopUnit) : Prop := c.pc = u.lb ∧ u.lc ≠ 0

/-- No hardware loop ends at the instruction that is about to complete. -/
def State.noLoopEnd (s : State) : Prop := ¬ s.cur.atBottom s.cur.loop0 ∧ ¬ s.cur.atBottom s.cur.loop1

/-- The pc is even, instruction fetches pass no CPLB, the bytes `bs` lie at the pc in this core's L1 instruction SRAM,
which has not been written since the core last synchronised (R349). -/
def State.codeAt (s : State) (bs : List Byte) : Prop :=
  s.cur.pc.getLsbD 0 = false ∧ s.cur.imem.enicplb = false ∧ s.cur.stale = [] ∧
    ∀ k, k < bs.length → s.mem.read (s.cur.pc.toNat + k) = bs[k]? ∧ s.cur.region (s.cur.pc.toNat + k) = .instSram

/-- The path that the instruction `i` does not take, if it is a conditional branch, loads nothing that a read changes
(R343). -/
def State.foresees (s : State) (i : Instr) : Prop :=
  ∀ pc, s.otherPath (.single i i.len) = some pc → pathGhosts 8 (s.setPc pc) = []

/-- The instruction has ended without an event, a wait, an emulation event or a full trace buffer. -/
def Issue.ended (i : Issue) : Prop :=
  i.event = false ∧ i.stalled = false ∧ i.emu = false ∧ i.full = false ∧ i.hit = none

/-- Nothing but an instruction can happen in the next step: the current core is the only agent that can move, it is not
idle, no event is takeable, it is not at the boot kernel, its cycle counter, performance monitor, watchpoint unit, trace
buffer and single step are off, and no instruction is in progress. -/
def State.quietCore (s : State) : Prop :=
  s.turns = [.current] ∧ s.cur.idle = false ∧ s.cur.takeable = none ∧ s.atBoot = false ∧ s.fetchHeld s.cur.pc = false ∧
    s.cur.syscfg.ccen = false ∧ s.cur.syscfg.ssstep = false ∧ s.perfOff ∧ s.traceOff ∧
    s.cur.wp.iactl.getLsbD 0 = false ∧ s.issue = .idle ∧ s.cur.waiting = none

/-- Event `n` is the one in service: its IPEND bit is set and no lower one, bit 4 left out (R842, R1741). -/
def State.serves (s : State) (n : Nat) : Prop :=
  n < 16 ∧ n ≠ 4 ∧ s.cur.ev.ipend.getLsbD n = true ∧ ∀ k, k < n → k ≠ 4 → s.cur.ev.ipend.getLsbD k = false

/-- The state with another value of IPEND. -/
def State.withIpend (s : State) (x : HWord) : State := s.setEv { s.cur.ev with ipend := x }

/-- The state whose current core fetches instruction memory as it is now, waits for nothing and has read nothing ahead
(R349, log entry 17). -/
def State.refetched (s : State) : State := s.setCur s.cur.refetch

/-- Event 3 has been entered from `s` with RETX `ret` and the code `code`; nothing is said of the registers
(R1740). -/
def State.entered (s t : State) (code : BitVec 6) (ret : Word) : Prop :=
  t.cur.retx = ret ∧ t.cur.seqstat.excause = code ∧ t.cur.pc = s.cur.ev.evt.toList.getD 3 0 ∧
    t.cur.ev.ipend = s.cur.ev.ipend ||| 0x8 ∧ t.cur.ev.imask = s.cur.ev.imask ∧ t.cur.idle = false

/-! ## Invariants -/

/-- IMASK[4:0] read 1 (60_exceptions.md R1711). -/
def Core.maskInv (c : Core) : Prop := c.ev.imask &&& 0x001F = 0x001F

/-- Both cores keep IMASK[4:0] at 1, and they are the two cores of the chip. -/
def State.coresInv (s : State) : Prop := s.cur.maskInv ∧ s.oth.maskInv ∧ s.cur.id ≠ s.oth.id

/-- Memory is in its canonical form. -/
def State.memInv (s : State) : Prop := s.mem.wf = true

end Sys2Proof.Machine
end

