-- ==== Sys2Proof/Certificates/Slice0/Obligations.lean ====
section
/-!
DEFINITION. The statements about the model, each with the rules of spec/ that it rests on. The vocabulary (`Completes`,
`Frame`, `Traps`, `State.plain`, …) is that of Sys2Proof/Safety.lean. `Completes i s len rs fs st P` says that `exec i s`
answers a next state, the sequencer's move past the instruction of some state `u` that differs from `s` only in the
registers `rs`, the flags `fs` and the bytes `st`, and of which `P` holds.
-/

open Sys2Proof Sys2Proof.Machine

/-! ## Encoding -/

/-- Decoding the bytes of any instruction that is spelled as its word's own row gives it back, with its length: no bit of
an encoding is dropped (30_encoding.md R509, R520 to R546). It holds of every well-formed instruction, and also of the
shift and LINK words whose operand lies outside its range (R503), which decode and are refused when they run. The spec
marks parts of R509, R520 to R546 as its own (general knowledge or derived). -/
def Obligations.DecodeEncode : Prop :=
  (∀ i : Instr, i.spelled = true → decode (encodeBytes i) = .single i i.len) ∧ ∀ i : Instr, i.wf = true → i.spelled = true

/-- Whatever bytes are decoded, an instruction that comes out is spelled as its word's own row and has the length that its
units say; the parts of a bundle are one 32-bit and two 16-bit instructions, not both stores (30_encoding.md R502, R506,
R507). Only the range of a shift count and of the size of a LINK is left to the instruction (R503). The spec marks parts of
R502, R506, R507 as its own (general knowledge or derived). -/
def Obligations.DecodedWellFormed : Prop :=
  ∀ bs : List Byte,
    (∀ i n, decode bs = .single i n → i.spelled = true ∧ n = i.len) ∧
    (∀ i0 i1 i2, decode bs = .bundle i0 i1 i2 →
      (i0.spelled = true ∧ i0.len = 4) ∧ (i1.spelled = true ∧ i1.len = 2) ∧ (i2.spelled = true ∧ i2.len = 2) ∧
        ¬ (i1.isStore16 = true ∧ i2.isStore16 = true))

/-- A bundle: a DSP instruction with its multi-issue bit set, and in the two units after it an instruction of slot 1 and
one of slot 2, not both stores, decode to the three of them (30_encoding.md R506, R509). The spec marks parts of R506,
R509 as its own (general knowledge or derived). -/
def Obligations.BundleDecodes : Prop :=
  ∀ (i0 i1 i2 : Instr) (u v u1 u2 : Nat), i0.spelled = true → i1.spelled = true → i2.spelled = true →
    encode i0 = [u, v] → 0xC000 ≤ u → u < 0xC800 → encode i1 = [u1] → encode i2 = [u2] → i1.slot1Ok = true →
    i2.slot2Ok = true → ¬ (i1.isStore16 = true ∧ i2.isStore16 = true) →
    decode ([u + 0x800, v, u1, u2].flatMap unitBytes) = .bundle i0 i1 i2

/-- Words written out by hand from the tables of 30_encoding.md decode to the instructions that they stand for. (Most of
R520 to R546 is general knowledge in the spec, not the source's.) -/
def Obligations.DecodeWords : Prop :=
  decodeTableWord 16 0x5011 = some (.addDreg .r0 .r1 .r2) ∧
  decodeTableWord 16 0x9009 = some (.loadD .inc .r1 .p1) ∧
  decodeTableWord 16 0x1802 = some (.brcc 2) ∧
  decodeTableWord 32 0xC4000653 = some (.vecAddAdd false false .r3 .r2 .r3) ∧
  decodeTableWord 32 0xC0030813 = some (.macA0Add .fr ⟨.lo, .lo, .r2, .r3⟩) ∧
  decodeTableWord 32 0xC0032853 = some (.macA0AddLo .fr .r1 ⟨.lo, .lo, .r2, .r3⟩) ∧
  decodeTableWord 32 0xE1081234 = some (.loadImm16Lo (.p .p0) 0x1234)

/-! ## The step -/

/-- The step runs the decoded instruction (30_encoding.md R508): where nothing else can happen and the bytes at the pc
decode to an instruction, the step is what exec makes of it, settled as the end of an instruction (`State.settle`); where
exec answers a state without an event or a wait, the step answers that state, its bookkeeping of the step put away
(`State.quiet`). Where later loads may be made ahead of the instruction's own (20_memory.md R340, log entry 96), a free
choice decides first: the step makes one of them, or it runs the instruction, from the state with the choice drawn. A
conditional branch is looked at where the path that it does not take reads nothing that a read changes (R343; log entry
75: both entries are the model's choices). The spec marks parts of R508, R340, R343 as its own (general knowledge or
derived). -/
def Obligations.StepRunsDecoded : Prop :=
  ∀ (s : State) (i : Instr) (bs : List Byte), s.quietCore → decode bs = .single i bs.length →
    s.codeAt bs → s.cur.synced = false → s.foresees i →
    let u := s.readAhead.2
    u = { s with free := u.free } ∧ (s.aheads = [] → s.readAhead = (none, s)) ∧
    (∀ v, s.readAhead.1 = some v → step s = .next v ∧ ∃ e ∈ s.aheads, v = u.makeAhead e) ∧
    (s.readAhead.1 = none →
      (∀ t, exec i u = .next t → step s = u.settle t) ∧ (∀ r, exec i u = .refused r → step s = .refused r) ∧
      (∀ f, exec i u = .fault f → step s = .fault f) ∧
      (∀ t, exec i u = .next t → t.issue.ended → t.perfOff → t.cur.syscfg.ssstep = false → step s = .next t.quiet))

/-- Bytes at the pc that decode to no instruction raise the undefined-instruction exception 0x21 (30_encoding.md R505):
the step is the entry of that error exception (`Entered`): RETX at those bytes, EXCAUSE, event 3 in service, the pc at EVT3;
IPEND[4], which R1740 item 4 leaves alone (a sentence that the spec derives), IMASK, the other latched events, the event
vectors, every other register (RETS, RETI, RETN, RETE, SYSCFG and CYCLES among them), the flags, the other core, the
peripherals, memory, the board, the inputs and the output keep their values. -/
def Obligations.UndefinedTraps : Prop :=
  ∀ (s : State) (bs : List Byte), s.quietCore → s.canTrap → 0 < bs.length → bs.length % 2 = 0 → decode bs = .undefined →
    bs.length = unitLen (unitOf (bs.getD 0 0) (bs.getD 1 0)) → s.codeAt bs → s.cur.synced = false →
    Entered (step s) s 0x21

/-- Where no hardware loop ends at it, an instruction that is no taken transfer goes on at the address after it, and nothing
else changes (44_flow.md R830). The hardware-loop rule (R860), at the bottom of a loop: unit 1 with a count of at least 2
loops back and unit 0 keeps its count; else a nonzero count of unit 1 goes down to 0 and unit 0 is looked at in the same way;
else the address after the instruction follows. The tops and bottoms stay. The spec marks parts of R860 as its own (general
knowledge or derived, or decided in D31). -/
def Obligations.HardwareLoop : Prop :=
  ∀ (s : State) (len : Nat), s.issue.slot = .single →
    (s.noLoopEnd → s.finish len = s.setPc (s.cur.pc + BitVec.ofNat 32 len)) ∧
    let t := s.finish len
    let c := s.cur
    (c.pc = c.loop1.lb → 2 ≤ c.loop1.lc.toNat →
      t.cur.pc = c.loop1.lt ∧ t.cur.loop1.lc = c.loop1.lc - 1 ∧ t.cur.loop0 = c.loop0) ∧
    (c.pc = c.loop1.lb → c.loop1.lc = 1 → t.cur.loop1.lc = 0) ∧
    (c.pc ≠ c.loop1.lb ∨ c.loop1.lc = 0 → t.cur.loop1 = c.loop1) ∧
    (c.pc ≠ c.loop1.lb ∨ c.loop1.lc.toNat < 2 → c.pc = c.loop0.lb → 2 ≤ c.loop0.lc.toNat →
      t.cur.pc = c.loop0.lt ∧ t.cur.loop0.lc = c.loop0.lc - 1) ∧
    (c.pc ≠ c.loop1.lb ∨ c.loop1.lc.toNat < 2 → c.pc = c.loop0.lb → c.loop0.lc = 1 →
      t.cur.pc = c.pc + BitVec.ofNat 32 len ∧ t.cur.loop0.lc = 0) ∧
    (c.pc ≠ c.loop1.lb ∨ c.loop1.lc.toNat < 2 → c.pc ≠ c.loop0.lb ∨ c.loop0.lc = 0 →
      t.cur.pc = c.pc + BitVec.ofNat 32 len ∧ t.cur.loop0 = c.loop0) ∧
    t.cur.loop1.lt = c.loop1.lt ∧ t.cur.loop1.lb = c.loop1.lb ∧ t.cur.loop0.lt = c.loop0.lt ∧
    t.cur.loop0.lb = c.loop0.lb

/-- Moving on past an instruction changes nothing but the pc, the two loop counts, and, where the performance monitor
counts a loop, its counters with the hardware error 0x12 and the latch of event 5 that their wrap sets, or the emulation
event that it asks for (44_flow.md R830, R860; 63_debug.md R1881, R1882): every other field of the state, the loop tops
and bottoms among them, is what it was. A part of a bundle does not move the core on (30_encoding.md R506). The spec marks
parts of R506, R860, R1881, R1882 as its own (general knowledge or derived, or decided in D31, D58). -/
def Obligations.SequencerFrame : Prop :=
  ∀ (s : State) (len : Nat),
    (s.issue.slot ≠ .single → s.finish len = s) ∧
    (let t := s.finish len
     t = { s with
       cur := { s.cur with
         pc := t.cur.pc, loop0 := { s.cur.loop0 with lc := t.cur.loop0.lc },
         loop1 := { s.cur.loop1 with lc := t.cur.loop1.lc },
         perf := { s.cur.perf with cntr0 := t.cur.perf.cntr0, cntr1 := t.cur.perf.cntr1 },
         seqstat := { s.cur.seqstat with hwerrcause := t.cur.seqstat.hwerrcause },
         ev := { s.cur.ev with ilat := t.cur.ev.ilat } },
       issue := { s.issue with emu := t.issue.emu } } ∧
     (t.cur.ev.ilat = s.cur.ev.ilat ∧ t.cur.seqstat = s.cur.seqstat ∨
       t.cur.ev.ilat = s.cur.ev.ilat ||| 0x20 ∧ t.cur.seqstat.hwerrcause = 0x12) ∧
     (s.perfOff → t.cur.perf = s.cur.perf ∧ t.cur.seqstat = s.cur.seqstat ∧ t.cur.ev = s.cur.ev ∧ t.issue = s.issue))

/-! ## Register moves (40_regmove.md) -/

/-- `allreg = allreg` (R550): between registers that the move may name, in a mode that may name them, the destination
takes the source's 32-bit view; SEQSTAT as a destination takes nothing, and the move completes (10_state.md R60 says only
that a move is no legal way to change it: the model's choice, DEDUCED, log entry 20). The spec marks parts of R550 as its
own (general knowledge or derived). -/
def Obligations.MoveRegister : Prop :=
  ∀ (d r : AllReg) (s : State), moveLegal d r = true →
    s.user = false ∨ (supervisorDest d = false ∧ supervisorReg r = false) → d ≠ .emudat → r ≠ .emudat →
    Completes (.moveReg d r) s 2 (changedBy d) (changedFlags d) noBytes fun u => u.took d (s.readReg r)

/-- Moves into and between accumulators and their parts, and their clearing (R551, R552, R560 to R563, R575): the named
part takes its value, the rest of the accumulator stays. The spec marks parts of R552, R560, R561, R575 as its own
(general knowledge or derived). -/
def Obligations.MoveAccumulator : Prop :=
  (∀ a s, Completes (.moveAccAcc a) s 4 (accParts a) [] noBytes fun u =>
    u.acc a = s.acc (match a with | .a0 => .a1 | .a1 => .a0)) ∧
  (∀ a r s, Completes (.moveAccDreg a r) s 4 (accParts a) [] noBytes fun u => (u.acc a).toInt = (s.d r).toInt) ∧
  (∀ a r s, Completes (.moveAccXDregLo a r) s 4 (accParts a) [] noBytes fun u =>
    accX (u.acc a) = (s.d r).extractLsb' 0 8 ∧ accW (u.acc a) = accW (s.acc a)) ∧
  (∀ d a s, Completes (.moveDregLoAccX d a) s 4 [.d d] [] noBytes fun u =>
    (u.dh d .lo).toInt = (accX (s.acc a)).toInt ∧ u.dh d .hi = s.dh d .hi) ∧
  (∀ a r s, Completes (.moveAccLDregLo a r) s 4 (accParts a) [] noBytes fun u =>
    half .lo (accW (u.acc a)) = s.dh r .lo ∧ half .hi (accW (u.acc a)) = half .hi (accW (s.acc a)) ∧
      accX (u.acc a) = accX (s.acc a)) ∧
  (∀ a r s, Completes (.moveAccHDregHi a r) s 4 (accParts a) [] noBytes fun u =>
    half .hi (accW (u.acc a)) = s.dh r .hi ∧ half .lo (accW (u.acc a)) = half .lo (accW (s.acc a)) ∧
      accX (u.acc a) = accX (s.acc a)) ∧
  (∀ s, Completes .clearA0 s 4 (accParts .a0) [] noBytes fun u => u.acc .a0 = 0) ∧
  (∀ s, Completes .clearA1 s 4 (accParts .a1) [] noBytes fun u => u.acc .a1 = 0) ∧
  (∀ s, Completes .clearA1A0 s 4 (accParts .a0 ++ accParts .a1) [] noBytes fun u => u.acc .a0 = 0 ∧ u.acc .a1 = 0)

/-- A value taken out of an accumulator into a half register (R564 to R566): the half is the extraction of 42_mac.md
R712 under the option, AZ and AN follow the halves written (their OR where there are two, D22), V says that one was
saturated. -/
def Obligations.ExtractHalf : Prop :=
  (∀ m d s, let x := extract16 s.cur.astat.rndMod m (accInt m false s.cur.a0)
    Completes (.moveDregLoA0 m d) s 4 [.d d] znvNames noBytes fun u =>
      u.dh d .lo = x.1 ∧ u.dh d .hi = s.dh d .hi ∧ u.signs x.1 ∧ overflows s u x.2) ∧
  (∀ m mm d s, let x := extract16 s.cur.astat.rndMod (optExtract m mm) (accInt m mm s.cur.a1)
    Completes (.moveDregHiA1 m mm d) s 4 [.d d] znvNames noBytes fun u =>
      u.dh d .hi = x.1 ∧ u.dh d .lo = s.dh d .lo ∧ u.signs x.1 ∧ overflows s u x.2) ∧
  (∀ m mm d s, let x := extract16 s.cur.astat.rndMod m (accInt m false s.cur.a0)
    let y := extract16 s.cur.astat.rndMod (optExtract m mm) (accInt m mm s.cur.a1)
    Completes (.moveDregHalvesAcc m mm d) s 4 [.d d] znvNames noBytes fun u =>
      u.dh d .lo = x.1 ∧ u.dh d .hi = y.1 ∧ u.flag .az = (x.1 == 0 || y.1 == 0) ∧
        u.flag .an = (x.1.msb || y.1.msb) ∧ overflows s u (x.2 || y.2))

/-- A value taken out of an accumulator into a data register (R553 to R555): into the even register of a pair from A0,
into its odd register from A1. Where 42_mac.md R713 gives the option a 32-bit value, that is written and V says whether
it was saturated; where it gives none, the value and V are free (log entry 21). The spec marks parts of R555, R713 as
its own (general knowledge or derived, or decided in D22). -/
def Obligations.ExtractWord : Prop :=
  (∀ m d s, d.even = true →
    Completes (.moveDregEvenA0 m d) s 4 [.d d] znvNames noBytes fun u => ∃ w o,
      (∀ y, extract32 m (accInt m false s.cur.a0) = some y → y = (w, o)) ∧ u.d d = w ∧ u.signs w ∧ overflows s u o) ∧
  (∀ m mm d s, d.even = true →
    Completes (.moveDregOddA1 m mm d) s 4 [.d (DReg.pairHi d)] znvNames noBytes fun u => ∃ w o,
      (∀ y, extract32 (optExtract m mm) (accInt m mm s.cur.a1) = some y → y = (w, o)) ∧ u.d (DReg.pairHi d) = w ∧
        u.signs w ∧ overflows s u o) ∧
  (∀ m mm d s, d.even = true →
    Completes (.moveDregPairAcc m mm d) s 4 [.d d, .d (DReg.pairHi d)] znvNames noBytes fun u => ∃ w o w' o',
      (∀ y, extract32 m (accInt m false s.cur.a0) = some y → y = (w, o)) ∧
      (∀ y, extract32 (optExtract m mm) (accInt m mm s.cur.a1) = some y → y = (w', o')) ∧
        u.d d = w ∧ u.d (DReg.pairHi d) = w' ∧ u.flag .az = (w == 0 || w' == 0) ∧ u.flag .an = (w.msb || w'.msb) ∧
        overflows s u (o || o'))

/-- The conditional moves (R556, R557) write their register if CC says so and else nothing; the moves of a half or a
byte (R558, R559, R567, R568) extend it with zeros or its sign and clear AC0, AC1 and V. -/
def Obligations.MoveConditionalAndParts : Prop :=
  (∀ d r s, Completes (.ifCcMove d r) s 2 (if s.flag .cc then [match d with | .d x => .d x | .p x => .p x] else []) []
    noBytes fun u => s.flag .cc = true → u.dp d = s.dp r) ∧
  (∀ d r s, Completes (.ifNccMove d r) s 2 (if s.flag .cc then [] else [match d with | .d x => .d x | .p x => .p x]) []
    noBytes fun u => s.flag .cc = false → u.dp d = s.dp r) ∧
  (∀ d r s, Completes (.moveHalfZ d r) s 2 [.d d] logicNames noBytes fun u =>
    (u.d d).toNat = (s.dh r .lo).toNat ∧ u.logicSigns (u.d d)) ∧
  (∀ d r s, Completes (.moveHalfX d r) s 2 [.d d] logicNames noBytes fun u =>
    (u.d d).toInt = (s.dh r .lo).toInt ∧ u.logicSigns (u.d d)) ∧
  (∀ d r s, Completes (.moveByteZ d r) s 2 [.d d] logicNames noBytes fun u =>
    (u.d d).toNat = (s.d r).toNat % 256 ∧ u.logicSigns (u.d d)) ∧
  (∀ d r s, Completes (.moveByteX d r) s 2 [.d d] logicNames noBytes fun u =>
    (u.d d).toInt = ((s.d r).extractLsb' 0 8).toInt ∧ u.logicSigns (u.d d))

/-- Loads of constants (R570 to R574): no flag changes; a half load keeps the other half. The spec marks parts of R570
to R572 as its own (general knowledge or derived). -/
def Obligations.LoadImmediate : Prop :=
  (∀ d n s, Completes (.loadImm7D d n) s 2 [.d d] [] noBytes fun u => (u.d d).toInt = n.toInt) ∧
  (∀ d n s, Completes (.loadImm7P d n) s 2 [.p d] [] noBytes fun u => (u.p d).toInt = n.toInt) ∧
  (∀ r n s, Completes (.loadImm16X r n) s 4 [immTarget r] [] noBytes fun u =>
    (u.readReg (immTarget r)).toInt = n.toInt) ∧
  (∀ r n s, Completes (.loadImm16Z r n) s 4 [immTarget r] [] noBytes fun u =>
    (u.readReg (immTarget r)).toNat = n.toNat) ∧
  (∀ r n s, Completes (.loadImm16Lo r n) s 4 [immTarget r] [] noBytes fun u =>
    half .lo (u.readReg (immTarget r)) = n ∧
      half .hi (u.readReg (immTarget r)) = half .hi (s.readReg (immTarget r))) ∧
  (∀ r n s, Completes (.loadImm16Hi r n) s 4 [immTarget r] [] noBytes fun u =>
    half .hi (u.readReg (immTarget r)) = n ∧
      half .lo (u.readReg (immTarget r)) = half .lo (s.readReg (immTarget r)))

/-- Moves to and from CC (R580 to R584): between CC and a register, and between CC and a flag with the four operators;
only the named flag changes, a sticky flag not with its companion. The spec marks parts of R580 to R584 as its own
(general knowledge or derived). -/
def Obligations.MoveCc : Prop :=
  (∀ r s, Completes (.ccFromDreg r) s 2 [] [.cc] noBytes fun u => u.flag .cc = decide (s.d r ≠ 0)) ∧
  (∀ d s, Completes (.dregFromCc d) s 2 [.d d] [.ac0, .v] noBytes fun u =>
    u.d d = (if s.flag .cc then 1 else 0) ∧ u.flag .ac0 = false ∧ u.flag .v = false) ∧
  (∀ b s, let x := s.flag (FlagName.of b)
    Completes (.ccFlagSet b) s 2 [] [.cc] noBytes (fun u => u.flag .cc = x) ∧
    Completes (.ccFlagOr b) s 2 [] [.cc] noBytes (fun u => u.flag .cc = (s.flag .cc || x)) ∧
    Completes (.ccFlagAnd b) s 2 [] [.cc] noBytes (fun u => u.flag .cc = (s.flag .cc && x)) ∧
    Completes (.ccFlagXor b) s 2 [] [.cc] noBytes (fun u => u.flag .cc = (s.flag .cc ^^ x)) ∧
    Completes (.flagCcSet b) s 2 [] [FlagName.of b] noBytes (fun u => u.flag (FlagName.of b) = s.flag .cc) ∧
    Completes (.flagCcOr b) s 2 [] [FlagName.of b] noBytes (fun u => u.flag (FlagName.of b) = (x || s.flag .cc)) ∧
    Completes (.flagCcAnd b) s 2 [] [FlagName.of b] noBytes (fun u => u.flag (FlagName.of b) = (x && s.flag .cc)) ∧
    Completes (.flagCcXor b) s 2 [] [FlagName.of b] noBytes (fun u => u.flag (FlagName.of b) = (x ^^ s.flag .cc))) ∧
  (∀ s, Completes .ccNot s 2 [] [.cc] noBytes fun u => u.flag .cc = !s.flag .cc)

/-! ## ALU (41_alu.md) -/

/-- Pointer arithmetic (R603 to R606, R671 to R673): modulo 2^32, no flag changes. -/
def Obligations.PointerArithmetic : Prop :=
  (∀ d a b s, Completes (.addPreg d a b) s 2 [.p d] [] noBytes fun u => u.p d = s.p a + s.p b) ∧
  (∀ d r s, Completes (.addPregTo d r) s 2 [.p d] [] noBytes fun u => u.p d = s.p d + s.p r) ∧
  (∀ d r s, Completes (.subPregFrom d r) s 2 [.p d] [] noBytes fun u => u.p d = s.p d - s.p r) ∧
  (∀ d n s, Completes (.addPregImm7 d n) s 2 [.p d] [] noBytes fun u => u.p d = s.p d + BitVec.ofInt 32 n.toInt) ∧
  (∀ d r s, Completes (.addShift1Preg d r) s 2 [.p d] [] noBytes fun u => u.p d = 2 * (s.p d + s.p r)) ∧
  (∀ d r s, Completes (.addShift2Preg d r) s 2 [.p d] [] noBytes fun u => u.p d = 4 * (s.p d + s.p r)) ∧
  (∀ d a b s, Completes (.addShifted1Preg d a b) s 2 [.p d] [] noBytes fun u => u.p d = s.p a + 2 * s.p b) ∧
  (∀ d a b s, Completes (.addShifted2Preg d a b) s 2 [.p d] [] noBytes fun u => u.p d = s.p a + 4 * s.p b) ∧
  (∀ d r s, Completes (.shl1Preg d r) s 2 [.p d] [] noBytes fun u => u.p d = 2 * s.p r) ∧
  (∀ d r s, Completes (.shl2Preg d r) s 2 [.p d] [] noBytes fun u => u.p d = 4 * s.p r) ∧
  (∀ d r s, Completes (.shr1Preg d r) s 2 [.p d] [] noBytes fun u => (u.p d).toNat = (s.p r).toNat / 2) ∧
  (∀ d r s, Completes (.shr2Preg d r) s 2 [.p d] [] noBytes fun u => (u.p d).toNat = (s.p r).toNat / 4)

/-- 32-bit sums, differences and negations of data registers, and the sums shifted left (R600, R601, R607, R608, R610,
R611, R670): the exact result truncated, or with (S) saturated; AZ, AN of what is written, AC0 the carry (of a
difference: no borrow), V and the sticky VS the overflow. The spec marks parts of R601, R610, R611, R670 as its own
(general knowledge or derived). -/
def Obligations.Sums32 : Prop :=
  (∀ d a b s, let x := (s.d a).toInt + (s.d b).toInt
    Completes (.addDreg d a b) s 2 [.d d] sumNames noBytes fun u => u.d d = written 32 false x ∧ u.signs (u.d d) ∧
      u.flag .ac0 = decide (2 ^ 32 ≤ (s.d a).toNat + (s.d b).toNat) ∧ overflows s u (outside 32 x)) ∧
  (∀ sat d a b s, let x := (s.d a).toInt + (s.d b).toInt
    Completes (.addDregOpt sat d a b) s 4 [.d d] sumNames noBytes fun u => u.d d = written 32 sat x ∧ u.signs (u.d d) ∧
      u.flag .ac0 = decide (2 ^ 32 ≤ (s.d a).toNat + (s.d b).toNat) ∧ overflows s u (outside 32 x)) ∧
  (∀ d a b s, let x := (s.d a).toInt - (s.d b).toInt
    Completes (.subDreg d a b) s 2 [.d d] sumNames noBytes fun u => u.d d = written 32 false x ∧ u.signs (u.d d) ∧
      u.flag .ac0 = decide ((s.d b).toNat ≤ (s.d a).toNat) ∧ overflows s u (outside 32 x)) ∧
  (∀ sat d a b s, let x := (s.d a).toInt - (s.d b).toInt
    Completes (.subDregOpt sat d a b) s 4 [.d d] sumNames noBytes fun u => u.d d = written 32 sat x ∧ u.signs (u.d d) ∧
      u.flag .ac0 = decide ((s.d b).toNat ≤ (s.d a).toNat) ∧ overflows s u (outside 32 x)) ∧
  (∀ d n s, let x := (s.d d).toInt + n.toInt
    Completes (.addDregImm7 d n) s 2 [.d d] sumNames noBytes fun u => u.d d = written 32 false x ∧ u.signs (u.d d) ∧
      u.flag .ac0 = decide (2 ^ 32 ≤ (s.d d).toNat + (n.signExtend 32).toNat) ∧ overflows s u (outside 32 x)) ∧
  (∀ d r s, let x := -(s.d r).toInt
    Completes (.negDreg d r) s 2 [.d d] sumNames noBytes fun u => u.d d = written 32 false x ∧ u.signs (u.d d) ∧
      u.flag .ac0 = decide (s.d r = 0) ∧ overflows s u (outside 32 x)) ∧
  (∀ sat d r s, let x := -(s.d r).toInt
    Completes (.negDregOpt sat d r) s 4 [.d d] sumNames noBytes fun u => u.d d = written 32 sat x ∧ u.signs (u.d d) ∧
      u.flag .ac0 = decide (s.d r = 0) ∧ overflows s u (outside 32 x)) ∧
  (∀ d r s, let x := ((s.d d).toInt + (s.d r).toInt) * 2
    Completes (.addShift1Dreg d r) s 2 [.d d] sumNames noBytes fun u => u.d d = written 32 false x ∧ u.signs (u.d d) ∧
      u.flag .ac0 = decide (2 ^ 32 ≤ (s.d d).toNat + (s.d r).toNat) ∧ overflows s u (outside 32 x)) ∧
  (∀ d r s, let x := ((s.d d).toInt + (s.d r).toInt) * 4
    Completes (.addShift2Dreg d r) s 2 [.d d] sumNames noBytes fun u => u.d d = written 32 false x ∧ u.signs (u.d d) ∧
      u.flag .ac0 = decide (2 ^ 32 ≤ (s.d d).toNat + (s.d r).toNat) ∧ overflows s u (outside 32 x))

/-- Two sums at once, sums of 16-bit halves and packed sums (R600, R601, R609, R612 to R620, D22, D25): each result
truncated or saturated at its width, AZ and AN the OR over the results, AC0 the carry of the sum (in a packed form, of the
low lanes), AC1 that of the difference (of the high lanes), V and the sticky VS the OR of the overflows; the quad forms
leave the carries. The two destinations of a pair of results differ. That AC0 and AC1 of the sum and difference of the
accumulators are the carries out of bit 39 is the model's choice (DEDUCED, log entry 73). The spec marks parts of R601,
R609, R612, R615, R619 as its own (general knowledge or derived, or decided in D22, D25). -/
def Obligations.PackedSums : Prop :=
  (∀ sat d e a b s, d ≠ e → let x := (s.d a).toInt + (s.d b).toInt
    let y := (s.d a).toInt - (s.d b).toInt
    Completes (.addSubDreg sat d e a b) s 4 [.d d, .d e] sumNames2 noBytes fun u =>
      u.d d = written 32 sat x ∧ u.d e = written 32 sat y ∧ u.signs2 (u.d d) (u.d e) ∧
      u.flag .ac0 = decide (2 ^ 32 ≤ (s.d a).toNat + (s.d b).toNat) ∧
      u.flag .ac1 = decide ((s.d b).toNat ≤ (s.d a).toNat) ∧ overflows s u (outside 32 x || outside 32 y)) ∧
  (∀ first sat d e s, d ≠ e → let x := (s.acc .a0).toInt + (s.acc .a1).toInt
    let y := if first then (s.acc .a0).toInt - (s.acc .a1).toInt else (s.acc .a1).toInt - (s.acc .a0).toInt
    Completes (.accSumDiff first sat d e) s 4 [.d d, .d e] sumNames2 noBytes fun u =>
      u.d d = written 32 sat x ∧ u.d e = written 32 sat y ∧ u.signs2 (u.d d) (u.d e) ∧
      u.flag .ac0 = decide (2 ^ 40 ≤ (s.acc .a0).toNat + (s.acc .a1).toNat) ∧
      u.flag .ac1 = (if first then decide ((s.acc .a1).toNat ≤ (s.acc .a0).toNat)
        else decide ((s.acc .a0).toNat ≤ (s.acc .a1).toNat)) ∧
      overflows s u (outside 32 x || outside 32 y)) ∧
  (∀ sat dh d ah bh a b s, let x := (s.dh a ah).toInt + (s.dh b bh).toInt
    Completes (.addHalf sat dh d ah bh a b) s 4 [.d d] sumNames noBytes fun u =>
      State.halfTook s u d dh (written 16 sat x) ∧ u.signs (written 16 sat x) ∧
      u.flag .ac0 = decide (2 ^ 16 ≤ (s.dh a ah).toNat + (s.dh b bh).toNat) ∧ overflows s u (outside 16 x)) ∧
  (∀ sat dh d ah bh a b s, let x := (s.dh a ah).toInt - (s.dh b bh).toInt
    Completes (.subHalf sat dh d ah bh a b) s 4 [.d d] sumNames noBytes fun u =>
      State.halfTook s u d dh (written 16 sat x) ∧ u.signs (written 16 sat x) ∧
      u.flag .ac0 = decide ((s.dh b bh).toNat ≤ (s.dh a ah).toNat) ∧ overflows s u (outside 16 x)) ∧
  (∀ sat cross d a b s,
    let add (h : Half) := (s.dh a h).toInt + (s.dh b h).toInt
    let sub (h : Half) := (s.dh a h).toInt - (s.dh b h).toInt
    let carryA (h : Half) := decide (2 ^ 16 ≤ (s.dh a h).toNat + (s.dh b h).toNat)
    let carryS (h : Half) := decide ((s.dh b h).toNat ≤ (s.dh a h).toNat)
    let is (u : State) (x y : Int) (c1 c0 : Bool) : Prop :=
      u.lanes d cross (written 16 sat x) (written 16 sat y) ∧ u.signs2 (written 16 sat x) (written 16 sat y) ∧
        u.flag .ac0 = c0 ∧ u.flag .ac1 = c1 ∧ overflows s u (outside 16 x || outside 16 y)
    Completes (.vecAddAdd sat cross d a b) s 4 [.d d] sumNames2 noBytes
      (fun u => is u (add .hi) (add .lo) (carryA .hi) (carryA .lo)) ∧
    Completes (.vecAddSub sat cross d a b) s 4 [.d d] sumNames2 noBytes
      (fun u => is u (add .hi) (sub .lo) (carryA .hi) (carryS .lo)) ∧
    Completes (.vecSubAdd sat cross d a b) s 4 [.d d] sumNames2 noBytes
      (fun u => is u (sub .hi) (add .lo) (carryS .hi) (carryA .lo)) ∧
    Completes (.vecSubSub sat cross d a b) s 4 [.d d] sumNames2 noBytes
      (fun u => is u (sub .hi) (sub .lo) (carryS .hi) (carryS .lo))) ∧
  (∀ c sat cross d e a b s, d ≠ e →
    let add (h : Half) := quadScale c ((s.dh a h).toInt + (s.dh b h).toInt)
    let sub (h : Half) := quadScale c ((s.dh a h).toInt - (s.dh b h).toInt)
    let is (u : State) (x y z w : Int) : Prop :=
      u.lanes d cross (written 16 sat x) (written 16 sat y) ∧ u.lanes e false (written 16 sat z) (written 16 sat w) ∧
        u.flag .az = (written 16 sat x == 0 || written 16 sat y == 0 || written 16 sat z == 0 || written 16 sat w == 0) ∧
        u.flag .an = ((written 16 sat x).msb || (written 16 sat y).msb || (written 16 sat z).msb ||
          (written 16 sat w).msb) ∧
        overflows s u (outside 16 x || outside 16 y || outside 16 z || outside 16 w)
    Completes (.quadAddSub c sat cross d e a b) s 4 [.d d, .d e] znvNames noBytes
      (fun u => is u (add .hi) (add .lo) (sub .hi) (sub .lo)) ∧
    Completes (.quadAddSubCross c sat cross d e a b) s 4 [.d d, .d e] znvNames noBytes
      (fun u => is u (add .hi) (sub .lo) (sub .hi) (add .lo)))

/-- Accumulator arithmetic (R621 to R630, D22, D26): results saturated at 40 bits (with W32 and (S) at 32), AZ and AN of
the new accumulator, or of the register where one is written, AC0 the carry, AV and its sticky flag the overflow. The
spec marks parts of R621, R623, R625, R626 as its own (general knowledge or derived, or decided in D26). -/
def Obligations.AccumulatorArithmetic : Prop :=
  (∀ w32 s, let w := if w32 then 32 else 40
    let x := (s.acc .a0).toInt + (s.acc .a1).toInt
    Completes (.accAdd w32) s 4 (accParts .a0) ([.az, .an, .ac0] ++ avNames .a0) noBytes fun u =>
      (u.acc .a0).toInt = nearest w x ∧ u.signs (u.acc .a0) ∧ accOverflows s u .a0 (outside w x) ∧
      u.flag .ac0 = decide (2 ^ 40 ≤ (s.acc .a0).toNat + (s.acc .a1).toNat)) ∧
  (∀ w32 s, let w := if w32 then 32 else 40
    let x := (s.acc .a0).toInt - (s.acc .a1).toInt
    Completes (.accSub w32) s 4 (accParts .a0) ([.az, .an, .ac0] ++ avNames .a0) noBytes fun u =>
      (u.acc .a0).toInt = nearest w x ∧ u.signs (u.acc .a0) ∧ accOverflows s u .a0 (outside w x) ∧
      u.flag .ac0 = decide ((s.acc .a1).toNat ≤ (s.acc .a0).toNat)) ∧
  (∀ d s, let x := (s.acc .a0).toInt + (s.acc .a1).toInt
    Completes (.dregAccAdd d) s 4 ([.d d] ++ accParts .a0) (sumNames ++ avNames .a0) noBytes fun u =>
      (u.acc .a0).toInt = nearest 40 x ∧ u.d d = written 32 true (nearest 40 x) ∧ u.signs (u.d d) ∧
      overflows s u (outside 32 (nearest 40 x)) ∧ accOverflows s u .a0 (outside 40 x) ∧
      u.flag .ac0 = decide (2 ^ 40 ≤ (s.acc .a0).toNat + (s.acc .a1).toNat)) ∧
  (∀ h d s, let x := (s.acc .a0).toInt + (s.acc .a1).toInt
    let y := extract16 s.cur.astat.rndMod .fr (nearest 40 x)
    Completes (.dregHalfAccAdd h d) s 4 ([.d d] ++ accParts .a0) (sumNames ++ avNames .a0) noBytes fun u =>
      (u.acc .a0).toInt = nearest 40 x ∧ State.halfTook s u d h y.1 ∧ u.signs y.1 ∧ overflows s u y.2 ∧
      accOverflows s u .a0 (outside 40 x) ∧
      u.flag .ac0 = decide (2 ^ 40 ≤ (s.acc .a0).toNat + (s.acc .a1).toNat)) ∧
  (∀ a b s, let x := -(s.acc b).toInt
    Completes (.negAcc a b) s 4 (accParts a) ([.az, .an, .ac0] ++ avNames a) noBytes fun u =>
      (u.acc a).toInt = nearest 40 x ∧ u.signs (u.acc a) ∧ accOverflows s u a (outside 40 x) ∧
      u.flag .ac0 = decide (s.acc b = 0)) ∧
  (∀ a b s, let x : Int := (s.acc b).toInt.natAbs
    Completes (.absAcc a b) s 4 (accParts a) ([.az, .an] ++ avNames a) noBytes fun u =>
      (u.acc a).toInt = nearest 40 x ∧ u.signs (u.acc a) ∧ accOverflows s u a (outside 40 x)) ∧
  (∀ a s, let x := (s.acc a).toInt
    Completes (.satAcc a) s 4 (accParts a) ([.az, .an] ++ avNames a) noBytes fun u =>
      (u.acc a).toInt = nearest 32 x ∧ u.signs (u.acc a) ∧ accOverflows s u a (outside 32 x)) ∧
  (∀ s,
    let both (f : AccN → Int) (w : Nat) (u : State) : Prop :=
      (∀ a, (u.acc a).toInt = nearest w (f a) ∧ accOverflows s u a (outside w (f a))) ∧ u.signs2 (u.acc .a1) (u.acc .a0)
    Completes .negAccBoth s 4 (accParts .a0 ++ accParts .a1)
      ([.az, .an, .ac0, .ac1] ++ avNames .a0 ++ avNames .a1) noBytes (fun u =>
        both (fun a => -(s.acc a).toInt) 40 u ∧ u.flag .ac0 = decide (s.acc .a0 = 0) ∧
        u.flag .ac1 = decide (s.acc .a1 = 0)) ∧
    Completes .absAccBoth s 4 (accParts .a0 ++ accParts .a1) ([.az, .an] ++ avNames .a0 ++ avNames .a1) noBytes
      (both (fun a => (s.acc a).toInt.natAbs) 40) ∧
    Completes .satAccBoth s 4 (accParts .a0 ++ accParts .a1) ([.az, .an] ++ avNames .a0 ++ avNames .a1) noBytes
      (both (fun a => (s.acc a).toInt) 32))

/-- The divide primitives (R631, R632): the register and AQ take what the recurrence gives; AZ, AN, AC0, AC1, AV0 and
AV0S hold free values (log entry 23), every other flag stays. The spec marks parts of R631, R632 as its own (general
knowledge or derived, or decided in D24). -/
def Obligations.DividePrimitives : Prop :=
  (∀ d r s, let q := (s.d d).getLsbD 31 ^^ (s.d r).getLsbD 15
    Completes (.divs d r) s 2 [.d d] [.aq, .az, .an, .ac0, .ac1, .av0, .av0s] noBytes fun u =>
      u.flag .aq = q ∧ (u.d d).toNat = 2 * (s.d d).toNat % 2 ^ 32 + q.toNat) ∧
  (∀ d r s, let dv := s.dh r .lo
    let t := if s.flag .aq then s.dh d .hi + dv else s.dh d .hi - dv
    let q := t.getLsbD 15 ^^ dv.getLsbD 15
    Completes (.divq d r) s 2 [.d d] [.aq, .az, .an, .ac0, .ac1, .av0, .av0s] noBytes fun u =>
      u.flag .aq = q ∧
        (u.d d).toNat = 2 * (t.toNat * 2 ^ 16 + (s.dh d .lo).toNat) % 2 ^ 32 + (!q).toNat)

/-- MAX, MIN and ABS of words and of pairs of halves (R633 to R638): AZ and AN of what is written; V cleared by MAX and
MIN (VS stays), by ABS the overflow of the most negative number. Rounding into a half register (R639 to R643): the exact sum
or difference plus half of the last place kept, its low bits dropped, saturated to 16 bits; the other half stays; AZ, AN and
V follow the half. The spec marks parts of R637, R640, R642 as its own (general knowledge or derived). -/
def Obligations.MaxMinAbsRound : Prop :=
  (∀ d a b s, Completes (.maxDreg d a b) s 4 [.d d] [.az, .an, .v] noBytes fun u =>
    (u.d d).toInt = max (s.d a).toInt (s.d b).toInt ∧ u.signs (u.d d) ∧ u.flag .v = false) ∧
  (∀ d a b s, Completes (.minDreg d a b) s 4 [.d d] [.az, .an, .v] noBytes fun u =>
    (u.d d).toInt = min (s.d a).toInt (s.d b).toInt ∧ u.signs (u.d d) ∧ u.flag .v = false) ∧
  (∀ d a b s, Completes (.maxVec d a b) s 4 [.d d] [.az, .an, .v] noBytes fun u =>
    (∀ h, (u.dh d h).toInt = max (s.dh a h).toInt (s.dh b h).toInt) ∧ u.signs2 (u.dh d .hi) (u.dh d .lo) ∧
      u.flag .v = false) ∧
  (∀ d a b s, Completes (.minVec d a b) s 4 [.d d] [.az, .an, .v] noBytes fun u =>
    (∀ h, (u.dh d h).toInt = min (s.dh a h).toInt (s.dh b h).toInt) ∧ u.signs2 (u.dh d .hi) (u.dh d .lo) ∧
      u.flag .v = false) ∧
  (∀ d r s, Completes (.absDreg d r) s 4 [.d d] znvNames noBytes fun u =>
    (u.d d).toInt = nearest 32 (s.d r).toInt.natAbs ∧ u.signs (u.d d) ∧ overflows s u (decide (s.d r = 0x80000000))) ∧
  (∀ d r s, Completes (.absVec d r) s 4 [.d d] znvNames noBytes fun u =>
    (∀ h, (u.dh d h).toInt = nearest 16 (s.dh r h).toInt.natAbs) ∧ u.signs2 (u.dh d .hi) (u.dh d .lo) ∧
      overflows s u (decide (s.dh r .hi = 0x8000 ∨ s.dh r .lo = 0x8000))) ∧
  (∀ h d a b s,
    let is (x : Int) (u : State) : Prop :=
      State.halfTook s u d h (written 16 true x) ∧ u.signs (written 16 true x) ∧ overflows s u (outside 16 x)
    let x := (s.d a).toInt
    let y := (s.d b).toInt
    Completes (.roundHalf h d a) s 4 [.d d] znvNames noBytes (is ((x + 2 ^ 15) / 2 ^ 16)) ∧
    Completes (.addRnd12 h d a b) s 4 [.d d] znvNames noBytes (is ((x + y + 2 ^ 11) / 2 ^ 12)) ∧
    Completes (.subRnd12 h d a b) s 4 [.d d] znvNames noBytes (is ((x - y + 2 ^ 11) / 2 ^ 12)) ∧
    Completes (.addRnd20 h d a b) s 4 [.d d] znvNames noBytes (is ((x + y + 2 ^ 19) / 2 ^ 20)) ∧
    Completes (.subRnd20 h d a b) s 4 [.d d] znvNames noBytes (is ((x - y + 2 ^ 19) / 2 ^ 20)))

/-- Exponent detection (R644 to R648): SIGNBITS writes how many places a number can be shifted left before its sign
changes (for an accumulator eight less, which may be negative); EXPADJ the smaller of that, over the operand's lanes,
and its second operand. No flag changes, the high half of the destination stays. The spec marks parts of R646, R648 as
its own (general knowledge or derived). -/
def Obligations.ExponentDetection : Prop :=
  (∀ d r s, Completes (.signbitsDreg d r) s 4 [.d d] [] noBytes fun u =>
    leads (s.d r) (u.dh d .lo).toNat ∧ u.dh d .hi = s.dh d .hi) ∧
  (∀ d h r s, Completes (.signbitsHalf d h r) s 4 [.d d] [] noBytes fun u =>
    leads (s.dh r h) (u.dh d .lo).toNat ∧ u.dh d .hi = s.dh d .hi) ∧
  (∀ d a s, Completes (.signbitsAcc d a) s 4 [.d d] [] noBytes fun u =>
    (∃ n, leads (s.acc a) n ∧ (u.dh d .lo).toInt = (n : Int) - 8) ∧ u.dh d .hi = s.dh d .hi) ∧
  (∀ d v c s, Completes (.expadjVec d v c) s 4 [.d d] [] noBytes fun u =>
    (∃ n, leads (s.dh v .hi) n ∧ ∃ m, leads (s.dh v .lo) m ∧
      (u.dh d .lo).toNat = min (min n m) (s.dh c .lo).toNat) ∧ u.dh d .hi = s.dh d .hi) ∧
  (∀ d v c s,
    let is (u : State) (n : Nat) : Prop := (u.dh d .lo).toNat = min n (s.dh c .lo).toNat
    Completes (.expadj .word d v c) s 4 [.d d] [] noBytes (fun u =>
      (∃ n, leads (s.d v) n ∧ is u n) ∧ u.dh d .hi = s.dh d .hi) ∧
    Completes (.expadj .lo d v c) s 4 [.d d] [] noBytes (fun u =>
      (∃ n, leads (s.dh v .lo) n ∧ is u n) ∧ u.dh d .hi = s.dh d .hi) ∧
    Completes (.expadj .hi d v c) s 4 [.d d] [] noBytes (fun u =>
      (∃ n, leads (s.dh v .hi) n ∧ is u n) ∧ u.dh d .hi = s.dh d .hi))

/-- Bitwise logic (R649 to R652) and the bit operations (R763 to R767): each bit of the result, AZ and AN from it, AC0,
AC1 and V cleared; the bit tests write CC only. -/
def Obligations.BitwiseLogic : Prop :=
  (∀ d a b s,
    Completes (.andDreg d a b) s 2 [.d d] logicNames noBytes (fun u =>
      (∀ k, (u.d d).getLsbD k = ((s.d a).getLsbD k && (s.d b).getLsbD k)) ∧ u.logicSigns (u.d d)) ∧
    Completes (.orDreg d a b) s 2 [.d d] logicNames noBytes (fun u =>
      (∀ k, (u.d d).getLsbD k = ((s.d a).getLsbD k || (s.d b).getLsbD k)) ∧ u.logicSigns (u.d d)) ∧
    Completes (.xorDreg d a b) s 2 [.d d] logicNames noBytes (fun u =>
      (∀ k, (u.d d).getLsbD k = ((s.d a).getLsbD k ^^ (s.d b).getLsbD k)) ∧ u.logicSigns (u.d d)) ∧
    Completes (.notDreg d a) s 2 [.d d] logicNames noBytes (fun u =>
      (∀ k, k < 32 → (u.d d).getLsbD k = !(s.d a).getLsbD k) ∧ u.logicSigns (u.d d))) ∧
  (∀ (d : DReg) (n : BitVec 5) s,
    let x (k : Nat) := (s.d d).getLsbD k
    Completes (.bitclr d n) s 2 [.d d] logicNames noBytes (fun u =>
      (∀ k, (u.d d).getLsbD k = if k = n.toNat then false else x k) ∧ u.logicSigns (u.d d)) ∧
    Completes (.bitset d n) s 2 [.d d] logicNames noBytes (fun u =>
      (∀ k, (u.d d).getLsbD k = if k = n.toNat then true else x k) ∧ u.logicSigns (u.d d)) ∧
    Completes (.bittgl d n) s 2 [.d d] logicNames noBytes (fun u =>
      (∀ k, (u.d d).getLsbD k = if k = n.toNat then !x k else x k) ∧ u.logicSigns (u.d d)) ∧
    Completes (.ccBittst d n) s 2 [] [.cc] noBytes (fun u => u.flag .cc = x n.toNat) ∧
    Completes (.ccNotBittst d n) s 2 [] [.cc] noBytes (fun u => u.flag .cc = !x n.toNat))

/-- Fields (R768, R769): DEPOSIT puts the low bits of the high half of the pattern register into the background at the
place its low half names, and with (X) fills every bit above with the field's top bit (a field of length 0 has none:
they are then one free bit, log entry 22); EXTRACT takes a field out, extended with zeros or with (X) by its sign.
BITMUX (R770), the ones count (R771) and PACK (R772) write no flag. The spec marks parts of R768 to R770, R772 as its
own (general knowledge or derived). -/
def Obligations.FieldsAndPacking : Prop :=
  (∀ x d b f s, let pos := ((s.d f).extractLsb' 8 5).toNat
    let len := ((s.d f).extractLsb' 0 5).toNat
    Completes (.deposit x d b f) s 4 [.d d] logicNames noBytes fun u =>
      u.logicSigns (u.d d) ∧
      ∃ top, (0 < len → top = (s.d f).getLsbD (15 + len)) ∧
        ∀ k, k < 32 → (u.d d).getLsbD k =
          if k < pos then (s.d b).getLsbD k
          else if k < pos + len then (s.d f).getLsbD (16 + (k - pos))
          else if x then top else (s.d b).getLsbD k) ∧
  (∀ x d v p s, let pos := ((s.d p).extractLsb' 8 5).toNat
    let len := ((s.d p).extractLsb' 0 5).toNat
    Completes (.extract x d v p) s 4 [.d d] logicNames noBytes fun u =>
      u.logicSigns (u.d d) ∧
        ∀ k, k < 32 → (u.d d).getLsbD k =
          if k < len then (s.d v).getLsbD (pos + k)
          else x && decide (0 < len) && (s.d v).getLsbD (pos + len - 1)) ∧
  (∀ a b s, a ≠ b →
    Completes (.bitmux false a b) s 4 ([.d a, .d b] ++ accParts .a0) [] noBytes (fun u =>
      (u.d a).toNat = (s.d a).toNat / 2 ∧ (u.d b).toNat = (s.d b).toNat / 2 ∧
        (u.acc .a0).toNat = (s.acc .a0).toNat / 4 + (s.d a).toNat % 2 * 2 ^ 38 + (s.d b).toNat % 2 * 2 ^ 39) ∧
    Completes (.bitmux true a b) s 4 ([.d a, .d b] ++ accParts .a0) [] noBytes (fun u =>
      (u.d a).toNat = 2 * (s.d a).toNat % 2 ^ 32 ∧ (u.d b).toNat = 2 * (s.d b).toNat % 2 ^ 32 ∧
        (u.acc .a0).toNat =
          4 * (s.acc .a0).toNat % 2 ^ 40 + (s.d a).toNat / 2 ^ 31 + (s.d b).toNat / 2 ^ 31 * 2)) ∧
  (∀ d r s, Completes (.ones d r) s 4 [.d d] [] noBytes fun u =>
    (u.dh d .lo).toNat = (List.range 32).countP (fun k => (s.d r).getLsbD k) ∧ u.dh d .hi = s.dh d .hi) ∧
  (∀ d ah bh a b s, Completes (.pack d ah bh a b) s 4 [.d d] [] noBytes fun u =>
    u.dh d .hi = s.dh a ah ∧ u.dh d .lo = s.dh b bh)

/-- Compares (R660 to R666): CC takes the answer; an immediate is signed, or unsigned in the (IU) forms; a compare of
data registers leaves AZ, AN and AC0 with free values (log entry 24), one of pointer registers no flag but CC. The spec
marks parts of R665 as its own (general knowledge or derived, or decided in D27). -/
def Obligations.Compares : Prop :=
  (∀ x y s,
    let sv : Word := match y with | .reg r => s.d r | .imm n => n.signExtend 32
    let uv : Word := match y with | .reg r => s.d r | .imm n => n.zeroExtend 32
    let fs : List FlagName := [.cc, .az, .an, .ac0]
    Completes (.cmpEqDreg x y) s 2 [] fs noBytes (fun u => u.flag .cc = decide (s.d x = sv)) ∧
    Completes (.cmpLtDreg x y) s 2 [] fs noBytes (fun u => u.flag .cc = decide ((s.d x).toInt < sv.toInt)) ∧
    Completes (.cmpLeDreg x y) s 2 [] fs noBytes (fun u => u.flag .cc = decide ((s.d x).toInt ≤ sv.toInt)) ∧
    Completes (.cmpLtuDreg x y) s 2 [] fs noBytes (fun u => u.flag .cc = decide ((s.d x).toNat < uv.toNat)) ∧
    Completes (.cmpLeuDreg x y) s 2 [] fs noBytes (fun u => u.flag .cc = decide ((s.d x).toNat ≤ uv.toNat))) ∧
  (∀ op x y s,
    let sv : Word := match y with | .reg r => s.p r | .imm n => n.signExtend 32
    let uv : Word := match y with | .reg r => s.p r | .imm n => n.zeroExtend 32
    Completes (.cmpPreg op x y) s 2 [] [.cc] noBytes fun u => u.flag .cc = match op with
      | .eq => decide (s.p x = sv)
      | .lt => decide ((s.p x).toInt < sv.toInt)
      | .le => decide ((s.p x).toInt ≤ sv.toInt)
      | .ltu => decide ((s.p x).toNat < uv.toNat)
      | .leu => decide ((s.p x).toNat ≤ uv.toNat))

/-! ## Multiplier (42_mac.md) -/

/-- The arithmetic of the multiplier, option by option (42_mac.md R704 to R706, R710, R712, R713; 41_alu.md R619): how the
two halves are read and multiplied, how an accumulator is read and saturated, how a value is rounded and extracted into a
half or a word. `mm` is the option (M), whose extraction is the signed variant of the other option's. R713 gives four
options no 32-bit value (log entry 21). The spec marks parts of R704 to R706 as its own (general knowledge or derived, or
decided in D28, D29). -/
def Obligations.MacArithmetic : Prop :=
  (∀ a b : HWord,
    (∀ m ∈ [MMod.fr, .t, .s2rnd], product m false a b = 2 * (a.toInt * b.toInt)) ∧
    product .w32 false a b =
      (if a.toInt = -(2 ^ 15) ∧ b.toInt = -(2 ^ 15) then 2 ^ 31 - 1 else 2 * (a.toInt * b.toInt)) ∧
    (∀ m ∈ [MMod.is, .iss2, .ih], product m false a b = a.toInt * b.toInt) ∧
    (∀ m ∈ [MMod.fu, .tfu, .iu], product m false a b = (a.toNat : Int) * b.toNat) ∧
    (∀ m, product m true a b = a.toInt * b.toNat)) ∧
  (∀ (m : MMod) (x : Acc) (y : Int),
    accInt m true x = x.toInt ∧ accClamp m true y = nearest 40 y ∧
    (m ∈ [MMod.fu, .tfu, .iu] →
      accInt m false x = x.toNat ∧ accClamp m false y = max 0 (min (2 ^ 40 - 1) y) ∧ optExtract m true ≠ m) ∧
    (m ∉ [MMod.fu, .tfu, .iu] → accInt m false x = x.toInt ∧ optExtract m true = m) ∧
    (m ∈ [MMod.w32, .ih] → accClamp m false y = nearest 32 y) ∧
    (m ∈ [MMod.fr, .t, .s2rnd, .is, .iss2] → accClamp m false y = nearest 40 y) ∧ optExtract m false = m) ∧
  optExtract .fu true = .fr ∧ optExtract .tfu true = .t ∧ optExtract .iu true = .is ∧
  (∀ x : Int, let q := x / 2 ^ 16
    let r := x % 2 ^ 16
    rnd true x / 2 ^ 16 = (if r < 2 ^ 15 then q else q + 1) ∧
    rnd false x / 2 ^ 16 = (if r < 2 ^ 15 ∨ (r = 2 ^ 15 ∧ q % 2 = 0) then q else q + 1)) ∧
  (∀ (biased : Bool) (x : Int),
    let s16 (y : Int) : HWord × Bool := (BitVec.ofInt 16 (nearest 16 y), outside 16 y)
    let u16 (y : Int) : HWord × Bool := (BitVec.ofInt 16 (max 0 (min (2 ^ 16 - 1) y)), decide (y < 0 ∨ 2 ^ 16 - 1 < y))
    let s32 (y : Int) : Word × Bool := (BitVec.ofInt 32 (nearest 32 y), outside 32 y)
    let u32 (y : Int) : Word × Bool := (BitVec.ofInt 32 (max 0 (min (2 ^ 32 - 1) y)), decide (y < 0 ∨ 2 ^ 32 - 1 < y))
    extract16 biased .fr x = s16 (rnd biased x / 2 ^ 16) ∧ extract16 biased .w32 x = s16 (rnd biased x / 2 ^ 16) ∧
    extract16 biased .fu x = u16 (rnd biased x / 2 ^ 16) ∧ extract16 biased .t x = s16 (x / 2 ^ 16) ∧
    extract16 biased .tfu x = u16 (x / 2 ^ 16) ∧ extract16 biased .s2rnd x = s16 (rnd biased (2 * x) / 2 ^ 16) ∧
    extract16 biased .is x = s16 x ∧ extract16 biased .iu x = u16 x ∧ extract16 biased .iss2 x = s16 (2 * x) ∧
    extract16 biased .ih x = (BitVec.ofInt 16 (nearest 32 (x + 2 ^ 15) / 2 ^ 16), outside 32 (x + 2 ^ 15)) ∧
    extract32 .fr x = some (s32 x) ∧ extract32 .is x = some (s32 x) ∧ extract32 .fu x = some (u32 x) ∧
    extract32 .iu x = some (u32 x) ∧ extract32 .s2rnd x = some (s32 (2 * x)) ∧ extract32 .iss2 x = some (s32 (2 * x)) ∧
    (∀ m ∈ [MMod.t, .tfu, .ih, .w32], extract32 m x = none)) ∧
  (∀ x : Int, quadScale .none x = x ∧ quadScale .asr x = x / 2 ∧ quadScale .asl x = 2 * x)

/-- The multiplications that touch no accumulator (R720 to R723, R745): the product of the two halves under the option,
taken out as a half or as a word; V and VS only. In the 32-bit forms the word names the even register of a pair, and under
the options to which R713 gives no 32-bit value the word and V are free (the model's choice: DESIGN CHOICE, log entry 21).
The spec marks parts of R723 as its own (general knowledge or derived). -/
def Obligations.Multiply : Prop :=
  (∀ m d x s, Completes (.mulLo m d x) s 4 [.d d] vNames noBytes fun u =>
    State.halfExtracted s u m (product m false (s.dh x.s x.sh) (s.dh x.t x.th)) d .lo) ∧
  (∀ m mm d x s, Completes (.mulHi m mm d x) s 4 [.d d] vNames noBytes fun u =>
    State.halfExtracted s u (optExtract m mm) (product m mm (s.dh x.s x.sh) (s.dh x.t x.th)) d .hi) ∧
  (∀ m d x s, d.even = true → Completes (.mulEven m d x) s 4 [.d d] vNames noBytes fun u =>
    State.wordExtracted s u m (product m false (s.dh x.s x.sh) (s.dh x.t x.th)) d) ∧
  (∀ m mm d x s, d.even = true → Completes (.mulOdd m mm d x) s 4 [.d (DReg.pairHi d)] vNames noBytes fun u =>
    State.wordExtracted s u (optExtract m mm) (product m mm (s.dh x.s x.sh) (s.dh x.t x.th)) (DReg.pairHi d)) ∧
  (∀ m mm pair d h1 h0 a b s, pair = false ∨ d.even = true →
    let x1 := product m mm (s.dh a h1.s) (s.dh b h1.t)
    let x0 := product m false (s.dh a h0.s) (s.dh b h0.t)
    Completes (.mulDual m mm pair d h1 h0 a b) s 4 (dualDest pair d) vNames noBytes fun u =>
      if pair then ∃ w1 v1 w0 v0,
        (∀ y, extract32 (optExtract m mm) x1 = some y → y = (w1, v1)) ∧ (∀ y, extract32 m x0 = some y → y = (w0, v0)) ∧
          u.d (DReg.pairHi d) = w1 ∧ u.d d = w0 ∧ overflows s u (v1 || v0)
      else
        let y1 := extract16 s.cur.astat.rndMod (optExtract m mm) x1
        let y0 := extract16 s.cur.astat.rndMod m x0
        u.dh d .hi = y1.1 ∧ u.dh d .lo = y0.1 ∧ overflows s u (y1.2 || y0.2)) ∧
  (∀ d r s, Completes (.mulDreg d r) s 2 [.d d] [] noBytes fun u =>
    (u.d d).toNat = (s.d d).toNat * (s.d r).toNat % 2 ^ 32)

/-- The single multiply and multiply-accumulate forms (R706, R724 to R735): the accumulator takes the product, or its
old value plus or minus the product, saturated, with its overflow flags; where a half or a word is written too, it is
the extraction of the new accumulator. Under the options to which R713 gives no 32-bit value the word and V are free (the
model's choice: DESIGN CHOICE, log entry 21). The spec marks parts of R706 as its own (general knowledge or derived, or
decided in D29). -/
def Obligations.MultiplyAccumulate : Prop :=
  ∀ (m : MMod) (mm : Bool) (d : DReg) (x : MulSrc) (s : State),
    let p0 := product m false (s.dh x.s x.sh) (s.dh x.t x.th)
    let p1 := product m mm (s.dh x.s x.sh) (s.dh x.t x.th)
    let v0 (op : MacOp) : Int := macValue op (accInt m false (s.acc .a0)) p0
    let v1 (op : MacOp) : Int := macValue op (accInt m mm (s.acc .a1)) p1
    let lo (op : MacOp) (u : State) : Prop := State.accTook s u m false .a0 (v0 op) ∧
      State.halfExtracted s u m (accInt m false (u.acc .a0)) d .lo
    let hi (op : MacOp) (u : State) : Prop := State.accTook s u m mm .a1 (v1 op) ∧
      State.halfExtracted s u (optExtract m mm) (accInt m mm (u.acc .a1)) d .hi
    let even (op : MacOp) (u : State) : Prop := State.accTook s u m false .a0 (v0 op) ∧
      State.wordExtracted s u m (accInt m false (u.acc .a0)) d
    let odd (op : MacOp) (u : State) : Prop := State.accTook s u m mm .a1 (v1 op) ∧
      State.wordExtracted s u (optExtract m mm) (accInt m mm (u.acc .a1)) (DReg.pairHi d)
    Completes (.macA0Set m x) s 4 (accParts .a0) (avNames .a0) noBytes
      (fun u => State.accTook s u m false .a0 (v0 .set)) ∧
    Completes (.macA0Add m x) s 4 (accParts .a0) (avNames .a0) noBytes
      (fun u => State.accTook s u m false .a0 (v0 .add)) ∧
    Completes (.macA0Sub m x) s 4 (accParts .a0) (avNames .a0) noBytes
      (fun u => State.accTook s u m false .a0 (v0 .sub)) ∧
    Completes (.macA1Set m mm x) s 4 (accParts .a1) (avNames .a1) noBytes
      (fun u => State.accTook s u m mm .a1 (v1 .set)) ∧
    Completes (.macA1Add m mm x) s 4 (accParts .a1) (avNames .a1) noBytes
      (fun u => State.accTook s u m mm .a1 (v1 .add)) ∧
    Completes (.macA1Sub m mm x) s 4 (accParts .a1) (avNames .a1) noBytes
      (fun u => State.accTook s u m mm .a1 (v1 .sub)) ∧
    Completes (.macA0SetLo m d x) s 4 ([.d d] ++ accParts .a0) (vNames ++ avNames .a0) noBytes (lo .set) ∧
    Completes (.macA0AddLo m d x) s 4 ([.d d] ++ accParts .a0) (vNames ++ avNames .a0) noBytes (lo .add) ∧
    Completes (.macA0SubLo m d x) s 4 ([.d d] ++ accParts .a0) (vNames ++ avNames .a0) noBytes (lo .sub) ∧
    Completes (.macA1SetHi m mm d x) s 4 ([.d d] ++ accParts .a1) (vNames ++ avNames .a1) noBytes (hi .set) ∧
    Completes (.macA1AddHi m mm d x) s 4 ([.d d] ++ accParts .a1) (vNames ++ avNames .a1) noBytes (hi .add) ∧
    Completes (.macA1SubHi m mm d x) s 4 ([.d d] ++ accParts .a1) (vNames ++ avNames .a1) noBytes (hi .sub) ∧
    (d.even = true →
      Completes (.macA0SetEven m d x) s 4 ([.d d] ++ accParts .a0) (vNames ++ avNames .a0) noBytes (even .set) ∧
      Completes (.macA0AddEven m d x) s 4 ([.d d] ++ accParts .a0) (vNames ++ avNames .a0) noBytes (even .add) ∧
      Completes (.macA0SubEven m d x) s 4 ([.d d] ++ accParts .a0) (vNames ++ avNames .a0) noBytes (even .sub) ∧
      Completes (.macA1SetOdd m mm d x) s 4 ([.d (DReg.pairHi d)] ++ accParts .a1) (vNames ++ avNames .a1) noBytes
        (odd .set) ∧
      Completes (.macA1AddOdd m mm d x) s 4 ([.d (DReg.pairHi d)] ++ accParts .a1) (vNames ++ avNames .a1) noBytes
        (odd .add) ∧
      Completes (.macA1SubOdd m mm d x) s 4 ([.d (DReg.pairHi d)] ++ accParts .a1) (vNames ++ avNames .a1) noBytes
        (odd .sub))

/-- The dual form (R740): each unit accumulates on its own accumulator with halves of the same two registers, both on
the state before the instruction; what a unit extracts is its new accumulator, MAC1's into the high half or the odd
register, MAC0's into the low half or the even one; V says that one of them was saturated. A unit that does not
accumulate leaves its accumulator and its flags; without an extraction no register and no V changes. In the pair form the
words and V are free under the options to which R713 gives no 32-bit value (the model's choice: DESIGN CHOICE, log
entry 21). -/
def Obligations.DualMac : Prop :=
  ∀ m mm pair u1 u0 d a b s, pair = false ∨ (u1.write || u0.write) = false ∨ d.even = true →
    let p1 := product m mm (s.dh a u1.sel.s) (s.dh b u1.sel.t)
    let p0 := product m false (s.dh a u0.sel.s) (s.dh b u0.sel.t)
    Completes (.macDual m mm pair u1 u0 d a b) s 4
      ((if u1.op = .none then [] else accParts .a1) ++ (if u0.op = .none then [] else accParts .a0) ++
        (if pair then (if u1.write then [.d (DReg.pairHi d)] else []) ++ (if u0.write then [.d d] else [])
         else if u1.write || u0.write then [.d d] else []))
      ((if u1.op = .none then [] else avNames .a1) ++ (if u0.op = .none then [] else avNames .a0) ++
        (if u1.write || u0.write then vNames else []))
      noBytes fun u =>
        (u1.op ≠ .none → State.accTook s u m mm .a1 (macValue u1.op (accInt m mm (s.acc .a1)) p1)) ∧
        (u0.op ≠ .none → State.accTook s u m false .a0 (macValue u0.op (accInt m false (s.acc .a0)) p0)) ∧
        (pair = false →
          let y1 := extract16 s.cur.astat.rndMod (optExtract m mm) (accInt m mm (u.acc .a1))
          let y0 := extract16 s.cur.astat.rndMod m (accInt m false (u.acc .a0))
          u.dh d .hi = (if u1.write then y1.1 else s.dh d .hi) ∧ u.dh d .lo = (if u0.write then y0.1 else s.dh d .lo) ∧
            (u1.write || u0.write → overflows s u ((u1.write && y1.2) || (u0.write && y0.2)))) ∧
        (pair = true → ∃ w1 v1 w0 v0,
          (∀ y, extract32 (optExtract m mm) (accInt m mm (u.acc .a1)) = some y → y = (w1, v1)) ∧
          (∀ y, extract32 m (accInt m false (u.acc .a0)) = some y → y = (w0, v0)) ∧
          (u1.write = true → u.d (DReg.pairHi d) = w1) ∧ (u0.write = true → u.d d = w0) ∧
            (u1.write || u0.write → overflows s u ((u1.write && v1) || (u0.write && v0))))

/-! ## Shifter (43_shifter_video.md) -/

/-- Shifts of data registers by an immediate (R773 to R784, R546, D30): AZ and AN of what is written; an arithmetic shift
and the plain left shift set V where bits are lost to the left, the others clear it. In the 32-bit words the signed field
`n`, of a magnitude within its range (R503, R761), counts to the left; the three forms that shift a register in place
count in their own direction. The spec marks parts of R546, R778, R781, R784 as its own (general knowledge or derived, or
decided in D30). -/
def Obligations.ShiftsImmediate : Prop :=
  (∀ (d : DReg) (n : BitVec 5) s,
    let is (v : Nat) (u : State) : Prop := (u.d d).toNat = v ∧ u.signs (u.d d) ∧ u.flag .v = false
    Completes (.asrImmTo d n) s 2 [.d d] [.az, .an, .v] noBytes (fun u =>
      (u.d d).toInt = (s.d d).toInt / 2 ^ n.toNat ∧ u.signs (u.d d) ∧ u.flag .v = false) ∧
    Completes (.lsrImmTo d n) s 2 [.d d] [.az, .an, .v] noBytes (is ((s.d d).toNat / 2 ^ n.toNat)) ∧
    Completes (.lslImmTo d n) s 2 [.d d] [.az, .an, .v] noBytes (is ((s.d d).toNat * 2 ^ n.toNat % 2 ^ 32))) ∧
  (∀ (d r : DReg) (n : BitVec 6) s, n.toInt.natAbs < 32 →
    let x := shifted (s.d r).toInt n.toInt
    let is (sat : Bool) (u : State) : Prop :=
      u.d d = written 32 sat x ∧ u.signs (u.d d) ∧ overflows s u (outside 32 x)
    Completes (.asrImm d r n) s 4 [.d d] znvNames noBytes (is false) ∧
    Completes (.lslImm d r n) s 4 [.d d] znvNames noBytes (is false) ∧
    Completes (.lslImmSat d r n) s 4 [.d d] znvNames noBytes (is true) ∧
    Completes (.lsrImm d r n) s 4 [.d d] [.az, .an, .v] noBytes (fun u =>
      (u.d d).toNat = shiftedL 32 (s.d r).toNat n.toInt ∧ u.signs (u.d d) ∧ u.flag .v = false)) ∧
  (∀ (d r : DReg) (n : BitVec 6) s, n.toInt.natAbs < 16 →
    let x (h : Half) := shifted (s.dh r h).toInt n.toInt
    let is (sat : Bool) (u : State) : Prop :=
      (∀ h, u.dh d h = written 16 sat (x h)) ∧ u.signs2 (u.dh d .hi) (u.dh d .lo) ∧
        overflows s u (outside 16 (x .hi) || outside 16 (x .lo))
    Completes (.asrImmVec d r n) s 4 [.d d] znvNames noBytes (is false) ∧
    Completes (.lslImmVec d r n) s 4 [.d d] znvNames noBytes (is false) ∧
    Completes (.lslImmVecSat d r n) s 4 [.d d] znvNames noBytes (is true) ∧
    Completes (.lsrImmVec d r n) s 4 [.d d] [.az, .an, .v] noBytes (fun u =>
      (∀ h, (u.dh d h).toNat = shiftedL 16 (s.dh r h).toNat n.toInt) ∧ u.signs2 (u.dh d .hi) (u.dh d .lo) ∧
        u.flag .v = false)) ∧
  (∀ (dh : Half) (d : DReg) (rh : Half) (r : DReg) (n : BitVec 6) s, n.toInt.natAbs < 16 →
    let x := shifted (s.dh r rh).toInt n.toInt
    let is (sat : Bool) (u : State) : Prop :=
      State.halfTook s u d dh (written 16 sat x) ∧ u.signs (written 16 sat x) ∧ overflows s u (outside 16 x)
    Completes (.asrImmHalf dh d rh r n) s 4 [.d d] znvNames noBytes (is false) ∧
    Completes (.lslImmHalf dh d rh r n) s 4 [.d d] znvNames noBytes (is false) ∧
    Completes (.lslImmHalfSat dh d rh r n) s 4 [.d d] znvNames noBytes (is true) ∧
    Completes (.lsrImmHalf dh d rh r n) s 4 [.d d] [.az, .an, .v] noBytes (fun u =>
      let v := BitVec.ofNat 16 (shiftedL 16 (s.dh r rh).toNat n.toInt)
      State.halfTook s u d dh v ∧ u.signs v ∧ u.flag .v = false))

/-- Shifts of data registers by a register (R785 to R793): the forms in place read the whole register as an unsigned
count and shift everything out from 32 on (an arithmetic one leaves the sign); the others read a signed count in the low
six bits of a half, a negative one shifting right (R761). The spec marks parts of R761, R788 as its own (general
knowledge or derived). -/
def Obligations.ShiftsRegister : Prop :=
  (∀ (d r : DReg) s, let n := (s.d r).toNat
    let is (v : Nat) (u : State) : Prop := (u.d d).toNat = v ∧ u.signs (u.d d) ∧ u.flag .v = false
    Completes (.asrDregTo d r) s 2 [.d d] [.az, .an, .v] noBytes (fun u =>
      (u.d d).toInt = (s.d d).toInt / 2 ^ (min n 31) ∧ u.signs (u.d d) ∧ u.flag .v = false) ∧
    Completes (.lsrDregTo d r) s 2 [.d d] [.az, .an, .v] noBytes (is ((s.d d).toNat / 2 ^ (min n 32))) ∧
    Completes (.lslDregTo d r) s 2 [.d d] [.az, .an, .v] noBytes (is ((s.d d).toNat * 2 ^ (min n 32) % 2 ^ 32))) ∧
  (∀ (d v c : DReg) s, let n := ((s.d c).extractLsb' 0 6).toInt
    let x := shifted (s.d v).toInt n
    let is (sat : Bool) (u : State) : Prop :=
      u.d d = written 32 sat x ∧ u.signs (u.d d) ∧ overflows s u (outside 32 x)
    let y (h : Half) := shifted (s.dh v h).toInt n
    let vec (sat : Bool) (u : State) : Prop :=
      (∀ h, u.dh d h = written 16 sat (y h)) ∧ u.signs2 (u.dh d .hi) (u.dh d .lo) ∧
        overflows s u (outside 16 (y .hi) || outside 16 (y .lo))
    Completes (.ashift d v c) s 4 [.d d] znvNames noBytes (is false) ∧
    Completes (.ashiftSat d v c) s 4 [.d d] znvNames noBytes (is true) ∧
    Completes (.lshift d v c) s 4 [.d d] [.az, .an, .v] noBytes (fun u =>
      (u.d d).toNat = shiftedL 32 (s.d v).toNat n ∧ u.signs (u.d d) ∧ u.flag .v = false) ∧
    Completes (.ashiftVec d v c) s 4 [.d d] znvNames noBytes (vec false) ∧
    Completes (.ashiftVecSat d v c) s 4 [.d d] znvNames noBytes (vec true) ∧
    Completes (.lshiftVec d v c) s 4 [.d d] [.az, .an, .v] noBytes (fun u =>
      (∀ h, (u.dh d h).toNat = shiftedL 16 (s.dh v h).toNat n) ∧ u.signs2 (u.dh d .hi) (u.dh d .lo) ∧
        u.flag .v = false)) ∧
  (∀ (dh : Half) (d : DReg) (vh : Half) (v c : DReg) s, let n := ((s.d c).extractLsb' 0 6).toInt
    let x := shifted (s.dh v vh).toInt n
    let is (sat : Bool) (u : State) : Prop :=
      State.halfTook s u d dh (written 16 sat x) ∧ u.signs (written 16 sat x) ∧ overflows s u (outside 16 x)
    Completes (.ashiftHalf dh d vh v c) s 4 [.d d] znvNames noBytes (is false) ∧
    Completes (.ashiftHalfSat dh d vh v c) s 4 [.d d] znvNames noBytes (is true) ∧
    Completes (.lshiftHalf dh d vh v c) s 4 [.d d] [.az, .an, .v] noBytes (fun u =>
      let v := BitVec.ofNat 16 (shiftedL 16 (s.dh v vh).toNat n)
      State.halfTook s u d dh v ∧ u.signs v ∧ u.flag .v = false))

/-- Rotations (R794, R795): the value with CC on top is a ring, turned by the signed count, to the left where it is
positive; CC is the only flag that changes. Shifts of accumulators (R796 to R799): AZ and AN of the new accumulator, its
overflow flag says that a left shift lost bits of the number; an immediate count has a magnitude within its range (R503,
R761). The sign of an accumulator's immediate count is read as in the other 32-bit words (R546; DEDUCED, log entry 40), and
the logical shift with a positive count shifts left (DESIGN CHOICE, log entry 65) and clears AV (DEDUCED, log entry 40).
The spec marks parts of R546,
R794, R798, R799 as its own (general knowledge or derived). -/
def Obligations.RotatesAccumulatorShifts : Prop :=
  (∀ (d r : DReg) (n : BitVec 6) s, Completes (.rotImm d r n) s 4 [.d d] [.cc] noBytes fun u =>
    ∀ k : Nat, k < 33 → ringBit (u.flag .cc) (u.d d) (((k : Int) + n.toInt) % 33).toNat = ringBit (s.flag .cc) (s.d r) k) ∧
  (∀ (d r c : DReg) s, let n := ((s.d c).extractLsb' 0 6).toInt
    Completes (.rotDreg d r c) s 4 [.d d] [.cc] noBytes fun u =>
      ∀ k : Nat, k < 33 → ringBit (u.flag .cc) (u.d d) (((k : Int) + n) % 33).toNat = ringBit (s.flag .cc) (s.d r) k) ∧
  (∀ (a : AccN) (n : BitVec 6) s, Completes (.rotAccImm a n) s 4 (accParts a) [.cc] noBytes fun u =>
    ∀ k : Nat, k < 41 → ringBit (u.flag .cc) (u.acc a) (((k : Int) + n.toInt) % 41).toNat = ringBit (s.flag .cc) (s.acc a) k) ∧
  (∀ (a : AccN) (c : DReg) s, let n := ((s.d c).extractLsb' 0 6).toInt
    Completes (.rotAcc a c) s 4 (accParts a) [.cc] noBytes fun u =>
      ∀ k : Nat, k < 41 → ringBit (u.flag .cc) (u.acc a) (((k : Int) + n) % 41).toNat = ringBit (s.flag .cc) (s.acc a) k) ∧
  (∀ (a : AccN) (n : BitVec 6) s, n.toInt.natAbs < 32 → let x := shifted (s.acc a).toInt n.toInt
    let is (u : State) : Prop :=
      u.acc a = written 40 false x ∧ u.signs (u.acc a) ∧ accOverflows s u a (outside 40 x)
    Completes (.asrAccImm a n) s 4 (accParts a) ([.az, .an] ++ avNames a) noBytes is ∧
    Completes (.lslAccImm a n) s 4 (accParts a) ([.az, .an] ++ avNames a) noBytes is ∧
    Completes (.lsrAccImm a n) s 4 (accParts a) ([.az, .an] ++ avNames a) noBytes (fun u =>
      (u.acc a).toNat = shiftedL 40 (s.acc a).toNat n.toInt ∧ u.signs (u.acc a) ∧ accOverflows s u a false)) ∧
  (∀ (a : AccN) (c : DReg) s, let x := shifted (s.acc a).toInt ((s.d c).extractLsb' 0 6).toInt
    Completes (.ashiftAcc a c) s 4 (accParts a) ([.az, .an] ++ avNames a) noBytes fun u =>
      u.acc a = written 40 false x ∧ u.signs (u.acc a) ∧ accOverflows s u a (outside 40 x))

/-! ## Program flow (44_flow.md) -/

/-- Jumps, calls and RTS with an even target (R832 to R841), the trace buffer off: the core goes on at the target, a
PC-relative one at the pc plus twice the signed offset; a call leaves in RETS the address that would have followed it,
the loop counters going with it; nothing else changes. The spec marks parts of R832 to R841 as its own (general
knowledge or derived, or decided in D31). -/
def Obligations.JumpsAndCalls : Prop :=
  ∀ s : State, s.traceOff →
    (s.cur.pc.getLsbD 0 = false →
      (∀ o, exec (.jumpShort o) s = .next (s.setPc (s.cur.pc + BitVec.ofInt 32 (2 * o.toInt)))) ∧
      (∀ o, exec (.jumpLong o) s = .next (s.setPc (s.cur.pc + BitVec.ofInt 32 (2 * o.toInt)))) ∧
      (∀ o, exec (.jumpAny o) s = .next (s.setPc (s.cur.pc + BitVec.ofInt 32 (2 * o.toInt)))) ∧
      (∀ o, s.issue.slot = .single → exec (.callOff o) s =
        .next (((s.finish 4).writeReg .rets (s.finish 4).cur.pc).setPc (s.cur.pc + BitVec.ofInt 32 (2 * o.toInt))))) ∧
    (∀ p, (s.p p).getLsbD 0 = false →
      exec (.jumpPreg p) s = .next (s.setPc (s.p p)) ∧
      (s.issue.slot = .single → exec (.callPreg p) s =
        .next (((s.finish 2).writeReg .rets (s.finish 2).cur.pc).setPc (s.p p)))) ∧
    (∀ p, (s.cur.pc + s.p p).getLsbD 0 = false →
      exec (.jumpPcPreg p) s = .next (s.setPc (s.cur.pc + s.p p)) ∧
      (s.issue.slot = .single → exec (.callPcPreg p) s =
        .next (((s.finish 2).writeReg .rets (s.finish 2).cur.pc).setPc (s.cur.pc + s.p p)))) ∧
    (s.cur.rets.getLsbD 0 = false → exec .rts s = .next (s.setPc s.cur.rets))

/-- A jump, a call or a return to an odd address commits and raises the misaligned-fetch exception 0x2A with RETX at the
target (R836, R842; 60_exceptions.md R1724): a call leaves its return address in RETS all the same, which R839 and R840
settle by the spec's own decision D31 (d) (the source does not state it); a return from an event in service, no exception,
NMI or reset event being in service below it, has cleared that event's IPEND bit first. The spec marks parts of R836,
R839, R840, R842 as its own (general knowledge or derived, or decided in D31, D32). -/
def Obligations.OddTargets : Prop :=
  (∀ s : State, s.canTrap →
    (∀ p, (s.p p).getLsbD 0 = true → ∃ t, exec (.jumpPreg p) s = .next t ∧ s.entered t 0x2A (s.p p)) ∧
    (∀ p, (s.cur.pc + s.p p).getLsbD 0 = true →
      ∃ t, exec (.jumpPcPreg p) s = .next t ∧ s.entered t 0x2A (s.cur.pc + s.p p)) ∧
    (∀ p, (s.p p).getLsbD 0 = true → ∃ t, exec (.callPreg p) s = .next t ∧ s.entered t 0x2A (s.p p) ∧
      t.cur.rets = (s.finish 2).cur.pc) ∧
    (∀ p, (s.cur.pc + s.p p).getLsbD 0 = true → ∃ t, exec (.callPcPreg p) s = .next t ∧
      s.entered t 0x2A (s.cur.pc + s.p p) ∧ t.cur.rets = (s.finish 2).cur.pc) ∧
    (s.cur.rets.getLsbD 0 = true → ∃ t, exec .rts s = .next t ∧ s.entered t 0x2A s.cur.rets)) ∧
  ∀ (s : State) (n : Nat), s.issue.slot = .single → s.serves n →
    let rest : HWord := s.cur.ev.ipend &&& ~~~ BitVec.ofNat 16 (2 ^ n)
    rest &&& 0xF = 0 →
    (s.cur.reti.getLsbD 0 = true →
      ∃ t, exec .rti s = .next t ∧ (s.withIpend (rest &&& 0xFFEF)).entered t 0x2A s.cur.reti) ∧
    (s.cur.retx.getLsbD 0 = true → ∃ t, exec .rtx s = .next t ∧ (s.withIpend rest).entered t 0x2A s.cur.retx) ∧
    (s.cur.retn.getLsbD 0 = true → ∃ t, exec .rtn s = .next t ∧ (s.withIpend rest).entered t 0x2A s.cur.retn)

/-- Returns from events in Supervisor mode, with an even return address (R842 to R845): the IPEND bit of the event in
service is cleared, by RTI the bit 4 too, the core goes on at the return register and fetches instruction memory as it is
now (`State.refetched`); the mode is User exactly if no other event is in service; nothing else changes. That a return is a
point at which the core fetches anew is decision D40 of 20_memory.md R349 with log entry 17; that the model's bookkeeping of
waits and of loads made ahead is dropped there is log entries 81 and 96: choices, not rules of the spec. The spec marks parts
of R842 to R845 as its own (general knowledge or derived, or decided in D32). -/
def Obligations.EventReturns : Prop :=
  ∀ (s : State) (n : Nat), s.traceOff → s.serves n →
    let rest : HWord := s.cur.ev.ipend &&& ~~~ BitVec.ofNat 16 (2 ^ n)
    (s.cur.reti.getLsbD 0 = false →
      exec .rti s = .next ((s.withIpend (rest &&& 0xFFEF)).refetched.setPc s.cur.reti)) ∧
    (s.cur.retx.getLsbD 0 = false → exec .rtx s = .next ((s.withIpend rest).refetched.setPc s.cur.retx)) ∧
    (s.cur.retn.getLsbD 0 = false → exec .rtn s = .next ((s.withIpend rest).refetched.setPc s.cur.retn)) ∧
    (∀ x : HWord, (s.withIpend x).user = decide (x &&& 0xFFEF = 0)) ∧
    s.refetched = s.setCur { s.cur with stale := [], waiting := none, progress := [], early := [] }

/-- Conditional branches (R847 to R849), the performance monitor and the trace buffer off: taken where CC, or for the
negated form its complement, is 1, to the pc plus twice the signed offset; else the next instruction follows. The
prediction suffix has no effect. LSETUP (R851, R852): the top and bottom of the loop unit are at twice the offsets from
the pc; the count is the pointer, its half, or what it was. The spec marks parts of R847 to R849, R851, R852 as its own
(general knowledge or derived). -/
def Obligations.BranchesAndLoopSetup : Prop :=
  (∀ (s : State) o, s.traceOff → s.perfOff → s.cur.pc.getLsbD 0 = false →
    let target := s.cur.pc + BitVec.ofInt 32 (2 * o.toInt)
    exec (.brcc o) s = .next (if s.flag .cc then s.setPc target else s.finish 2) ∧
    exec (.brncc o) s = .next (if s.flag .cc then s.finish 2 else s.setPc target) ∧
    exec (.brccBp o) s = .next (if s.flag .cc then s.setPc target else s.finish 2) ∧
    exec (.brnccBp o) s = .next (if s.flag .cc then s.finish 2 else s.setPc target)) ∧
  (∀ (n : LoopN) (top : BitVec 4) (p : PReg) (bot : BitVec 10) (s : State),
    let is (c : Word) (u : State) : Prop :=
      (u.readReg (.lt n)).toNat = (s.cur.pc.toNat + 2 * top.toNat) % 2 ^ 32 ∧
        (u.readReg (.lb n)).toNat = (s.cur.pc.toNat + 2 * bot.toNat) % 2 ^ 32 ∧ u.readReg (.lc n) = c
    Completes (.lsetupPreg n top p bot) s 4 [.lc n, .lt n, .lb n] [] noBytes (is (s.p p)) ∧
    Completes (.lsetup n top bot) s 4 [.lt n, .lb n] [] noBytes (is (s.readReg (.lc n))) ∧
    Completes (.lsetupPregHalf n top p bot) s 4 [.lc n, .lt n, .lb n] [] noBytes
      (is (BitVec.ofNat 32 ((s.p p).toNat / 2))))

/-! ## Modes and traps -/

/-- In User mode the Supervisor instructions, and moves, pushes and pops that name a Supervisor register, raise 0x2E and
do not execute: nothing changes but what the entry of the exception changes (`Entered`; 10_state.md R63; 46_system.md R1002
to R1004, R1021; 60_exceptions.md R1703); RTE raises it in every mode (44_flow.md R846,
decision D14; DESIGN CHOICE, log entry 33). Every aligned
load, store, push or pop (`State.access`; of LINK, UNLINK and the multiples the first access) that touches MMR space raises
0x23 in User mode (20_memory.md R335). The spec marks parts of R335, R846, R1003 as its own (general knowledge or derived, or
decided in D33, D37, D38). -/
def Obligations.SupervisorTraps : Prop :=
  ∀ s : State, s.canTrap → Traps .rte s 0x2E ∧
    (s.user = true →
      (∀ d, Traps (.cli d) s 0x2E) ∧ (∀ r, Traps (.sti r) s 0x2E) ∧ (∀ n, Traps (.raiseInt n) s 0x2E) ∧
      Traps .rti s 0x2E ∧ Traps .rtx s 0x2E ∧ Traps .rtn s 0x2E ∧
      (∀ d r, moveLegal d r = true → supervisorDest d = true ∨ supervisorReg r = true →
        Traps (.moveReg d r) s 0x2E) ∧
      (∀ r, supervisorReg r = true → Traps (.pushReg r) s 0x2E) ∧
      (∀ r, supervisorDest r = true → Traps (.popReg r) s 0x2E) ∧
      (∀ i x n w, s.access i = some (x, n, w) → x.toNat % n = 0 → 0xFFC00000 ≤ x.toNat → s.cur.dmem.endcplb = false →
        Traps i s 0x23))

/-- Operands that a word can name and its instruction may not raise 0x22, and nothing changes but what the entry of the
exception changes (`Entered`; 30_encoding.md R505; 60_exceptions.md R1724): one register for two results (41_alu.md R609,
R619; 43_shifter_video.md R770), an odd register where a pair begins (40_regmove.md R553 to R555; 42_mac.md R723), a move
between registers that no move joins (R550). That the sum and difference of the accumulators with one destination raises it
is DEDUCED (log entry 73); BITMUX with one register and a system register moved to itself are DESIGN CHOICE (log entries 91,
90). -/
def Obligations.IllegalCombinations : Prop :=
  ∀ s : State, s.canTrap →
    (∀ sat d a b, Traps (.addSubDreg sat d d a b) s 0x22) ∧ (∀ f sat d, Traps (.accSumDiff f sat d d) s 0x22) ∧
    (∀ c sat cross d a b, Traps (.quadAddSub c sat cross d d a b) s 0x22) ∧
    (∀ c sat cross d a b, Traps (.quadAddSubCross c sat cross d d a b) s 0x22) ∧
    (∀ asl a, Traps (.bitmux asl a a) s 0x22) ∧
    (∀ d r, moveLegal d r = false → Traps (.moveReg d r) s 0x22) ∧
    (∀ m mm d x, d.even = false →
      Traps (.moveDregEvenA0 m d) s 0x22 ∧ Traps (.moveDregOddA1 m mm d) s 0x22 ∧
      Traps (.moveDregPairAcc m mm d) s 0x22 ∧ Traps (.mulEven m d x) s 0x22 ∧ Traps (.mulOdd m mm d x) s 0x22 ∧
      Traps (.macA0SetEven m d x) s 0x22 ∧ Traps (.macA0AddEven m d x) s 0x22 ∧
      Traps (.macA0SubEven m d x) s 0x22 ∧ Traps (.macA1SetOdd m mm d x) s 0x22 ∧
      Traps (.macA1AddOdd m mm d x) s 0x22 ∧ Traps (.macA1SubOdd m mm d x) s 0x22 ∧
      (∀ h1 h0 a b, Traps (.mulDual m mm true d h1 h0 a b) s 0x22) ∧
      (∀ u1 u0 a b, (u1.write || u0.write) = true → Traps (.macDual m mm true u1 u0 d a b) s 0x22))

/-! ## The CPLBs (21_cache_cplb.md) -/

/-- Which page an entry describes (R434), and the exceptions of a load, store, push or pop with the DCPLBs enabled (R450;
20_memory.md R335): more than one entry that matches raises 0x27, one that forbids the access 0x23, none 0x26 (the
scratchpad and MMR space have default descriptors, R435, the scratchpad by decision D41); an access that its page allows
is made. DCPLB_FAULT_ADDR takes the address, DCPLB_STATUS the matching entries, the direction and the mode (R440). Where
the first access of LINK, UNLINK or a multiple is made and more than one entry matches the second, 0x27 is raised too:
nothing of a LINK, an UNLINK or a pop multiple is done; of a push multiple the first word has been stored, which is
pending, and no register changes: that exactly the stores before the one that raises are made is the model's choice
(DEDUCED, log entry 28), where 46_system.md R1018 lets any of them be made in their order. With the ICPLBs enabled a fetch
raises 0x2D, 0x2B or 0x2C in the same cases, and 0x2B in data memory (R441). The places of the bits of a CPLB's data
register (0, 2, 3, 4, 7, 12, 14, 17:16) are the model's choice (PRESUMED, log entry 6): R432 and R433 give them as general
knowledge. The spec marks parts of R335, R432 to R435, R440, R441 as its own (general knowledge or derived, or decided in
D37, D38, D41). -/
def Obligations.CplbChecks : Prop :=
  (∀ (e : Cplb) (x : Word),
    let size : Nat := match (e.data.extractLsb' 16 2).toNat with | 0 => 2 ^ 10 | 1 => 2 ^ 12 | 2 => 2 ^ 20 | _ => 2 ^ 22
    e.hit x = (e.data.getLsbD 0 && decide (x.toNat / size = e.addr.toNat / size))) ∧
  (∀ (i : Instr) (s : State) (x : Word) (n : Nat) (w : Bool), s.canTrap → s.access i = some (x, n, w) →
    s.cur.dmem.endcplb = true →
    let hits := cplbHits s.cur.dmem.cplb x
    let traps (code : BitVec 6) : Prop := Traps i s code ∧ ∀ t, exec i s = .next t → t.cur.dmem.faultAddr = x ∧
      (∀ k, k < 16 → t.cur.dmem.status.getLsbD k = (s.cur.dmem.cplb.toList.getD k ⟨0, 0⟩).hit x) ∧
      t.cur.dmem.status.getLsbD 16 = w ∧ t.cur.dmem.status.getLsbD 17 = !s.user ∧
      t.cur.dmem.status.getLsbD 18 = false ∧ t.cur.dmem.status.getLsbD 19 = false
    (2 ≤ hits.length → traps 0x27) ∧
    (x.toNat % n = 0 → s.cur.region x.toNat ∈ [Region.external, .l2, .dataSram, .scratchpad] →
      (∀ e, hits = [e] →
        (w = false ∧ s.user = true ∧ e.data.getLsbD 2 = false) ∨ (w = true ∧ s.user = true ∧ e.data.getLsbD 3 = false) ∨
          (w = true ∧ s.user = false ∧ e.data.getLsbD 4 = false) ∨
          (w = true ∧ e.data.getLsbD 12 = true ∧ e.data.getLsbD 14 = false ∧ e.data.getLsbD 7 = false) → traps 0x23) ∧
      (hits = [] → s.cur.region x.toNat ≠ .scratchpad → traps 0x26))) ∧
  (∀ (a : PostMod) (d : DReg) (p : PReg) (s : State), let x := s.p p
    x.toNat % 4 = 0 → s.cur.dmem.endcplb = true → s.cur.wp.iactl.getLsbD 0 = false → s.issue.clash = none →
    s.cur.earlyRead x.toNat 4 = none →
    (∃ e, cplbHits s.cur.dmem.cplb x = [e] ∧ e.data.getLsbD 12 = false ∧ s.cur.region x.toNat = .dataSram ∧
        e.data.getLsbD 2 = true ∧ e.data.getLsbD 3 = true ∧ e.data.getLsbD 4 = true) ∨
      (cplbHits s.cur.dmem.cplb x = [] ∧ s.cur.region x.toNat = .scratchpad) →
    Completes (.loadD a d p) s 2 ([.d d] ++ ifPost a (.p p)) [] noBytes (fun u =>
      u.d d = s.word x.toNat ∧ u.p p = postValue a x 4) ∧
    Completes (.storeD a p d) s 2 (ifPost a (.p p)) [] (bytesAt x.toNat 4) fun u =>
      u.holds x.toNat 4 (s.d d) ∧ u.p p = postValue a x 4) ∧
  (∀ s : State, s.canTrap → s.cur.dmem.endcplb = true → s.cur.wp.iactl.getLsbD 0 = false → s.issue.clash = none →
    let isOpen (x : Word) : Prop := x.toNat % 4 = 0 ∧ s.cur.region x.toNat = .dataSram ∧ s.cur.earlyRead x.toNat 4 = none ∧
      ∃ e, cplbHits s.cur.dmem.cplb x = [e] ∧ e.data.getLsbD 12 = false ∧ e.data.getLsbD 2 = true ∧
        e.data.getLsbD 3 = true ∧ e.data.getLsbD 4 = true
    let twice (x : Word) : Prop := 2 ≤ (cplbHits s.cur.dmem.cplb x).length
    let sp := s.p .sp
    (isOpen (sp - 4) → twice (sp - 8) →
      (∀ n : BitVec 16, 2 ≤ n.toNat → Traps (.link n) s 0x27) ∧
      (∀ m r q rs, multiList m = r :: q :: rs → ∃ t, exec (.pushMulti m) s = .next t ∧ s.entered t 0x27 s.cur.pc ∧
        t.cur.stores = s.cur.stores ++ [⟨(sp - 4).toNat, 4, (s.dp r).toNat⟩] ∧ t.mem = s.mem ∧
        t.holds (sp - 4).toNat 4 (s.dp r) ∧ t.cur.r = s.cur.r ∧ t.cur.p = s.cur.p)) ∧
    (isOpen sp → twice (sp + 4) → ∀ m, 2 ≤ (multiList m).length → Traps (.popMulti m) s 0x27) ∧
    (isOpen (s.p .fp) → twice (s.p .fp + 4) → Traps .unlink s 0x27)) ∧
  (∀ s : State, s.quietCore → s.canTrap → s.cur.imem.enicplb = true →
    let hits := cplbHits s.cur.imem.cplb s.cur.pc
    let traps (code : BitVec 6) : Prop := Entered (step s) s code ∧ ∀ t, step s = .next t → t.cur.imem.faultAddr = s.cur.pc ∧
      (∀ k, k < 16 → t.cur.imem.status.getLsbD k = (s.cur.imem.cplb.toList.getD k ⟨0, 0⟩).hit s.cur.pc)
    (2 ≤ hits.length → traps 0x2D) ∧
    (s.cur.pc.getLsbD 0 = false → hits.length < 2 →
      (s.cur.region s.cur.pc.toNat ∈ [Region.dataSram, .scratchpad, .sysMmr, .coreMmr] → traps 0x2B) ∧
      (s.cur.region s.cur.pc.toNat ∈ [Region.external, .bootRom, .l2, .instSram] →
        (hits = [] → traps 0x2C) ∧ (∀ e, hits = [e] → s.user = true → e.data.getLsbD 2 = false → traps 0x2B))))

/-! ## Loads and stores (45_loadstore.md), where nothing stands in the way of the access -/

/-- Loads through a pointer register, post-modified by their size or not (R901 to R903, R915 to R918, R921, R922): the
register takes the word, or the half word or byte extended with zeros or its sign; a pointer loaded through itself
without a modification takes the word. The spec marks parts of R915 as its own (general knowledge or derived). -/
def Obligations.LoadsPostModified : Prop :=
  ∀ (a : PostMod) (d : DReg) (p : PReg) (s : State), let x := s.p p
    let rs : List AllReg := [.d d] ++ ifPost a (.p p)
    (s.plain x 4 →
      Completes (.loadD a d p) s 2 rs [] noBytes (fun u => u.d d = s.word x.toNat ∧ u.p p = postValue a x 4) ∧
      ∀ q, q ≠ p ∨ a = .keep → Completes (.loadP a q p) s 2 ([.p q] ++ ifPost a (.p p)) [] noBytes fun u =>
        u.p q = s.word x.toNat ∧ (q ≠ p → u.p p = postValue a x 4)) ∧
    (s.plain x 2 →
      Completes (.loadWZ a d p) s 2 rs [] noBytes (fun u =>
        (u.d d).toNat = (s.half x.toNat).toNat ∧ u.p p = postValue a x 2) ∧
      Completes (.loadWX a d p) s 2 rs [] noBytes (fun u =>
        (u.d d).toInt = (s.half x.toNat).toInt ∧ u.p p = postValue a x 2)) ∧
    (s.plain x 1 →
      Completes (.loadBZ a d p) s 2 rs [] noBytes (fun u =>
        (u.d d).toNat = (s.byte x.toNat).toNat ∧ u.p p = postValue a x 1) ∧
      Completes (.loadBX a d p) s 2 rs [] noBytes (fun u =>
        (u.d d).toInt = (s.byte x.toNat).toInt ∧ u.p p = postValue a x 1))

/-- Loads at an offset from a pointer register: the short forms add an unsigned count of their units, the long ones a
signed one, the FP form a negative one (R904, R905, R915 to R918, R921, R922, R541, R542); only the destination changes.
The spec marks parts of R541, R542, R904, R905, R915 as its own (general knowledge or derived). -/
def Obligations.LoadsOffset : Prop :=
  ∀ (d : DReg) (q p : PReg) (s : State),
    (∀ o : BitVec 4,
      let x4 := s.p p + BitVec.ofNat 32 (4 * o.toNat)
      let x2 := s.p p + BitVec.ofNat 32 (2 * o.toNat)
      (s.plain x4 4 →
        Completes (.loadDOff d p o) s 2 [.d d] [] noBytes (fun u => u.d d = s.word x4.toNat) ∧
        Completes (.loadPOff q p o) s 2 [.p q] [] noBytes (fun u => u.p q = s.word x4.toNat)) ∧
      (s.plain x2 2 →
        Completes (.loadWZOff d p o) s 2 [.d d] [] noBytes (fun u => (u.d d).toNat = (s.half x2.toNat).toNat) ∧
        Completes (.loadWXOff d p o) s 2 [.d d] [] noBytes (fun u => (u.d d).toInt = (s.half x2.toNat).toInt))) ∧
    (∀ o : BitVec 16,
      let x4 := s.p p + BitVec.ofInt 32 (4 * o.toInt)
      let x2 := s.p p + BitVec.ofInt 32 (2 * o.toInt)
      let x1 := s.p p + BitVec.ofInt 32 o.toInt
      (s.plain x4 4 →
        Completes (.loadDLong d p o) s 4 [.d d] [] noBytes (fun u => u.d d = s.word x4.toNat) ∧
        Completes (.loadPLong q p o) s 4 [.p q] [] noBytes (fun u => u.p q = s.word x4.toNat)) ∧
      (s.plain x2 2 →
        Completes (.loadWZLong d p o) s 4 [.d d] [] noBytes (fun u => (u.d d).toNat = (s.half x2.toNat).toNat) ∧
        Completes (.loadWXLong d p o) s 4 [.d d] [] noBytes (fun u => (u.d d).toInt = (s.half x2.toNat).toInt)) ∧
      (s.plain x1 1 →
        Completes (.loadBZLong d p o) s 4 [.d d] [] noBytes (fun u => (u.d d).toNat = (s.byte x1.toNat).toNat) ∧
        Completes (.loadBXLong d p o) s 4 [.d d] [] noBytes (fun u => (u.d d).toInt = (s.byte x1.toNat).toInt))) ∧
    (∀ (r : DPReg) (o : BitVec 5), let x := s.p .fp - BitVec.ofNat 32 (4 * (32 - o.toNat))
      s.plain x 4 →
        Completes (.loadFp r o) s 2 [dpAll r] [] noBytes fun u => u.dp r = s.word x.toNat)

/-- Loads post-modified by a pointer register (R906, R916 to R920), and through an index register, post-modified by the
access or by an M register in its circular buffer (R907 to R909, R912, R916, R919, R920): a half load keeps the other
half. The half forms with one pointer twice do not modify it. The spec marks parts of R906, R912 as its own (general
knowledge or derived). -/
def Obligations.LoadsIndexed : Prop :=
  (∀ (d : DReg) (p x : PReg) (s : State), let a := s.p p
    (s.plain a 4 → p ≠ x →
      Completes (.loadDIdx d p x) s 2 [.d d, .p p] [] noBytes fun u => u.d d = s.word a.toNat ∧ u.p p = a + s.p x) ∧
    (s.plain a 2 →
      Completes (.loadLoIdx d p x) s 2 (if p = x then [.d d] else [.d d, .p p]) [] noBytes (fun u =>
        State.halfTook s u d .lo (s.half a.toNat) ∧ u.p p = if p = x then a else a + s.p x) ∧
      Completes (.loadHiIdx d p x) s 2 (if p = x then [.d d] else [.d d, .p p]) [] noBytes (fun u =>
        State.halfTook s u d .hi (s.half a.toNat) ∧ u.p p = if p = x then a else a + s.p x) ∧
      (p ≠ x →
        Completes (.loadWZIdx d p x) s 2 [.d d, .p p] [] noBytes (fun u =>
          (u.d d).toNat = (s.half a.toNat).toNat ∧ u.p p = a + s.p x) ∧
        Completes (.loadWXIdx d p x) s 2 [.d d, .p p] [] noBytes (fun u =>
          (u.d d).toInt = (s.half a.toNat).toInt ∧ u.p p = a + s.p x)))) ∧
  (∀ (a : PostMod) (d : DReg) (i m : DagN) (s : State),
    let x := if s.issue.noAlign then s.i i &&& 0xFFFFFFFC else s.i i
    let rs : List AllReg := [.d d] ++ ifPost a (.i i)
    (s.plain x 4 →
      Completes (.loadDI a d i) s 2 rs [] noBytes (fun u =>
        u.d d = s.word x.toNat ∧ u.i i = postIndex s a i 4) ∧
      Completes (.loadDIM d i m) s 2 [.d d, .i i] [] noBytes (fun u =>
        u.d d = s.word x.toNat ∧ u.i i = circ (s.i i) (s.b i) (s.l i) (s.m m).toInt)) ∧
    (s.plain (s.i i) 2 →
      Completes (.loadLoI a d i) s 2 rs [] noBytes (fun u =>
        State.halfTook s u d .lo (s.half (s.i i).toNat) ∧ u.i i = postIndex s a i 2) ∧
      Completes (.loadHiI a d i) s 2 rs [] noBytes (fun u =>
        State.halfTook s u d .hi (s.half (s.i i).toNat) ∧ u.i i = postIndex s a i 2)))

/-- Stores (R901 to R909, R923 to R928): the bytes at the address take the register, its half or its low byte, the least
significant byte at the lowest address, as the core's own loads see them: the store has joined its pending stores
(20_memory.md R331, R341); the stored register is read before the address register is modified; no other
byte and no other register changes. The spec marks parts of R904 to R906, R928 as its own (general knowledge or
derived). -/
def Obligations.Stores : Prop :=
  (∀ (a : PostMod) (r : DReg) (q p : PReg) (s : State), let x := s.p p
    (s.plain x 4 →
      Completes (.storeD a p r) s 2 (ifPost a (.p p)) [] (bytesAt x.toNat 4) (fun u =>
        u.holds x.toNat 4 (s.d r) ∧ u.p p = postValue a x 4) ∧
      Completes (.storeP a p q) s 2 (ifPost a (.p p)) [] (bytesAt x.toNat 4) (fun u =>
        u.holds x.toNat 4 (s.p q) ∧ u.p p = postValue a x 4) ∧
      (p ≠ q → Completes (.storeDIdx p q r) s 2 [.p p] [] (bytesAt x.toNat 4) fun u =>
        u.holds x.toNat 4 (s.d r) ∧ u.p p = x + s.p q)) ∧
    (s.plain x 2 →
      Completes (.storeW a p r) s 2 (ifPost a (.p p)) [] (bytesAt x.toNat 2) (fun u =>
        u.holds x.toNat 2 (s.d r) ∧ u.p p = postValue a x 2) ∧
      Completes (.storeLoIdx p q r) s 2 (if p = q then [] else [.p p]) [] (bytesAt x.toNat 2) (fun u =>
        u.half x.toNat = s.dh r .lo ∧ u.p p = if p = q then x else x + s.p q) ∧
      Completes (.storeHiIdx p q r) s 2 (if p = q then [] else [.p p]) [] (bytesAt x.toNat 2) (fun u =>
        u.half x.toNat = s.dh r .hi ∧ u.p p = if p = q then x else x + s.p q)) ∧
    (s.plain x 1 →
      Completes (.storeB a p r) s 2 (ifPost a (.p p)) [] (bytesAt x.toNat 1) fun u =>
        u.holds x.toNat 1 (s.d r) ∧ u.p p = postValue a x 1)) ∧
  (∀ (p : PReg) (o : BitVec 4) (r : DReg) (q : PReg) (s : State),
    let x4 := s.p p + BitVec.ofNat 32 (4 * o.toNat)
    let x2 := s.p p + BitVec.ofNat 32 (2 * o.toNat)
    (s.plain x4 4 →
      Completes (.storeDOff p o r) s 2 [] [] (bytesAt x4.toNat 4) (fun u => u.holds x4.toNat 4 (s.d r)) ∧
      Completes (.storePOff p o q) s 2 [] [] (bytesAt x4.toNat 4) (fun u => u.holds x4.toNat 4 (s.p q))) ∧
    (s.plain x2 2 →
      Completes (.storeWOff p o r) s 2 [] [] (bytesAt x2.toNat 2) fun u => u.holds x2.toNat 2 (s.d r))) ∧
  (∀ (p : PReg) (o : BitVec 16) (r : DReg) (q : PReg) (s : State),
    let x4 := s.p p + BitVec.ofInt 32 (4 * o.toInt)
    let x2 := s.p p + BitVec.ofInt 32 (2 * o.toInt)
    let x1 := s.p p + BitVec.ofInt 32 o.toInt
    (s.plain x4 4 →
      Completes (.storeDLong p o r) s 4 [] [] (bytesAt x4.toNat 4) (fun u => u.holds x4.toNat 4 (s.d r)) ∧
      Completes (.storePLong p o q) s 4 [] [] (bytesAt x4.toNat 4) (fun u => u.holds x4.toNat 4 (s.p q))) ∧
    (s.plain x2 2 →
      Completes (.storeWLong p o r) s 4 [] [] (bytesAt x2.toNat 2) fun u => u.holds x2.toNat 2 (s.d r)) ∧
    (s.plain x1 1 →
      Completes (.storeBLong p o r) s 4 [] [] (bytesAt x1.toNat 1) fun u => u.holds x1.toNat 1 (s.d r))) ∧
  (∀ (o : BitVec 5) (r : DPReg) (s : State), let x := s.p .fp - BitVec.ofNat 32 (4 * (32 - o.toNat))
    s.plain x 4 →
      Completes (.storeFp o r) s 2 [] [] (bytesAt x.toNat 4) fun u => u.holds x.toNat 4 (s.dp r)) ∧
  (∀ (a : PostMod) (i m : DagN) (r : DReg) (s : State), let x := s.i i
    (s.plain x 4 →
      Completes (.storeDI a i r) s 2 (ifPost a (.i i)) [] (bytesAt x.toNat 4) (fun u =>
        u.holds x.toNat 4 (s.d r) ∧ u.i i = postIndex s a i 4) ∧
      Completes (.storeDIM i m r) s 2 [.i i] [] (bytesAt x.toNat 4) (fun u =>
        u.holds x.toNat 4 (s.d r) ∧ u.i i = circ (s.i i) (s.b i) (s.l i) (s.m m).toInt)) ∧
    (s.plain x 2 →
      Completes (.storeLoI a i r) s 2 (ifPost a (.i i)) [] (bytesAt x.toNat 2) (fun u =>
        u.half x.toNat = s.dh r .lo ∧ u.i i = postIndex s a i 2) ∧
      Completes (.storeHiI a i r) s 2 (ifPost a (.i i)) [] (bytesAt x.toNat 2) (fun u =>
        u.half x.toNat = s.dh r .hi ∧ u.i i = postIndex s a i 2)))

/-- Every load, store, push or pop (`State.access`: each form, through a pointer register with or without an offset, post-
modified by its size or by another register, through an index register, through FP or SP, a register or several, LINK and
UNLINK) of a half word at an odd address or of a word at an address that is no multiple of 4, with the DCPLBs off, raises
0x24: nothing changes, no register and no byte, but what the entry of the exception changes (`Entered`), and the address
is left in DCPLB_FAULT_ADDR (20_memory.md R335; 60_exceptions.md R1720, R1740). That 0x24 writes DCPLB_FAULT_ADDR is
decision D42 of 21_cache_cplb.md R450 (log entry 27), not a rule of the spec. The spec marks parts of R335, R1740 as its
own (general knowledge or derived, or decided in D37, D38). -/
def Obligations.MisalignedTraps : Prop :=
  ∀ (i : Instr) (s : State) (x : Word) (n : Nat) (w : Bool), s.canTrap → s.cur.dmem.endcplb = false →
    s.access i = some (x, n, w) → x.toNat % n ≠ 0 →
    Traps i s 0x24 ∧ ∀ t, exec i s = .next t → t.cur.dmem.faultAddr = x

/-- The execution of a bundle (30_encoding.md R506): its parts read the registers before it and their writes land together,
two loads beside a sum, two half loads into the two halves of one register beside a multiply-accumulate, a store and a load
beside a sum whose destination may be the register that is stored; the length is 8. A register that two parts write makes
the bundle undefined and refused, but that two parts may write the two halves of one register is the model's choice (DEDUCED,
log entry 39); an exception of a part (here a misaligned access) is one of the bundle, and nothing of the
bundle is committed, not the store of another part either. All of R506 but its form is general knowledge in the spec, not the
source's. -/
def Obligations.BundleExecutes : Prop :=
  ∀ (sat : Bool) (d a b e f : DReg) (x y : PostMod) (m n : DagN) (p : PReg) (s : State), s.issue.slot = .single →
    s.issue.noAlign = false →
    let sum : Instr := .addDregOpt sat d a b
    let exact := (s.d a).toInt + (s.d b).toInt
    let runs (i0 i1 i2 : Instr) (rs : List AllReg) (fs : List FlagName) (st : Nat → Prop) (P : State → Prop) : Prop :=
      ∃ u, execBundle i0 i1 i2 s = .next (u.finish 8) ∧ u.issue.slot = .single ∧ Frame s u rs fs st ∧ P u
    let summed (u : State) : Prop := u.d d = written 32 sat exact ∧ u.signs (u.d d) ∧
      u.flag .ac0 = decide (2 ^ 32 ≤ (s.d a).toNat + (s.d b).toNat) ∧ overflows s u (outside 32 exact)
    let indices (k : Nat) (u : State) : Prop := m ≠ n → u.i m = postIndex s x m k ∧ u.i n = postIndex s y n k
    (m ≠ n ∨ x = .keep ∨ y = .keep →
      (d ≠ e → d ≠ f → e ≠ f → s.plain (s.i m) 4 → s.plain (s.i n) 4 →
        runs sum (.loadDI x e m) (.loadDI y f n) ([.d d, .d e, .d f] ++ ifPost x (.i m) ++ ifPost y (.i n)) sumNames
          noBytes fun u => summed u ∧ u.d e = s.word (s.i m).toNat ∧ u.d f = s.word (s.i n).toNat ∧ indices 4 u) ∧
      (∀ (o : MMod) (z : MulSrc), s.plain (s.i m) 2 → s.plain (s.i n) 2 →
        runs (.macA0Add o z) (.loadLoI x e m) (.loadHiI y e n)
          ([.d e] ++ accParts .a0 ++ ifPost x (.i m) ++ ifPost y (.i n)) (avNames .a0) noBytes fun u =>
            State.accTook s u o false .a0 (accInt o false (s.acc .a0) + product o false (s.dh z.s z.sh) (s.dh z.t z.th)) ∧
            u.dh e .lo = s.half (s.i m).toNat ∧ u.dh e .hi = s.half (s.i n).toNat ∧ indices 2 u)) ∧
    (d ≠ f → s.plain (s.p p) 4 → s.plain (s.i n) 4 →
      ((s.p p).toNat + 4 ≤ (s.i n).toNat ∨ (s.i n).toNat + 4 ≤ (s.p p).toNat) →
      runs sum (.storeD x p e) (.loadDI y f n) ([.d d, .d f] ++ ifPost x (.p p) ++ ifPost y (.i n)) sumNames
        (bytesAt (s.p p).toNat 4) fun u => summed u ∧ u.holds (s.p p).toNat 4 (s.d e) ∧
          u.p p = postValue x (s.p p) 4 ∧ u.d f = s.word (s.i n).toNat) ∧
    (execBundle sum (.loadDI x d m) (.loadDI y f n) s = .refused .bundleDoubleWrite ∧
      execBundle sum (.loadDI x e m) (.loadDI y e n) s = .refused .bundleDoubleWrite ∧
      (x ≠ .keep → y ≠ .keep → execBundle sum (.loadDI x e m) (.loadDI y f m) s = .refused .bundleDoubleWrite)) ∧
    (d ≠ f → s.canTrap → s.plain (s.p p) 4 → (s.i n).toNat % 4 ≠ 0 →
      Entered (execBundle sum (.storeD x p e) (.loadDI y f n) s) s 0x24)

/-- The core's pending stores (20_memory.md R331, R340, R341), past the caches: a store to L2 or external memory (to L1
memory see `Obligations.Stores`) is complete when it has joined the core's pending stores, memory is as before; a load
sees, byte by byte, the newest pending store of the core that covers it, else memory (in external memory, where the
asynchronous bank answers at once and the board is all RAM); a load that the core has made ahead of an older one takes the
value that it read then (R340); a pending store is performed before a later one that overlaps it, and one to an MMR before
a later one to an MMR where one of the two is a core MMR (11_core_mmrs.md R150); when a store to L1 memory or to L2 is
performed its bytes are in memory and no other byte changes. That a store stays pending until a free moment is the model's
reading of R341 (DEDUCED, log entry 16); which loads may be made ahead is log entry 96. The spec marks parts of R330,
R331, R340 as its own (derived). -/
def Obligations.PendingStores : Prop :=
  (∀ (ps : List PendStore) (q : PendStore) (y : Nat), pendByte [] y = none ∧
    pendByte (ps ++ [q]) y =
      if q.addr ≤ y ∧ y < q.addr + q.size then some (BitVec.ofNat 8 (q.val / 256 ^ (y - q.addr))) else pendByte ps y) ∧
  (∀ (a : PostMod) (r : DReg) (p : PReg) (s : State), let x := s.p p
    (s.behind x 4 → CompletesVia (.storeD a p r) s (s.pend x.toNat 4 (s.d r).toNat) 2 (ifPost a (.p p)) [] noBytes
      fun u => u.p p = postValue a x 4) ∧
    (s.behind x 2 → CompletesVia (.storeW a p r) s (s.pend x.toNat 2 ((s.d r).toNat % 2 ^ 16)) 2 (ifPost a (.p p)) [] noBytes
      fun u => u.p p = postValue a x 2) ∧
    (s.behind x 1 → CompletesVia (.storeB a p r) s (s.pend x.toNat 1 ((s.d r).toNat % 2 ^ 8)) 2 (ifPost a (.p p)) [] noBytes
      fun u => u.p p = postValue a x 1)) ∧
  (∀ (a : PostMod) (d : DReg) (p : PReg) (s : State), let x := s.p p
    let sees (k : Nat) : Byte := (pendByte s.cur.stores (x.toNat + k)).getD (s.mem.load (x.toNat + k))
    s.behind x 4 → s.cur.progress = [] →
    (s.cur.region x.toNat = .external → s.board = [] ∧ s.inputs = [] ∧ ∃ k, s.bankReady x.toNat k) →
      ∃ q, CompletesVia (.loadD a d p) s (s.setCur { s.cur with progress := q }) 2 ([.d d] ++ ifPost a (.p p)) [] noBytes
        fun u => (∀ k, k < 4 → (u.d d).extractLsb' (8 * k) 8 = sees k) ∧ u.p p = postValue a x 4) ∧
  (∀ (a : PostMod) (d : DReg) (p : PReg) (s : State) (e : EarlyRead), let x := s.p p
    x.toNat % 4 = 0 → s.cur.dmem.endcplb = false → s.cur.wp.iactl.getLsbD 0 = false → s.issue.clash = none →
    s.cur.region x.toNat ∈ [Region.external, .l2, .dataSram, .scratchpad] → s.cur.earlyRead x.toNat 4 = some e →
      Completes (.loadD a d p) s 2 ([.d d] ++ ifPost a (.p p)) [] noBytes fun u =>
        u.d d = BitVec.ofNat 32 e.val ∧ u.p p = postValue a x 4) ∧
  (∀ (ps : List PendStore) (j k : Nat) (q r : PendStore), k ∈ drainable ps → j < k → ps[j]? = some q → ps[k]? = some r →
    (q.addr + q.size ≤ r.addr ∨ r.addr + r.size ≤ q.addr) ∧
      (0xFFC00000 ≤ q.addr → 0xFFC00000 ≤ r.addr → q.addr < 0xFFE00000 ∧ r.addr < 0xFFE00000)) ∧
  (∀ (s : State) (q : PendStore), s.cur.stores = [q] → q.addr + q.size ≤ 2 ^ 32 →
    s.cur.region q.addr ∈ [Region.l2, .dataSram, .scratchpad] →
    ∃ t, s.drain = .next t ∧ t.cur.stores = [] ∧
      (∀ k, k < q.size → t.mem.read (q.addr + k) = some (BitVec.ofNat 8 (q.val / 256 ^ k))) ∧
      (∀ y, y < q.addr ∨ q.addr + q.size ≤ y → t.mem.read y = s.mem.read y ∧ t.mem.load y = s.mem.load y) ∧
      t.cur.r = s.cur.r ∧ t.cur.p = s.cur.p ∧ t.cur.ev = s.cur.ev ∧ t.sys = s.sys)

/-- The circular update (R930): without a length a sum modulo 2^32; going up past the end, the length comes off, going
down below the base it is added. Where the index lies in its buffer, which lies in the address space, and the step is no
longer than the buffer, the index stays in it. Address arithmetic on index registers (R931 to R933, R935): the circular
update by the M register, its negative, or 2 or 4; with (BREV), on index and on pointer registers (R934), a sum whose carries
go down (the operands' bits in reverse order are added: bit `k` of `rev32` is bit `31 - k`), without a circular buffer. No
flag changes. The spec marks parts of R930, R932 to R935 as its own (general knowledge or derived, or decided in D34). -/
def Obligations.IndexArithmetic : Prop :=
  (∀ (i b l : Word) (m : Int), let t := (i.toNat : Int) + m
    (l = 0 → circ i b l m = BitVec.ofInt 32 t) ∧
    (l ≠ 0 → 0 ≤ m → t < b.toNat + l.toNat → circ i b l m = BitVec.ofInt 32 t) ∧
    (l ≠ 0 → 0 ≤ m → (b.toNat : Int) + l.toNat ≤ t → circ i b l m = BitVec.ofInt 32 (t - l.toNat)) ∧
    (l ≠ 0 → m < 0 → (b.toNat : Int) ≤ t → circ i b l m = BitVec.ofInt 32 t) ∧
    (l ≠ 0 → m < 0 → t < b.toNat → circ i b l m = BitVec.ofInt 32 (t + l.toNat)) ∧
    (b ≤ i → i.toNat < b.toNat + l.toNat → b.toNat + l.toNat ≤ 2 ^ 32 → m.natAbs ≤ l.toNat →
      b.toNat ≤ (circ i b l m).toNat ∧ (circ i b l m).toNat < b.toNat + l.toNat)) ∧
  (∀ (v : Word) (k : Nat), k < 32 → (rev32 v).getLsbD k = v.getLsbD (31 - k)) ∧
  (∀ d r s, Completes (.addPregBrev d r) s 2 [.p d] [] noBytes fun u =>
    rev32 (u.p d) = rev32 (s.p d) + rev32 (s.p r)) ∧
  ∀ (i m : DagN) (s : State), let c (x : Int) := circ (s.i i) (s.b i) (s.l i) x
    Completes (.addIM i m) s 2 [.i i] [] noBytes (fun u => u.i i = c (s.m m).toInt) ∧
    Completes (.subIM i m) s 2 [.i i] [] noBytes (fun u => u.i i = c (-(s.m m).toInt)) ∧
    Completes (.addIMBrev i m) s 2 [.i i] [] noBytes (fun u => rev32 (u.i i) = rev32 (s.i i) + rev32 (s.m m)) ∧
    Completes (.addI2 i) s 2 [.i i] [] noBytes (fun u => u.i i = c 2) ∧
    Completes (.subI2 i) s 2 [.i i] [] noBytes (fun u => u.i i = c (-2)) ∧
    Completes (.addI4 i) s 2 [.i i] [] noBytes (fun u => u.i i = c 4) ∧
    Completes (.subI4 i) s 2 [.i i] [] noBytes (fun u => u.i i = c (-4))

/-! ## System instructions (46_system.md) -/

/-- NOP, MNOP and DISALGNEXCPT alone change nothing but the pc (R1000, R1001; 45_loadstore.md R912). CSYNC, once no store
to L1 memory or a core MMR and none to a line that the data cache is filling is pending, and SSYNC, once no store is, no
line fill is under way and no withdrawn request is still seen, the performance monitor off, leave the core synchronised:
it takes the next event at once, its single step is no longer late, it fetches instruction memory as it is now; else they
wait. IDLE in Supervisor mode does the same as SSYNC and leaves the core idle (R1007 to R1009). What they wait for is the
model's choice (log entries 16, 83, 97), so are that they make the core fetch anew (decision D40 of 20_memory.md R349, log
entry 17) and that they end the delay of a single step (60_exceptions.md R1725, log entry 62). CLI saves IMASK and clears
its bits 15:5, STI writes them, RAISE latches an event, with the event 5 its cause in SEQSTAT, and RAISE 1 resets both
cores and no peripheral (only the PLL Wakeup line falls, since the cores leave Idle: 64_power.md R1133), SEQSTAT.SFTRESET
1, core B held, core A at its start address (R1002 to R1004; 70_reset_and_hazards.md R1924, R1930; log entry 25). The spec
marks parts of R912, R1001, R1003, R1007 as its own (general knowledge or derived, or decided in D35). -/
def Obligations.SystemInstructions : Prop :=
  ∀ s : State,
    Completes .nop s 2 [] [] noBytes (fun _ => True) ∧ Completes .mnop s 4 [] [] noBytes (fun _ => True) ∧
    Completes .disalgnexcpt s 4 [] [] noBytes (fun u => u.issue.noAlign = true) ∧
    (let synced (idle : Bool) : State :=
      s.setCur { s.cur with synced := true, stepLate := false, stale := [], idle := idle || s.cur.idle }
     let waits : State := { s with issue := { s.issue with stalled := true } }
     let near (q : PendStore) : Prop := (0xFF400000 ≤ q.addr ∧ q.addr < 0xFFC00000) ∨ 0xFFE00000 ≤ q.addr
     ((∀ q ∈ s.cur.stores, ¬ near q) → (∀ f, s.cur.dfill = some f → f.stores = []) → s.perfOff →
       exec .csync s = .next ((synced false).finish 2)) ∧
     ((∃ q ∈ s.cur.stores, near q) ∨ (∃ f, s.cur.dfill = some f ∧ f.stores ≠ []) →
       exec .csync s = .next waits) ∧
     (s.cur.stores = [] → s.cur.dfill = none → s.cur.ifill = none → s.staleLine s.cur.id = false →
       (s.perfOff → exec .ssync s = .next ((synced false).finish 2)) ∧
       (s.user = false → exec .idle s = .next ((synced true).finish 2))) ∧
     (s.cur.stores ≠ [] ∨ s.cur.dfill ≠ none ∨ s.cur.ifill ≠ none ∨ s.staleLine s.cur.id = true →
       exec .ssync s = .next waits ∧ (s.user = false → exec .idle s = .next waits))) ∧
    (s.user = false →
      (∀ d, CompletesVia (.cli d) s (s.setEv { s.cur.ev with imask := s.cur.ev.imask &&& 0x001F }) 2 [.d d] [] noBytes
        fun u => (u.d d).toNat = s.cur.ev.imask.toNat ∧ u.cur.ev.imask = s.cur.ev.imask &&& 0x001F) ∧
      (∀ r, CompletesVia (.sti r) s
        (s.setEv { s.cur.ev with imask := (s.dh r .lo &&& 0xFFE0) ||| 0x001F }) 2 [] [] noBytes fun _ => True) ∧
      (∀ n : BitVec 4, n = 2 ∨ 6 ≤ n.toNat →
        CompletesVia (.raiseInt n) s
          (s.setEv { s.cur.ev with ilat := s.cur.ev.ilat ||| BitVec.ofNat 16 (2 ^ n.toNat),
                                   raised := s.cur.ev.raised ||| BitVec.ofNat 16 (2 ^ n.toNat) }) 2 [] [] noBytes
          fun _ => True) ∧
      CompletesVia (.raiseInt 5) s
        (s.setEv { s.cur.ev with ilat := s.cur.ev.ilat ||| 0x20, raised := s.cur.ev.raised ||| 0x20 }) 2 [.seqstat] []
        noBytes (fun u => u.cur.seqstat = { s.cur.seqstat with hwerrcause := 0x18 }) ∧
      ∃ t, exec (.raiseInt 1) s = .next t ∧ t.cur.id = .a ∧ t.oth.id = .b ∧ t.oth.held = true ∧ t.cur.held = false ∧
        t.cur.pc = (if s.sys.ctl.bmode = 0 then (if s.sys.ctl.noBoot then 0xFFA00000 else 0x20000000) else 0xEF000000) ∧
        (∀ c ∈ [t.cur, t.oth], c.ev.imask = 0x001F ∧ c.ev.ilat = 0 ∧ c.seqstat.sftreset = true ∧ c.seqstat.excause = 0 ∧
          c.stores = [] ∧ c.idle = false ∧ c.dead = false ∧ c.dmem.endcplb = false ∧ c.imem.enicplb = false ∧
          c.dmem.dmc = 0 ∧ c.imem.imc = false ∧ c.tmr.tmpwr = false) ∧
        t.sys = { s.sys with
          ctl := t.sys.ctl, ebiu := { s.sys.ebiu with busy := t.sys.ebiu.busy },
          power := { s.sys.power with wakeA := false, wakeB := false },
          sic := { s.sys.sic with isr0 := s.sys.sic.isr0 &&& 0xFFFFFFFE },
          sicB := { s.sys.sicB with isr0 := s.sys.sicB.isr0 &&& 0xFFFFFFFE } } ∧
        t.sys.ctl = { s.sys.ctl with stat := t.sys.ctl.stat, coreBInit := true } ∧ t.board = s.board ∧ t.inputs = s.inputs)

/-- Event entry (60_exceptions.md R1740). EXCPT m is a service exception (46_system.md R1005): it commits, and event 3
is entered with the code m and RETX at the address that follows. An interrupt n of 5 to 15 or the NMI is entered before
the instruction at the pc: the return register of the event takes the pc, its ILAT bit is cleared and its IPEND bit set,
an interrupt also sets IPEND[4], and the core goes on at its vector in Supervisor mode; the general registers, ASTAT, the
loops, IMASK and memory stay. The spec marks parts of R1740 as its own (general knowledge or derived). -/
def Obligations.EventEntry : Prop :=
  let kept (s t : State) : Prop := t.cur.r = s.cur.r ∧ t.cur.p = s.cur.p ∧ t.cur.i = s.cur.i ∧ t.cur.m = s.cur.m ∧
    t.cur.b = s.cur.b ∧ t.cur.l = s.cur.l ∧ t.cur.a0 = s.cur.a0 ∧ t.cur.a1 = s.cur.a1 ∧ t.cur.astat = s.cur.astat ∧
    t.cur.rets = s.cur.rets ∧ t.cur.syscfg = s.cur.syscfg ∧ t.cur.ev.imask = s.cur.ev.imask ∧ t.mem = s.mem ∧
    t.cur.stores = s.cur.stores ∧ t.oth = s.oth ∧ t.sys = s.sys
  (∀ (m : BitVec 4) (s : State), s.canTrap → ∃ t, exec (.excpt m) s = .next t ∧
    t.cur.retx = (s.finish 2).cur.pc ∧ t.cur.seqstat.excause = m.zeroExtend 6 ∧
      t.cur.pc = s.cur.ev.evt.toList.getD 3 0 ∧ t.cur.ev.ipend = s.cur.ev.ipend ||| 0x8 ∧ kept s t ∧
      t.cur.reti = s.cur.reti ∧ t.cur.retn = s.cur.retn ∧ t.cur.loop0 = (s.finish 2).cur.loop0 ∧
      t.cur.loop1 = (s.finish 2).cur.loop1) ∧
  (∀ (n : Nat) (s : State), n = 2 ∨ (5 ≤ n ∧ n < 16) → let t := s.interrupt n
    (if n = 2 then t.cur.retn = s.cur.pc ∧ t.cur.reti = s.cur.reti
      else t.cur.reti = s.cur.pc ∧ t.cur.retn = s.cur.retn) ∧
      t.cur.retx = s.cur.retx ∧ t.cur.pc = s.cur.ev.evt.toList.getD n 0 ∧ t.cur.idle = false ∧ t.user = false ∧
      (∀ k, k < 16 → t.cur.ev.ipend.getLsbD k = (s.cur.ev.ipend.getLsbD k || k == n || (k == 4 && n != 2))) ∧
      t.cur.ev.ilat.getLsbD n = false ∧ kept s t ∧ t.cur.loop0 = s.cur.loop0 ∧ t.cur.loop1 = s.cur.loop1)

/-- Which event is taken (60_exceptions.md R1741): the smallest that is latched, enabled by IMASK, if it is an interrupt
not held off by IPEND[4], and of a smaller number than the event in service. An idle core takes it in its next step,
before the instruction at its pc (R1707), the performance monitor, the cycle counter and the trace buffer being off; a
core that has just synchronised, or for which an interrupt is takeable that RAISE latched, takes it at once too (R1746,
R1749). The spec marks parts of R1746 as its own (decided in D45). -/
def Obligations.EventChoice : Prop :=
  let wants (c : Core) (k : Nat) : Prop := k < 16 ∧ c.ev.ilat.getLsbD k = true ∧ c.ev.imask.getLsbD k = true ∧
    (5 ≤ k → c.ev.ipend.getLsbD 4 = false) ∧ ∀ j, j ≤ k → j ≠ 4 → c.ev.ipend.getLsbD j = false
  (∀ (c : Core) (n : Nat), c.takeable = some n ↔ wants c n ∧ ∀ k, k < n → ¬ wants c k) ∧
  (∀ (s : State) (n : Nat), s.turns = [.current] → s.cur.idle = true → s.cur.takeable = some n → n = 2 ∨ 5 ≤ n →
    s.cur.waiting = none → s.cur.syscfg.ccen = false → s.perfOff → s.traceOff → s.issue = .idle →
    ∃ t, step s = .next t ∧ t.cur.pc = s.cur.ev.evt.toList.getD n 0 ∧ t.cur.idle = false ∧
      (if n = 2 then t.cur.retn = s.cur.pc else t.cur.reti = s.cur.pc) ∧ t.cur.ev.ipend.getLsbD n = true ∧
      t.cur.ev.ilat.getLsbD n = false ∧ t.cur.r = s.cur.r ∧ t.cur.p = s.cur.p ∧ t.mem = s.mem) ∧
  (∀ (s : State) (n : Nat), s.cur.takeable = some n → s.cur.waiting = none →
    s.cur.idle = true ∨ s.cur.synced = true ∨ (∃ k, wants s.cur k ∧ s.cur.ev.raised.getLsbD k = true) →
    s.chooseEvent = (some n, s))

/-- A double fault (60_exceptions.md R1727): an exception raised while an exception, an NMI or the reset event is in
service, the reset of R1927 not enabled: of the current core only EXCAUSE and RETX change, to 0x25 and the instruction's own
address, and the core stands still (log entry 26); the other core, the peripherals, memory and what is outside stay. The spec
marks parts of R1727 as its own (general knowledge or derived, or decided in D44). -/
def Obligations.DoubleFault : Prop :=
  ∀ s : State, s.issue.slot = .single → s.cur.inException = true → s.sys.ctl.dfEnabled s.cur.id = false →
    let is (i : Instr) : Prop := ∃ t, exec i s = .next t ∧
      t.cur = { s.cur with seqstat := { s.cur.seqstat with excause := 0x25 }, retx := s.cur.pc, dead := true } ∧
      t.oth = s.oth ∧ t.sys = s.sys ∧ t.mem = s.mem ∧ t.board = s.board ∧ t.inputs = s.inputs ∧ t.out = s.out
    is .rte ∧ (∀ asl a, is (.bitmux asl a a)) ∧
      (∀ i x n w, s.access i = some (x, n, w) → x.toNat % n ≠ 0 → s.cur.dmem.endcplb = false → is i) ∧
      (s.perfOff → ∀ m, is (.excpt m))

/-- TESTSET (R1010) on an even address of the L2 memory, or of an asynchronous bank or SDRAM bank that is RAM and answers
at once, with the DCPLBs and the watchpoint unit off and no store of the core pending to the byte: CC says that the byte
was 0, and its bit 7 is set, in memory, as one access, whatever the data cache holds; no other byte and nothing else
changes. The cache-control instructions (R1011 to R1014; the pointer of the `++` forms goes up by a line): PREFETCH, which
raises nothing, may begin the fill of a line of a cacheable page that the data cache does not hold, and does nothing else.
FLUSH and FLUSHINV, with the DCPLBs off, on a line that the data cache holds and does not fill: a dirty one is written
back, which leaves one pending store of the whole line, and is clean; FLUSHINV makes the line invalid; on an address that
the cache does not hold they do nothing; the address may be loaded from. IFLUSH makes the line invalid that the
instruction cache holds and does not fill, and does nothing where it holds none; what such a line held may still execute
where memory has something else, until the core synchronises (20_memory.md R349, D40; log entry 17). That they wait for a
fill of the line is log entry 97. The spec marks parts of R1010, R1012 as its own (general knowledge or derived, or
decided in D36). -/
def Obligations.TestsetAndCacheControl : Prop :=
  (∀ (p : PReg) (s : State), let a := s.p p
    let sets (v : State) : Prop :=
      CompletesVia (.testset p) s (v.memStore a.toNat 1 ((s.byte a.toNat).toNat ||| 0x80)) 2 [] [.cc] noBytes fun u =>
        u.flag .cc = decide (s.byte a.toNat = 0) ∧ u.byte a.toNat = s.byte a.toNat ||| 0x80 ∧
          ∀ x, x ≠ a.toNat → u.mem.read x = s.mem.read x ∧ u.byte x = s.byte x
    a.getLsbD 0 = false → s.cur.dmem.endcplb = false → s.cur.wp.iactl.getLsbD 0 = false →
    s.cur.pendingIn a.toNat 1 = false →
      (s.cur.region a.toNat = .l2 → sets s) ∧
      (s.cur.region a.toNat = .external → (s.extMap a.toNat) = (.ram, a.toNat) →
        (∀ k, s.bankReady a.toNat k → sets s) ∧
        (∀ k, s.sys.ebiu.extClass a.toNat = .sdram k → s.sys.ebiu.timingOk = true → s.sys.ebiu.granted = false →
          s.sys.ebiu.busy = none → sets (s.sdramAccess (.load s.cur.id) false)))) ∧
  (∀ (inc : Bool) (p : PReg) (s : State), let a := s.p p
    let rs : List AllReg := if inc then [.p p] else []
    let is (u : State) : Prop := u.p p = if inc then a + 32 else a
    let lines (ls : List (LineKey × Line)) : State := s.setCur { s.cur with dmem := { s.cur.dmem with lines := ls } }
    let only (k : LineKey) (l : Line) (new old : List (LineKey × Line)) : Prop :=
      lineAt new k = l ∧ ∀ j, j ≠ k → lineAt new j = lineAt old j
    (∃ b : Bool, (b = true → (s.cur.dataPage a).isSome = true ∧ s.cur.dmem.hitWay a.toNat = none) ∧
      CompletesVia (.prefetch inc p) s (if b then s.startFill a.toNat else s) 2 rs [] noBytes is) ∧
    (s.cur.dmem.endcplb = false → s.cur.region a.toNat ∈ [Region.external, .l2, .dataSram, .scratchpad] →
      s.cur.filling a.toNat = none →
      (s.cur.dmem.hitWay a.toNat = none →
        Completes (.flush inc p) s 2 rs [] noBytes is ∧ Completes (.flushinv inc p) s 2 rs [] noBytes is) ∧
      (∀ w, s.cur.dmem.hitWay a.toNat = some w →
        let k := s.cur.dmem.key a.toNat w
        let l := lineAt s.cur.dmem.lines k
        let back (ls : List (LineKey × Line)) : State :=
          if l.dirty then (lines ls).pend (a.toNat / 32 * 32) 32 (l.read 0 32) else lines ls
        (∃ ls, only k { l with dirty := false } ls s.cur.dmem.lines ∧
          CompletesVia (.flush inc p) s (back ls) 2 rs [] noBytes is) ∧
        ∃ ls, only k { l with dirty := false, valid := false } ls s.cur.dmem.lines ∧
          CompletesVia (.flushinv inc p) s (back ls) 2 rs [] noBytes is)) ∧
    ((∀ f, s.cur.ifill = some f → f.base ≠ a.toNat / 32 * 32) →
      (s.cur.imem.hitWay a.toNat = none → Completes (.iflush inc p) s 2 rs [] noBytes is) ∧
      ∀ w, s.cur.imem.hitWay a.toNat = some w →
        ∃ ls olds, only (instKey a.toNat w) { lineAt s.cur.imem.lines (instKey a.toNat w) with valid := false } ls
            s.cur.imem.lines ∧ (∀ h ∈ olds, h ≠ s.mem.halfAt h.addr) ∧
          CompletesVia (.iflush inc p) s
            (s.setCur { s.cur with imem := { s.cur.imem with lines := ls }, stale := olds ++ s.cur.stale }) 2 rs []
            noBytes is))

/-- The push of a register that the mode may name (R1015, R1017): the register's 32-bit view goes to the word below SP,
and SP down to it; a push of RETI also clears IPEND[4]. The pop (R1016, R1017): the register takes the word at SP as a
move would deliver it, and SP goes up by 4; a pop of RETI also sets IPEND[4]. SP is the stack pointer of the mode
(10_state.md R54). A pop into SEQSTAT completes and SEQSTAT takes nothing: the model's choice (DEDUCED, log entry 20). The
spec marks parts of R1015 as its own (general knowledge or derived). -/
def Obligations.PushPopRegister : Prop :=
  (∀ (r : AllReg) (s : State), r ≠ .emudat →
    s.user = false ∨ supervisorReg r = false → s.plain (s.p .sp - 4) 4 →
      CompletesVia (.pushReg r) s (if r = .reti then s.withIpend (s.cur.ev.ipend &&& 0xFFEF) else s) 2 [.p .sp] []
        (bytesAt (s.p .sp - 4).toNat 4) fun u =>
          u.holds (s.p .sp - 4).toNat 4 (s.readReg r) ∧ u.cur.p.get s.user .sp = s.p .sp - 4) ∧
  ∀ (r : AllReg) (s : State), r ≠ .emudat → r ≠ .p .sp →
    s.user = false ∨ supervisorDest r = false → s.plain (s.p .sp) 4 →
      CompletesVia (.popReg r) s (if r = .reti then s.withIpend (s.cur.ev.ipend ||| 0x10) else s) 2
        (changedBy r ++ [.p .sp]) (changedFlags r) noBytes fun u =>
          u.took r (s.word (s.p .sp).toNat) ∧ u.cur.p.get s.user .sp = s.p .sp + 4

/-- Push and pop multiple, LINK and UNLINK (R1018 to R1020): the registers go to the words below SP, first the data registers
from `R_d` up to R7, then the pointer registers from `P_p` up to P5, each one lower than the one before it (`multiList`), and
come back from the words above SP in the reverse order; LINK, with a size of at least 8 bytes, pushes RETS and FP, FP marks
the frame and SP goes down by its size; UNLINK restores FP and RETS. A push or pop multiple of no register completes and
moves nothing: the model's choice (DEDUCED, log entry 3; R1018 gives 1 to 14 registers). The spec marks parts of R1018 to
R1020 as its own (general knowledge or derived). -/
def Obligations.StackFrames : Prop :=
  (∀ m : MultiRegs, (m.d = none → m.p = none → multiList m = []) ∧
    (∀ d, m.d = some d → (∀ k : Nat, k < 8 - d.num → (multiList m)[k]? = some (.d (DReg.ofField (d.num + k)))) ∧
      (m.p = none → (multiList m).length = 8 - d.num) ∧
      (∀ p, m.p = some p → p.num ≤ 5 → (multiList m).length = 8 - d.num + (6 - p.num) ∧
        ∀ k : Nat, k < 6 - p.num → (multiList m)[8 - d.num + k]? = some (.p (PReg.ofField (p.num + k))))) ∧
    (∀ p, m.d = none → m.p = some p → p.num ≤ 5 → (multiList m).length = 6 - p.num ∧
      ∀ k : Nat, k < 6 - p.num → (multiList m)[k]? = some (.p (PReg.ofField (p.num + k))))) ∧
  (∀ (m : MultiRegs) (s : State),
    let rs := multiList m
    let a (k : Nat) : Word := s.p .sp - BitVec.ofNat 32 (4 * (k + 1))
    (∀ k, k < rs.length → s.plain (a k) 4) →
      Completes (.pushMulti m) s 2 [.p .sp] [] (fun x => ∃ k, k < rs.length ∧ bytesAt (a k).toNat 4 x) fun u =>
        (∀ k r, rs[k]? = some r → u.holds (a k).toNat 4 (s.dp r)) ∧
          u.p .sp = s.p .sp - BitVec.ofNat 32 (4 * rs.length)) ∧
  (∀ (m : MultiRegs) (s : State), m.p.all PReg.inRange = true →
    let rs := (multiList m).reverse
    let a (k : Nat) : Word := s.p .sp + BitVec.ofNat 32 (4 * k)
    (∀ k, k < rs.length → s.plain (a k) 4) →
      Completes (.popMulti m) s 2 (.p .sp :: rs.map dpAll) [] noBytes fun u =>
        (∀ k r, rs[k]? = some r → u.dp r = s.word (a k).toNat) ∧ u.p .sp = s.p .sp + BitVec.ofNat 32 (4 * rs.length)) ∧
  (∀ (n : BitVec 16) (s : State), let a := s.p .sp - 4
    let b := s.p .sp - 8
    2 ≤ n.toNat → s.plain a 4 → s.plain b 4 →
      Completes (.link n) s 4 [.p .sp, .p .fp] [] (fun x => bytesAt a.toNat 4 x ∨ bytesAt b.toNat 4 x) fun u =>
        u.holds a.toNat 4 s.cur.rets ∧ u.holds b.toNat 4 (s.p .fp) ∧ u.p .fp = b ∧
          u.p .sp = b - BitVec.ofNat 32 (4 * n.toNat)) ∧
  (∀ s : State, let a := s.p .fp
    s.plain a 4 → s.plain (a + 4) 4 →
      Completes .unlink s 4 [.p .sp, .p .fp, .rets] [] noBytes fun u =>
        u.p .fp = s.word a.toNat ∧ u.cur.rets = s.word (a + 4).toNat ∧ u.p .sp = a + 8)

/-- The event controller's registers through loads and stores of words in Supervisor mode (60_exceptions.md R1710 to
R1714), the DCPLBs and the watchpoint unit off: a store to one is complete when it is among the core's pending stores
(20_memory.md R341); a load answers the register, or, where pending stores of the core cover it, what they hold (R330,
R342): of a store of a word to the register, that word. When the store is performed: one to EVTn writes it, one to IMASK
its bits 15:5 (IMASK[4:0] stay 1), one to IPEND changes nothing, one to ILAT clears the bits 2 and 5 to 15 at which it has
a 1; no register of the core and no byte changes. The spec marks parts of R1713, R1714 as its own (general knowledge or
derived, or decided in D20, D43). -/
def Obligations.EventRegisters : Prop :=
  (∀ (s : State) (d : DReg) (p : PReg), s.user = false → s.issue.slot = .single → s.issue.clash = none →
    s.cur.dmem.endcplb = false →
    s.cur.wp.iactl.getLsbD 0 = false → s.cur.earlyRead (s.p p).toNat 4 = none →
    let x := (s.p p).toNat
    let loads (v : Nat) : Prop := Completes (.loadD .keep d p) s 2 [.d d] [] noBytes fun u => (u.d d).toNat = v
    ((∃ k, k < 16 ∧ x = 0xFFE02000 + 4 * k) ∨ x = 0xFFE02104 ∨ x = 0xFFE02108 ∨ x = 0xFFE0210C →
      CompletesVia (.storeD .keep p d) s (s.pend x 4 (s.d d).toNat) 2 [] [] noBytes (fun _ => True) ∧
      (covered s.cur.stores x 4 = true → loads (overlay s.cur.stores x 4 0))) ∧
    ((∀ k, k < 4 → pendByte s.cur.stores (x + k) = none) →
      (∀ k, k < 16 → x = 0xFFE02000 + 4 * k → loads (s.cur.ev.evt.toList.getD k 0).toNat) ∧
      (x = 0xFFE02104 → loads s.cur.ev.imask.toNat) ∧ (x = 0xFFE02108 → loads s.cur.ev.ipend.toNat) ∧
      (x = 0xFFE0210C → loads s.cur.ev.ilat.toNat))) ∧
  (∀ (ps : List PendStore) (a : Nat) (v : Word), covered (ps ++ [⟨a, 4, v.toNat⟩]) a 4 = true ∧
    overlay (ps ++ [⟨a, 4, v.toNat⟩]) a 4 0 = v.toNat) ∧
  (∀ (s : State) (a : Nat) (v : Word), s.cur.stores = [⟨a, 4, v.toNat⟩] →
    let writes (P : EventCtl → Prop) : Prop := ∃ t, s.drain = .next t ∧ P t.cur.ev ∧
      t = s.setCur { s.cur with stores := [], ev := t.cur.ev }
    (∀ k, k < 16 → a = 0xFFE02000 + 4 * k → writes fun e => e.evt.toList.getD k 0 = v ∧
      (∀ j, j < 16 → j ≠ k → e.evt.toList.getD j 0 = s.cur.ev.evt.toList.getD j 0) ∧
      e = { s.cur.ev with evt := e.evt }) ∧
    (a = 0xFFE02104 → writes fun e => e = { s.cur.ev with imask := (v.extractLsb' 0 16 &&& 0xFFE0) ||| 0x001F }) ∧
    (a = 0xFFE02108 → writes fun e => e = s.cur.ev) ∧
    (a = 0xFFE0210C → writes fun e => e = { s.cur.ev with ilat := e.ilat, raised := e.raised } ∧
      ∀ k, k < 16 → e.ilat.getLsbD k = (s.cur.ev.ilat.getLsbD k && !(v.getLsbD k && (k == 2 || decide (5 ≤ k))))))

/-- Where the spec gives an instruction, or one form of it, no effect, the machine stops under a name that says so: BXOR
(R810), the video operations (R811), the emulator's instruction and register (R1006; 10_state.md R62), the forms that
the spec calls not meaningful or leaves undefined (45_loadstore.md R906, R915; 46_system.md R1004, R1007, R1010, R1016), a
shift whose count and a LINK whose size lie outside their ranges (30_encoding.md R503, 46_system.md R1020;
93_implementation_defined.md 2.2; log entries 65 and 87), and, with the step, the words that the spec names and refuses: the
accumulator compares (R528), VIT_MAX and ALIGN (R504, R545, R811; log entry 64). The spec marks parts of R62, R906, R915,
R1006, R1007, R1010 as its own (general knowledge or derived, or decided in D14, D35). -/
def Obligations.Stops : Prop :=
  ∀ s : State,
    (∀ aa hh d a b, exec (.bxorShift aa hh d a b) s = .refused .bxorNotDescribed ∧
      exec (.bxorAcc aa hh d a b) s = .refused .bxorNotDescribed) ∧
    (∀ hl b o x d e p q, exec (.saa hl o x d e p q) s = .refused .videoNotDescribed ∧
      exec (.byteop1p hl b o x d e p q) s = .refused .videoNotDescribed ∧
      exec (.byteop16 hl b o x d e p q) s = .refused .videoNotDescribed ∧
      exec (.byteop2p hl b o x d e p q) s = .refused .videoNotDescribed ∧
      exec (.byteop3p hl b o x d e p q) s = .refused .videoNotDescribed ∧
      exec (.bytepack hl b o x d e p q) s = .refused .videoNotDescribed) ∧
    exec .emuexcpt s = .refused .emulation ∧
    (s.user = false → ∀ n : BitVec 4, n = 0 ∨ n = 3 ∨ n = 4 → exec (.raiseInt n) s = .refused .raiseReserved) ∧
    (s.user = true → exec .idle s = .refused .idleInUser) ∧
    (s.user = false → exec (.pushReg .emudat) s = .refused .emulatorRegister ∧
      exec (.popReg .emudat) s = .refused .emulatorRegister ∧
      ∀ r, (moveLegal r .emudat = true → exec (.moveReg r .emudat) s = .refused .emulatorRegister) ∧
        (moveLegal .emudat r = true → exec (.moveReg .emudat r) s = .refused .emulatorRegister)) ∧
    exec (.popReg (.p .sp)) s = .refused .popIntoSp ∧
    (∀ a p, a ≠ .keep → exec (.loadP a p p) s = .refused .loadIntoOwnPointer) ∧
    (∀ d p, exec (.loadDIdx d p p) s = .refused .selfPostModify ∧ exec (.loadWZIdx d p p) s = .refused .selfPostModify ∧
      exec (.loadWXIdx d p p) s = .refused .selfPostModify ∧ exec (.storeDIdx p p d) s = .refused .selfPostModify) ∧
    (∀ p, s.cur.dmem.endcplb = false →
      (s.p p).toNat % 2 = 1 ∧ s.cur.region (s.p p).toNat ∈ [Region.l2, .external] ∨
        s.cur.region (s.p p).toNat ∈ [Region.dataSram, .scratchpad] ∨
        s.user = false ∧ s.issue.slot = .single ∧ s.cur.region (s.p p).toNat ∈ [Region.sysMmr, .coreMmr] →
      exec (.testset p) s = .refused .testsetTarget) ∧
    (∀ (n : BitVec 6), (32 ≤ n.toInt.natAbs → ∀ d r a,
        exec (.asrImm d r n) s = .refused .operandRange ∧ exec (.lsrImm d r n) s = .refused .operandRange ∧
        exec (.lslImm d r n) s = .refused .operandRange ∧ exec (.lslImmSat d r n) s = .refused .operandRange ∧
        exec (.asrAccImm a n) s = .refused .operandRange ∧ exec (.lsrAccImm a n) s = .refused .operandRange ∧
        exec (.lslAccImm a n) s = .refused .operandRange) ∧
      (16 ≤ n.toInt.natAbs → ∀ g d h r,
        exec (.asrImmVec d r n) s = .refused .operandRange ∧ exec (.lsrImmVec d r n) s = .refused .operandRange ∧
        exec (.lslImmVec d r n) s = .refused .operandRange ∧ exec (.lslImmVecSat d r n) s = .refused .operandRange ∧
        exec (.asrImmHalf g d h r n) s = .refused .operandRange ∧ exec (.lsrImmHalf g d h r n) s = .refused .operandRange ∧
        exec (.lslImmHalf g d h r n) s = .refused .operandRange ∧
        exec (.lslImmHalfSat g d h r n) s = .refused .operandRange)) ∧
    (∀ n : BitVec 16, n.toNat < 2 → exec (.link n) s = .refused .operandRange) ∧
    (∀ u ∈ [0x0A80, 0x0B00, 0x0B80], decode (unitBytes u) = .notDefined) ∧
    (∀ u v : Nat, u ∈ [0xC609, 0xC629, 0xC60D, 0xC62D] → v < 2 ^ 16 → decode (unitBytes u ++ unitBytes v) = .notDefined) ∧
    ∀ bs : List Byte, s.quietCore → decode bs = .notDefined →
      bs.length = unitLen (unitOf (bs.getD 0 0) (bs.getD 1 0)) → s.codeAt bs → s.cur.synced = false →
      step s = .refused .notDefined

/-! ## The whole machine -/

/-- Both cores keep IMASK[4:0] at 1, and stay the two cores, over every step (60_exceptions.md R1711). -/
def Obligations.StepKeepsCores : Prop := ∀ s t : State, s.coresInv → step s = .next t → t.coresInv

/-- Memory keeps its canonical form over every step: its addresses rise strictly, so that the bytes alone decide the list.
The form is the model's own (DESIGN CHOICE, log entry 12; 20_memory.md R330 only gives the bytes), and it says nothing of
`Mem.scrubs`, the numbers of the free values that a power loss left. -/
def Obligations.StepKeepsMemory : Prop := ∀ s t : State, s.memInv → step s = .next t → t.memInv

/-- What an instruction of User mode that stays in User mode cannot change (60_exceptions.md R1703; 10_state.md R54,
R63): the supervisor's stack pointer, the return registers, SYSCFG, the event vectors, IMASK, IPEND, the CPLBs and their
switches. -/
def Obligations.UserModeConfined : Prop :=
  ∀ (i : Instr) (s t : State), s.user = true → s.issue.slot = .single → exec i s = .next t → t.user = true →
    t.cur.id = s.cur.id ∧ t.cur.p.ssp = s.cur.p.ssp ∧ t.cur.reti = s.cur.reti ∧ t.cur.retx = s.cur.retx ∧
      t.cur.retn = s.cur.retn ∧ t.cur.rete = s.cur.rete ∧ t.cur.syscfg = s.cur.syscfg ∧
      t.cur.ev.evt = s.cur.ev.evt ∧ t.cur.ev.imask = s.cur.ev.imask ∧ t.cur.ev.ipend = s.cur.ev.ipend ∧
      t.cur.dmem.cplb = s.cur.dmem.cplb ∧ t.cur.dmem.endcplb = s.cur.dmem.endcplb ∧
      t.cur.imem.cplb = s.cur.imem.cplb ∧ t.cur.imem.enicplb = s.cur.imem.enicplb

/-- What reset leaves (70_reset_and_hazards.md R1928; 10_state.md R61; 60_exceptions.md R1711, R1713): SYSCFG is 0x30,
IMASK 0x1F, EXCAUSE 0, core A is the current core and in Supervisor mode; both invariants hold; no byte of memory has a
value (70_reset_and_hazards.md R1935; log entry 12). The spec marks parts of R61, R1713, R1935 as its own (general
knowledge or derived, or decided in D43, D50). -/
def Obligations.ResetState : Prop :=
  State.reset.readReg .syscfg = 0x30 ∧ State.reset.cur.ev.imask = 0x001F ∧ State.reset.oth.ev.imask = 0x001F ∧
    State.reset.cur.seqstat.excause = 0 ∧ State.reset.user = false ∧ State.reset.cur.id = .a ∧
    State.reset.oth.id = .b ∧ State.reset.coresInv ∧ State.reset.memInv ∧
    (∀ a, a < 2 ^ 32 → State.reset.mem.read a = none)
end

