-- ==== Sys2Proof/Laws/Mem.lean ====
section
/-!
SUPPORT. The laws of memory: what a byte reads as after a write, and that every operation keeps the canonical form.
-/

namespace Sys2Proof.Laws

open Machine

/-! ## Lists of cells -/

theorem cellsRead_write (cs : List Host.Cell) (x y : Nat) (b : Byte) :
    cellsRead (cellsWrite cs x b) y = if y = x then some b else cellsRead cs y := by
  induction cs with
  | nil => simp [cellsWrite, cellsRead]
  | cons c cs ih =>
    obtain ⟨a, v⟩ := c
    by_cases h1 : x < a
    · by_cases h2 : y = x <;> simp [cellsWrite, cellsRead, h1, h2]
    · by_cases h2 : x = a
      · subst h2
        by_cases h3 : y = x <;> simp [cellsWrite, cellsRead, h3]
      · by_cases h3 : y = x
        · subst h3
          simp [cellsWrite, cellsRead, h1, h2, ih]
        · simp [cellsWrite, cellsRead, h1, h2, ih, h3]

theorem cellsWf_write (cs : List Host.Cell) (lo x : Nat) (b : Byte) (h : cellsWf lo cs = true) (hl : lo ≤ x)
    (hx : x < 2 ^ 32) : cellsWf lo (cellsWrite cs x b) = true := by
  induction cs generalizing lo with
  | nil => simpa [cellsWrite, cellsWf, hl] using hx
  | cons c cs ih =>
    obtain ⟨a, v⟩ := c
    simp only [cellsWf, Bool.and_eq_true, decide_eq_true_eq] at h
    by_cases h1 : x < a
    · simp only [cellsWrite, h1, if_true, cellsWf, Bool.and_eq_true, decide_eq_true_eq]
      exact ⟨⟨hl, hx⟩, ⟨by omega, h.1.2⟩, h.2⟩
    · by_cases h2 : x = a
      · subst h2
        simp only [cellsWrite, Nat.lt_irrefl, if_false, if_true, cellsWf, Bool.and_eq_true, decide_eq_true_eq]
        exact h
      · simp only [cellsWrite, h1, h2, if_false, cellsWf, Bool.and_eq_true, decide_eq_true_eq]
        exact ⟨h.1, ih (a + 1) h.2 (by omega)⟩

theorem cellsWf_mono (cs : List Host.Cell) (lo lo' : Nat) (h : cellsWf lo cs = true) (hl : lo' ≤ lo) :
    cellsWf lo' cs = true := by
  cases cs with
  | nil => rfl
  | cons c cs =>
    obtain ⟨a, v⟩ := c
    simp only [cellsWf, Bool.and_eq_true, decide_eq_true_eq] at h ⊢
    exact ⟨⟨by omega, h.1.2⟩, h.2⟩

theorem cellsWf_filter (p : Host.Cell → Bool) (cs : List Host.Cell) (lo : Nat) (h : cellsWf lo cs = true) :
    cellsWf lo (cs.filter p) = true := by
  induction cs generalizing lo with
  | nil => rfl
  | cons c cs ih =>
    obtain ⟨a, v⟩ := c
    simp only [cellsWf, Bool.and_eq_true, decide_eq_true_eq] at h
    have ih' := ih (a + 1) h.2
    by_cases hp : p (a, v) = true
    · simp only [List.filter_cons, hp, if_true, cellsWf, Bool.and_eq_true, decide_eq_true_eq]
      exact ⟨h.1, ih'⟩
    · simp only [List.filter_cons, hp]
      exact cellsWf_mono _ _ _ ih' (by omega)

/-! ## One byte -/

theorem Mem.read_store (m : Mem) (x y : Nat) (b : Byte) :
    (m.store x b).read y = if x < 2 ^ 32 ∧ y = x then some b else m.read y := by
  by_cases h : x < 2 ^ 32
  · simp only [Mem.store, Mem.read, h, if_true, true_and, cellsRead_write]
  · simp only [Mem.store, h, if_false, false_and]

@[simp] theorem Mem.store_scrubs (m : Mem) (x : Nat) (b : Byte) : (m.store x b).scrubs = m.scrubs := by
  unfold Mem.store; split <;> rfl

theorem Mem.load_store_other (m : Mem) (x y : Nat) (b : Byte) (h : y ≠ x) : (m.store x b).load y = m.load y := by
  simp [Mem.load, Mem.read_store, h]

theorem Mem.wf_store (m : Mem) (x : Nat) (b : Byte) (h : m.wf = true) : (m.store x b).wf = true := by
  unfold Mem.store
  split
  · exact cellsWf_write _ _ _ _ h (Nat.zero_le _) (by assumption)
  · exact h

/-! ## Several bytes -/

@[simp] theorem Mem.storeN_scrubs (m : Mem) (a n v : Nat) : (m.storeN a n v).scrubs = m.scrubs := by
  induction n generalizing m a v with
  | zero => rfl
  | succ n ih => simp [Mem.storeN, ih]

theorem Mem.read_storeN (m : Mem) (a n v y : Nat) :
    (m.storeN a n v).read y =
      if a ≤ y ∧ y < a + n ∧ y < 2 ^ 32 then some (BitVec.ofNat 8 (v / 256 ^ (y - a))) else m.read y := by
  induction n generalizing m a v with
  | zero => simp [Mem.storeN]; intros; omega
  | succ n ih =>
    rw [Mem.storeN, ih, Mem.read_store]
    by_cases h : a + 1 ≤ y ∧ y < a + 1 + n ∧ y < 2 ^ 32
    · rw [if_pos h, if_pos (by omega)]
      obtain ⟨k, hk⟩ : ∃ k, y - a = k + 1 := ⟨y - a - 1, by omega⟩
      rw [hk, show y - (a + 1) = k from by omega, Nat.div_div_eq_div_mul, Nat.pow_succ, Nat.mul_comm]
    · rw [if_neg h]
      by_cases h2 : a < 2 ^ 32 ∧ y = a
      · obtain ⟨h3, rfl⟩ := h2
        rw [if_pos ⟨h3, rfl⟩, if_pos (by omega)]
        simp
      · rw [if_neg h2, if_neg (by omega)]

theorem Mem.load_storeN_other (m : Mem) (a n v y : Nat) (h : ¬ (a ≤ y ∧ y < a + n)) :
    (m.storeN a n v).load y = m.load y := by
  have : ¬ (a ≤ y ∧ y < a + n ∧ y < 2 ^ 32) := fun e => h ⟨e.1, e.2.1⟩
  rw [Mem.load, Mem.load, Mem.read_storeN, if_neg this, Mem.storeN_scrubs]

theorem Mem.wf_storeN (m : Mem) (a n v : Nat) (h : m.wf = true) : (m.storeN a n v).wf = true := by
  induction n generalizing m a v with
  | zero => exact h
  | succ n ih => exact ih _ _ _ (Mem.wf_store _ _ _ h)

theorem Mem.wf_placeBytes (m : Mem) (a : Nat) (bs : List Byte) (h : m.wf = true) : (m.placeBytes a bs).wf = true := by
  induction bs generalizing m a with
  | nil => exact h
  | cons b bs ih => exact ih _ _ (Mem.wf_store _ _ _ h)

theorem Mem.wf_scrub (m : Mem) (lo hi stamp : Nat) (h : m.wf = true) : (m.scrub lo hi stamp).wf = true :=
  cellsWf_filter _ _ _ h

/-- The memory right after reset is in the canonical form. -/
theorem Mem.wf_reset : State.reset.mem.wf = true := rfl

/-- A load of several bytes puts the byte at the lowest address lowest. -/
theorem Mem.loadN_succ (m : Mem) (a n : Nat) : m.loadN a (n + 1) = (m.load a).toNat + 256 * m.loadN (a + 1) n := rfl

theorem Mem.loadN_lt (m : Mem) (a n : Nat) : m.loadN a n < 256 ^ n := by
  induction n generalizing a with
  | zero => exact Nat.one_pos
  | succ n ih =>
    have h1 := (m.load a).isLt
    have h2 := ih (a + 1)
    rw [Mem.loadN_succ, Nat.pow_succ]
    omega

end Sys2Proof.Laws
end

