-- ==== Sys2Proof/Laws/State.lean ====
section
/-!
SUPPORT. The small lemmas of the state: what a register file holds after a write, and for each update of the state what
each of its fields is afterwards.
-/

namespace Sys2Proof.Laws

open Machine

/-! ## Register files (10_state.md R51 to R58) -/

@[simp] theorem DRegs.get_set (f : DRegs) (r q : DReg) (v : Word) :
    (f.set r v).get q = if q = r then v else f.get q := by cases r <;> cases q <;> rfl

@[simp] theorem PRegs.get_set (f : PRegs) (user : Bool) (r q : PReg) (v : Word) :
    (f.set user r v).get user q = if q = r then v else f.get user q := by cases user <;> cases r <;> cases q <;> rfl

@[simp] theorem Dag4.get_set (f : Dag4) (r q : DagN) (v : Word) :
    (f.set r v).get q = if q = r then v else f.get q := by cases r <;> cases q <;> rfl

/-- A write in one mode leaves the other mode's stack pointer. -/
@[simp] theorem PRegs.usp_set_sup (f : PRegs) (r : PReg) (v : Word) : (f.set false r v).usp = f.usp := by
  cases r <;> rfl

@[simp] theorem PRegs.ssp_set_user (f : PRegs) (r : PReg) (v : Word) : (f.set true r v).ssp = f.ssp := by
  cases r <;> rfl

/-! ## Updates of the state -/

@[simp] theorem setCur_cur (s : State) (c : Core) : (s.setCur c).cur = c := rfl
@[simp] theorem setCur_oth (s : State) (c : Core) : (s.setCur c).oth = s.oth := rfl
@[simp] theorem setCur_sys (s : State) (c : Core) : (s.setCur c).sys = s.sys := rfl
@[simp] theorem setCur_mem (s : State) (c : Core) : (s.setCur c).mem = s.mem := rfl
@[simp] theorem setCur_free (s : State) (c : Core) : (s.setCur c).free = s.free := rfl
@[simp] theorem setCur_inputs (s : State) (c : Core) : (s.setCur c).inputs = s.inputs := rfl
@[simp] theorem setCur_board (s : State) (c : Core) : (s.setCur c).board = s.board := rfl
@[simp] theorem setCur_out (s : State) (c : Core) : (s.setCur c).out = s.out := rfl
@[simp] theorem setCur_issue (s : State) (c : Core) : (s.setCur c).issue = s.issue := rfl

/-! What the world sees, and a store that joins the pending ones (R341). -/

@[simp] theorem emit_out (s : State) (o : Output) : (s.emit o).out = o :: s.out := rfl
@[simp] theorem emit_cur (s : State) (o : Output) : (s.emit o).cur = s.cur := rfl
@[simp] theorem emit_oth (s : State) (o : Output) : (s.emit o).oth = s.oth := rfl
@[simp] theorem emit_sys (s : State) (o : Output) : (s.emit o).sys = s.sys := rfl
@[simp] theorem emit_mem (s : State) (o : Output) : (s.emit o).mem = s.mem := rfl
@[simp] theorem emit_free (s : State) (o : Output) : (s.emit o).free = s.free := rfl
@[simp] theorem emit_inputs (s : State) (o : Output) : (s.emit o).inputs = s.inputs := rfl
@[simp] theorem emit_board (s : State) (o : Output) : (s.emit o).board = s.board := rfl
@[simp] theorem emit_issue (s : State) (o : Output) : (s.emit o).issue = s.issue := rfl
@[simp] theorem pend_stores (s : State) (a n v : Nat) : (s.pend a n v).cur.stores = s.cur.stores ++ [⟨a, n, v⟩] := rfl
@[simp] theorem pend_oth (s : State) (a n v : Nat) : (s.pend a n v).oth = s.oth := rfl
@[simp] theorem pend_sys (s : State) (a n v : Nat) : (s.pend a n v).sys = s.sys := rfl
@[simp] theorem pend_mem (s : State) (a n v : Nat) : (s.pend a n v).mem = s.mem := rfl
@[simp] theorem pend_free (s : State) (a n v : Nat) : (s.pend a n v).free = s.free := rfl
@[simp] theorem pend_inputs (s : State) (a n v : Nat) : (s.pend a n v).inputs = s.inputs := rfl
@[simp] theorem pend_board (s : State) (a n v : Nat) : (s.pend a n v).board = s.board := rfl
@[simp] theorem pend_out (s : State) (a n v : Nat) : (s.pend a n v).out = s.out := rfl
@[simp] theorem pend_issue (s : State) (a n v : Nat) : (s.pend a n v).issue = s.issue := rfl

@[simp] theorem setD_cur (s : State) (r : DReg) (v : Word) : (s.setD r v).cur = { s.cur with r := s.cur.r.set r v } := rfl
@[simp] theorem setD_oth (s : State) (r : DReg) (v : Word) : (s.setD r v).oth = s.oth := rfl
@[simp] theorem setD_sys (s : State) (r : DReg) (v : Word) : (s.setD r v).sys = s.sys := rfl
@[simp] theorem setD_mem (s : State) (r : DReg) (v : Word) : (s.setD r v).mem = s.mem := rfl
@[simp] theorem setD_free (s : State) (r : DReg) (v : Word) : (s.setD r v).free = s.free := rfl
@[simp] theorem setD_inputs (s : State) (r : DReg) (v : Word) : (s.setD r v).inputs = s.inputs := rfl
@[simp] theorem setD_board (s : State) (r : DReg) (v : Word) : (s.setD r v).board = s.board := rfl
@[simp] theorem setD_out (s : State) (r : DReg) (v : Word) : (s.setD r v).out = s.out := rfl
@[simp] theorem setD_issue (s : State) (r : DReg) (v : Word) : (s.setD r v).issue = s.issue := rfl
@[simp] theorem setD_user (s : State) (r : DReg) (v : Word) : (s.setD r v).user = s.user := rfl

@[simp] theorem setP_cur (s : State) (r : PReg) (v : Word) : (s.setP r v).cur = { s.cur with p := s.cur.p.set s.user r v } := rfl
@[simp] theorem setP_oth (s : State) (r : PReg) (v : Word) : (s.setP r v).oth = s.oth := rfl
@[simp] theorem setP_sys (s : State) (r : PReg) (v : Word) : (s.setP r v).sys = s.sys := rfl
@[simp] theorem setP_mem (s : State) (r : PReg) (v : Word) : (s.setP r v).mem = s.mem := rfl
@[simp] theorem setP_free (s : State) (r : PReg) (v : Word) : (s.setP r v).free = s.free := rfl
@[simp] theorem setP_inputs (s : State) (r : PReg) (v : Word) : (s.setP r v).inputs = s.inputs := rfl
@[simp] theorem setP_board (s : State) (r : PReg) (v : Word) : (s.setP r v).board = s.board := rfl
@[simp] theorem setP_out (s : State) (r : PReg) (v : Word) : (s.setP r v).out = s.out := rfl
@[simp] theorem setP_issue (s : State) (r : PReg) (v : Word) : (s.setP r v).issue = s.issue := rfl
@[simp] theorem setP_user (s : State) (r : PReg) (v : Word) : (s.setP r v).user = s.user := rfl

@[simp] theorem setI_cur (s : State) (n : DagN) (v : Word) : (s.setI n v).cur = { s.cur with i := s.cur.i.set n v } := rfl
@[simp] theorem setI_oth (s : State) (n : DagN) (v : Word) : (s.setI n v).oth = s.oth := rfl
@[simp] theorem setI_sys (s : State) (n : DagN) (v : Word) : (s.setI n v).sys = s.sys := rfl
@[simp] theorem setI_mem (s : State) (n : DagN) (v : Word) : (s.setI n v).mem = s.mem := rfl
@[simp] theorem setI_free (s : State) (n : DagN) (v : Word) : (s.setI n v).free = s.free := rfl
@[simp] theorem setI_inputs (s : State) (n : DagN) (v : Word) : (s.setI n v).inputs = s.inputs := rfl
@[simp] theorem setI_board (s : State) (n : DagN) (v : Word) : (s.setI n v).board = s.board := rfl
@[simp] theorem setI_out (s : State) (n : DagN) (v : Word) : (s.setI n v).out = s.out := rfl
@[simp] theorem setI_issue (s : State) (n : DagN) (v : Word) : (s.setI n v).issue = s.issue := rfl
@[simp] theorem setI_user (s : State) (n : DagN) (v : Word) : (s.setI n v).user = s.user := rfl

@[simp] theorem setM_cur (s : State) (n : DagN) (v : Word) : (s.setM n v).cur = { s.cur with m := s.cur.m.set n v } := rfl
@[simp] theorem setM_oth (s : State) (n : DagN) (v : Word) : (s.setM n v).oth = s.oth := rfl
@[simp] theorem setM_sys (s : State) (n : DagN) (v : Word) : (s.setM n v).sys = s.sys := rfl
@[simp] theorem setM_mem (s : State) (n : DagN) (v : Word) : (s.setM n v).mem = s.mem := rfl
@[simp] theorem setM_free (s : State) (n : DagN) (v : Word) : (s.setM n v).free = s.free := rfl
@[simp] theorem setM_inputs (s : State) (n : DagN) (v : Word) : (s.setM n v).inputs = s.inputs := rfl
@[simp] theorem setM_board (s : State) (n : DagN) (v : Word) : (s.setM n v).board = s.board := rfl
@[simp] theorem setM_out (s : State) (n : DagN) (v : Word) : (s.setM n v).out = s.out := rfl
@[simp] theorem setM_issue (s : State) (n : DagN) (v : Word) : (s.setM n v).issue = s.issue := rfl
@[simp] theorem setM_user (s : State) (n : DagN) (v : Word) : (s.setM n v).user = s.user := rfl

@[simp] theorem setB_cur (s : State) (n : DagN) (v : Word) : (s.setB n v).cur = { s.cur with b := s.cur.b.set n v } := rfl
@[simp] theorem setB_oth (s : State) (n : DagN) (v : Word) : (s.setB n v).oth = s.oth := rfl
@[simp] theorem setB_sys (s : State) (n : DagN) (v : Word) : (s.setB n v).sys = s.sys := rfl
@[simp] theorem setB_mem (s : State) (n : DagN) (v : Word) : (s.setB n v).mem = s.mem := rfl
@[simp] theorem setB_free (s : State) (n : DagN) (v : Word) : (s.setB n v).free = s.free := rfl
@[simp] theorem setB_inputs (s : State) (n : DagN) (v : Word) : (s.setB n v).inputs = s.inputs := rfl
@[simp] theorem setB_board (s : State) (n : DagN) (v : Word) : (s.setB n v).board = s.board := rfl
@[simp] theorem setB_out (s : State) (n : DagN) (v : Word) : (s.setB n v).out = s.out := rfl
@[simp] theorem setB_issue (s : State) (n : DagN) (v : Word) : (s.setB n v).issue = s.issue := rfl
@[simp] theorem setB_user (s : State) (n : DagN) (v : Word) : (s.setB n v).user = s.user := rfl

@[simp] theorem setL_cur (s : State) (n : DagN) (v : Word) : (s.setL n v).cur = { s.cur with l := s.cur.l.set n v } := rfl
@[simp] theorem setL_oth (s : State) (n : DagN) (v : Word) : (s.setL n v).oth = s.oth := rfl
@[simp] theorem setL_sys (s : State) (n : DagN) (v : Word) : (s.setL n v).sys = s.sys := rfl
@[simp] theorem setL_mem (s : State) (n : DagN) (v : Word) : (s.setL n v).mem = s.mem := rfl
@[simp] theorem setL_free (s : State) (n : DagN) (v : Word) : (s.setL n v).free = s.free := rfl
@[simp] theorem setL_inputs (s : State) (n : DagN) (v : Word) : (s.setL n v).inputs = s.inputs := rfl
@[simp] theorem setL_board (s : State) (n : DagN) (v : Word) : (s.setL n v).board = s.board := rfl
@[simp] theorem setL_out (s : State) (n : DagN) (v : Word) : (s.setL n v).out = s.out := rfl
@[simp] theorem setL_issue (s : State) (n : DagN) (v : Word) : (s.setL n v).issue = s.issue := rfl
@[simp] theorem setL_user (s : State) (n : DagN) (v : Word) : (s.setL n v).user = s.user := rfl

@[simp] theorem setAstat_cur (s : State) (f : Astat) : (s.setAstat f).cur = { s.cur with astat := f } := rfl
@[simp] theorem setAstat_oth (s : State) (f : Astat) : (s.setAstat f).oth = s.oth := rfl
@[simp] theorem setAstat_sys (s : State) (f : Astat) : (s.setAstat f).sys = s.sys := rfl
@[simp] theorem setAstat_mem (s : State) (f : Astat) : (s.setAstat f).mem = s.mem := rfl
@[simp] theorem setAstat_free (s : State) (f : Astat) : (s.setAstat f).free = s.free := rfl
@[simp] theorem setAstat_inputs (s : State) (f : Astat) : (s.setAstat f).inputs = s.inputs := rfl
@[simp] theorem setAstat_board (s : State) (f : Astat) : (s.setAstat f).board = s.board := rfl
@[simp] theorem setAstat_out (s : State) (f : Astat) : (s.setAstat f).out = s.out := rfl
@[simp] theorem setAstat_issue (s : State) (f : Astat) : (s.setAstat f).issue = s.issue := rfl
@[simp] theorem setAstat_user (s : State) (f : Astat) : (s.setAstat f).user = s.user := rfl

@[simp] theorem setCc_cur (s : State) (b : Bool) : (s.setCc b).cur = { s.cur with astat := { s.cur.astat with cc := b } } := rfl
@[simp] theorem setCc_oth (s : State) (b : Bool) : (s.setCc b).oth = s.oth := rfl
@[simp] theorem setCc_sys (s : State) (b : Bool) : (s.setCc b).sys = s.sys := rfl
@[simp] theorem setCc_mem (s : State) (b : Bool) : (s.setCc b).mem = s.mem := rfl
@[simp] theorem setCc_free (s : State) (b : Bool) : (s.setCc b).free = s.free := rfl
@[simp] theorem setCc_inputs (s : State) (b : Bool) : (s.setCc b).inputs = s.inputs := rfl
@[simp] theorem setCc_board (s : State) (b : Bool) : (s.setCc b).board = s.board := rfl
@[simp] theorem setCc_out (s : State) (b : Bool) : (s.setCc b).out = s.out := rfl
@[simp] theorem setCc_issue (s : State) (b : Bool) : (s.setCc b).issue = s.issue := rfl
@[simp] theorem setCc_user (s : State) (b : Bool) : (s.setCc b).user = s.user := rfl

@[simp] theorem setPc_cur (s : State) (a : Word) : (s.setPc a).cur = { s.cur with pc := a } := rfl
@[simp] theorem setPc_oth (s : State) (a : Word) : (s.setPc a).oth = s.oth := rfl
@[simp] theorem setPc_sys (s : State) (a : Word) : (s.setPc a).sys = s.sys := rfl
@[simp] theorem setPc_mem (s : State) (a : Word) : (s.setPc a).mem = s.mem := rfl
@[simp] theorem setPc_free (s : State) (a : Word) : (s.setPc a).free = s.free := rfl
@[simp] theorem setPc_inputs (s : State) (a : Word) : (s.setPc a).inputs = s.inputs := rfl
@[simp] theorem setPc_board (s : State) (a : Word) : (s.setPc a).board = s.board := rfl
@[simp] theorem setPc_out (s : State) (a : Word) : (s.setPc a).out = s.out := rfl
@[simp] theorem setPc_issue (s : State) (a : Word) : (s.setPc a).issue = s.issue := rfl
@[simp] theorem setPc_user (s : State) (a : Word) : (s.setPc a).user = s.user := rfl

@[simp] theorem setEv_cur (s : State) (e : EventCtl) : (s.setEv e).cur = { s.cur with ev := e } := rfl
@[simp] theorem setEv_oth (s : State) (e : EventCtl) : (s.setEv e).oth = s.oth := rfl
@[simp] theorem setEv_sys (s : State) (e : EventCtl) : (s.setEv e).sys = s.sys := rfl
@[simp] theorem setEv_mem (s : State) (e : EventCtl) : (s.setEv e).mem = s.mem := rfl
@[simp] theorem setEv_free (s : State) (e : EventCtl) : (s.setEv e).free = s.free := rfl
@[simp] theorem setEv_inputs (s : State) (e : EventCtl) : (s.setEv e).inputs = s.inputs := rfl
@[simp] theorem setEv_board (s : State) (e : EventCtl) : (s.setEv e).board = s.board := rfl
@[simp] theorem setEv_out (s : State) (e : EventCtl) : (s.setEv e).out = s.out := rfl
@[simp] theorem setEv_issue (s : State) (e : EventCtl) : (s.setEv e).issue = s.issue := rfl

@[simp] theorem flags_cur (s : State) (f : Astat → Astat) : (s.flags f).cur = { s.cur with astat := f s.cur.astat } := rfl
@[simp] theorem flags_oth (s : State) (f : Astat → Astat) : (s.flags f).oth = s.oth := rfl
@[simp] theorem flags_sys (s : State) (f : Astat → Astat) : (s.flags f).sys = s.sys := rfl
@[simp] theorem flags_mem (s : State) (f : Astat → Astat) : (s.flags f).mem = s.mem := rfl
@[simp] theorem flags_free (s : State) (f : Astat → Astat) : (s.flags f).free = s.free := rfl
@[simp] theorem flags_inputs (s : State) (f : Astat → Astat) : (s.flags f).inputs = s.inputs := rfl
@[simp] theorem flags_board (s : State) (f : Astat → Astat) : (s.flags f).board = s.board := rfl
@[simp] theorem flags_out (s : State) (f : Astat → Astat) : (s.flags f).out = s.out := rfl
@[simp] theorem flags_issue (s : State) (f : Astat → Astat) : (s.flags f).issue = s.issue := rfl
@[simp] theorem flags_user (s : State) (f : Astat → Astat) : (s.flags f).user = s.user := rfl

@[simp] theorem setAcc_a0_cur (s : State) (v : Acc) : (s.setAcc .a0 v).cur = { s.cur with a0 := v } := rfl
@[simp] theorem setAcc_a0_oth (s : State) (v : Acc) : (s.setAcc .a0 v).oth = s.oth := rfl
@[simp] theorem setAcc_a0_sys (s : State) (v : Acc) : (s.setAcc .a0 v).sys = s.sys := rfl
@[simp] theorem setAcc_a0_mem (s : State) (v : Acc) : (s.setAcc .a0 v).mem = s.mem := rfl
@[simp] theorem setAcc_a0_free (s : State) (v : Acc) : (s.setAcc .a0 v).free = s.free := rfl
@[simp] theorem setAcc_a0_inputs (s : State) (v : Acc) : (s.setAcc .a0 v).inputs = s.inputs := rfl
@[simp] theorem setAcc_a0_board (s : State) (v : Acc) : (s.setAcc .a0 v).board = s.board := rfl
@[simp] theorem setAcc_a0_out (s : State) (v : Acc) : (s.setAcc .a0 v).out = s.out := rfl
@[simp] theorem setAcc_a0_issue (s : State) (v : Acc) : (s.setAcc .a0 v).issue = s.issue := rfl
@[simp] theorem setAcc_a0_user (s : State) (v : Acc) : (s.setAcc .a0 v).user = s.user := rfl

@[simp] theorem setAcc_a1_cur (s : State) (v : Acc) : (s.setAcc .a1 v).cur = { s.cur with a1 := v } := rfl
@[simp] theorem setAcc_a1_oth (s : State) (v : Acc) : (s.setAcc .a1 v).oth = s.oth := rfl
@[simp] theorem setAcc_a1_sys (s : State) (v : Acc) : (s.setAcc .a1 v).sys = s.sys := rfl
@[simp] theorem setAcc_a1_mem (s : State) (v : Acc) : (s.setAcc .a1 v).mem = s.mem := rfl
@[simp] theorem setAcc_a1_free (s : State) (v : Acc) : (s.setAcc .a1 v).free = s.free := rfl
@[simp] theorem setAcc_a1_inputs (s : State) (v : Acc) : (s.setAcc .a1 v).inputs = s.inputs := rfl
@[simp] theorem setAcc_a1_board (s : State) (v : Acc) : (s.setAcc .a1 v).board = s.board := rfl
@[simp] theorem setAcc_a1_out (s : State) (v : Acc) : (s.setAcc .a1 v).out = s.out := rfl
@[simp] theorem setAcc_a1_issue (s : State) (v : Acc) : (s.setAcc .a1 v).issue = s.issue := rfl
@[simp] theorem setAcc_a1_user (s : State) (v : Acc) : (s.setAcc .a1 v).user = s.user := rfl

@[simp] theorem setLoop_l0_cur (s : State) (u : LoopUnit) : (s.setLoop .l0 u).cur = { s.cur with loop0 := u } := rfl
@[simp] theorem setLoop_l0_oth (s : State) (u : LoopUnit) : (s.setLoop .l0 u).oth = s.oth := rfl
@[simp] theorem setLoop_l0_sys (s : State) (u : LoopUnit) : (s.setLoop .l0 u).sys = s.sys := rfl
@[simp] theorem setLoop_l0_mem (s : State) (u : LoopUnit) : (s.setLoop .l0 u).mem = s.mem := rfl
@[simp] theorem setLoop_l0_free (s : State) (u : LoopUnit) : (s.setLoop .l0 u).free = s.free := rfl
@[simp] theorem setLoop_l0_inputs (s : State) (u : LoopUnit) : (s.setLoop .l0 u).inputs = s.inputs := rfl
@[simp] theorem setLoop_l0_board (s : State) (u : LoopUnit) : (s.setLoop .l0 u).board = s.board := rfl
@[simp] theorem setLoop_l0_out (s : State) (u : LoopUnit) : (s.setLoop .l0 u).out = s.out := rfl
@[simp] theorem setLoop_l0_issue (s : State) (u : LoopUnit) : (s.setLoop .l0 u).issue = s.issue := rfl
@[simp] theorem setLoop_l0_user (s : State) (u : LoopUnit) : (s.setLoop .l0 u).user = s.user := rfl

@[simp] theorem setLoop_l1_cur (s : State) (u : LoopUnit) : (s.setLoop .l1 u).cur = { s.cur with loop1 := u } := rfl
@[simp] theorem setLoop_l1_oth (s : State) (u : LoopUnit) : (s.setLoop .l1 u).oth = s.oth := rfl
@[simp] theorem setLoop_l1_sys (s : State) (u : LoopUnit) : (s.setLoop .l1 u).sys = s.sys := rfl
@[simp] theorem setLoop_l1_mem (s : State) (u : LoopUnit) : (s.setLoop .l1 u).mem = s.mem := rfl
@[simp] theorem setLoop_l1_free (s : State) (u : LoopUnit) : (s.setLoop .l1 u).free = s.free := rfl
@[simp] theorem setLoop_l1_inputs (s : State) (u : LoopUnit) : (s.setLoop .l1 u).inputs = s.inputs := rfl
@[simp] theorem setLoop_l1_board (s : State) (u : LoopUnit) : (s.setLoop .l1 u).board = s.board := rfl
@[simp] theorem setLoop_l1_out (s : State) (u : LoopUnit) : (s.setLoop .l1 u).out = s.out := rfl
@[simp] theorem setLoop_l1_issue (s : State) (u : LoopUnit) : (s.setLoop .l1 u).issue = s.issue := rfl
@[simp] theorem setLoop_l1_user (s : State) (u : LoopUnit) : (s.setLoop .l1 u).user = s.user := rfl

/-! ## Updates named by an operand -/

@[simp] theorem setAcc_oth (s : State) (n : AccN) (v : Acc) : (s.setAcc n v).oth = s.oth := by cases n <;> rfl
@[simp] theorem setAcc_sys (s : State) (n : AccN) (v : Acc) : (s.setAcc n v).sys = s.sys := by cases n <;> rfl
@[simp] theorem setAcc_mem (s : State) (n : AccN) (v : Acc) : (s.setAcc n v).mem = s.mem := by cases n <;> rfl
@[simp] theorem setAcc_free (s : State) (n : AccN) (v : Acc) : (s.setAcc n v).free = s.free := by cases n <;> rfl
@[simp] theorem setAcc_inputs (s : State) (n : AccN) (v : Acc) : (s.setAcc n v).inputs = s.inputs := by cases n <;> rfl
@[simp] theorem setAcc_board (s : State) (n : AccN) (v : Acc) : (s.setAcc n v).board = s.board := by cases n <;> rfl
@[simp] theorem setAcc_out (s : State) (n : AccN) (v : Acc) : (s.setAcc n v).out = s.out := by cases n <;> rfl
@[simp] theorem setAcc_issue (s : State) (n : AccN) (v : Acc) : (s.setAcc n v).issue = s.issue := by cases n <;> rfl

@[simp] theorem setLoop_oth (s : State) (n : LoopN) (v : LoopUnit) : (s.setLoop n v).oth = s.oth := by cases n <;> rfl
@[simp] theorem setLoop_sys (s : State) (n : LoopN) (v : LoopUnit) : (s.setLoop n v).sys = s.sys := by cases n <;> rfl
@[simp] theorem setLoop_mem (s : State) (n : LoopN) (v : LoopUnit) : (s.setLoop n v).mem = s.mem := by cases n <;> rfl
@[simp] theorem setLoop_free (s : State) (n : LoopN) (v : LoopUnit) : (s.setLoop n v).free = s.free := by cases n <;> rfl
@[simp] theorem setLoop_inputs (s : State) (n : LoopN) (v : LoopUnit) : (s.setLoop n v).inputs = s.inputs := by cases n <;> rfl
@[simp] theorem setLoop_board (s : State) (n : LoopN) (v : LoopUnit) : (s.setLoop n v).board = s.board := by cases n <;> rfl
@[simp] theorem setLoop_out (s : State) (n : LoopN) (v : LoopUnit) : (s.setLoop n v).out = s.out := by cases n <;> rfl
@[simp] theorem setLoop_issue (s : State) (n : LoopN) (v : LoopUnit) : (s.setLoop n v).issue = s.issue := by cases n <;> rfl

@[simp] theorem setDp_oth (s : State) (n : DPReg) (v : Word) : (s.setDp n v).oth = s.oth := by cases n <;> rfl
@[simp] theorem setDp_sys (s : State) (n : DPReg) (v : Word) : (s.setDp n v).sys = s.sys := by cases n <;> rfl
@[simp] theorem setDp_mem (s : State) (n : DPReg) (v : Word) : (s.setDp n v).mem = s.mem := by cases n <;> rfl
@[simp] theorem setDp_free (s : State) (n : DPReg) (v : Word) : (s.setDp n v).free = s.free := by cases n <;> rfl
@[simp] theorem setDp_inputs (s : State) (n : DPReg) (v : Word) : (s.setDp n v).inputs = s.inputs := by cases n <;> rfl
@[simp] theorem setDp_board (s : State) (n : DPReg) (v : Word) : (s.setDp n v).board = s.board := by cases n <;> rfl
@[simp] theorem setDp_out (s : State) (n : DPReg) (v : Word) : (s.setDp n v).out = s.out := by cases n <;> rfl
@[simp] theorem setDp_issue (s : State) (n : DPReg) (v : Word) : (s.setDp n v).issue = s.issue := by cases n <;> rfl

@[simp] theorem writeReg_oth (s : State) (n : AllReg) (v : Word) : (s.writeReg n v).oth = s.oth := by
  cases n <;> try rfl
  all_goals rename_i n; cases n <;> rfl
@[simp] theorem writeReg_sys (s : State) (n : AllReg) (v : Word) : (s.writeReg n v).sys = s.sys := by
  cases n <;> try rfl
  all_goals rename_i n; cases n <;> rfl
@[simp] theorem writeReg_mem (s : State) (n : AllReg) (v : Word) : (s.writeReg n v).mem = s.mem := by
  cases n <;> try rfl
  all_goals rename_i n; cases n <;> rfl
@[simp] theorem writeReg_free (s : State) (n : AllReg) (v : Word) : (s.writeReg n v).free = s.free := by
  cases n <;> try rfl
  all_goals rename_i n; cases n <;> rfl
@[simp] theorem writeReg_inputs (s : State) (n : AllReg) (v : Word) : (s.writeReg n v).inputs = s.inputs := by
  cases n <;> try rfl
  all_goals rename_i n; cases n <;> rfl
@[simp] theorem writeReg_board (s : State) (n : AllReg) (v : Word) : (s.writeReg n v).board = s.board := by
  cases n <;> try rfl
  all_goals rename_i n; cases n <;> rfl
@[simp] theorem writeReg_out (s : State) (n : AllReg) (v : Word) : (s.writeReg n v).out = s.out := by
  cases n <;> try rfl
  all_goals rename_i n; cases n <;> rfl
@[simp] theorem writeReg_issue (s : State) (n : AllReg) (v : Word) : (s.writeReg n v).issue = s.issue := by
  cases n <;> try rfl
  all_goals rename_i n; cases n <;> rfl

@[simp] theorem acc_setAcc (s : State) (n q : AccN) (v : Acc) :
    (s.setAcc n v).acc q = if q = n then v else s.acc q := by cases n <;> cases q <;> rfl

@[simp] theorem dp_setDp (s : State) (n q : DPReg) (v : Word) :
    (s.setDp n v).dp q = if q = n then v else s.dp q := by
  cases n <;> cases q <;> simp [State.setDp, State.dp, State.d, State.p]

@[simp] theorem loopUnit_setLoop (s : State) (n q : LoopN) (v : LoopUnit) :
    (s.setLoop n v).loopUnit q = if q = n then v else s.loopUnit q := by cases n <;> cases q <;> rfl

end Sys2Proof.Laws
end

