-- ==== Sys2Proof/Laws/Frames.lean ====
section
/-!
SUPPORT. How frames are built: the identity, and one lemma for each update of the state that an instruction makes.
-/

namespace Sys2Proof.Laws

open Machine

variable {s t : State} {rs : List AllReg} {fs : List FlagName} {st : Nat → Prop}

theorem Frame.refl (s : State) (rs : List AllReg) (fs : List FlagName) (st : Nat → Prop) : Frame s s rs fs st :=
  ⟨fun _ _ _ _ => rfl, .inr rfl, fun _ _ => rfl, rfl, rfl, rfl, rfl,
    ⟨rfl, ⟨[], (List.append_nil _).symm, fun _ hq => absurd hq List.not_mem_nil⟩, fun _ _ => ⟨rfl, rfl⟩⟩, ⟨rfl, rfl⟩⟩

/-- What the frame says of a state that differs only in the model's own bookkeeping. -/
theorem Frame.of_same (h : Frame s t rs fs st) {u : State} (hc : u.cur = t.cur) (ho : u.oth = t.oth) (hs : u.sys = t.sys)
    (hi : u.inputs = t.inputs) (hm : u.mem = t.mem) (hb : u.board = t.board) (hx : u.out = t.out) : Frame s u rs fs st := by
  obtain ⟨h1, h2, h3, h4, h5, h6, h7, h8, h9⟩ := h
  refine ⟨?_, ?_, ?_, ?_, ho.trans h5, hs.trans h6, hi.trans h7, ?_, hb.trans h9.1, hx.trans h9.2⟩
  · intro r a b c
    rw [← h1 r a b c]
    cases r <;> simp only [State.readReg, State.d, State.p, State.i, State.m, State.b, State.l, State.acc, State.loopUnit,
      State.user, hc]
  · have e : u.otherSp = t.otherSp := by unfold State.otherSp State.user; rw [hc]
    rw [e]; exact h2
  · intro f hf
    rw [← h3 f hf]
    cases f <;> simp only [State.flag, hc]
  · rw [hc]; exact h4
  · obtain ⟨e1, e2, e3⟩ := h8
    refine ⟨hm.trans e1, hc ▸ e2, fun a ha => ?_⟩
    have := e3 a ha
    simpa only [State.seen, State.byte, hc, hm] using this

theorem Frame.setD (h : Frame s t rs fs st) {r : DReg} (hr : .d r ∈ rs) (v : Word) : Frame s (t.setD r v) rs fs st := by
  obtain ⟨h1, h2, h3, h4, h5, h6, h7, h8, h9⟩ := h
  refine ⟨?_, h2, h3, h4, h5, h6, h7, h8, h9⟩
  intro q a b c
  rw [← h1 q a b c]
  cases q <;> try rfl
  rename_i q
  have : q ≠ r := fun e => a (e ▸ hr)
  simp [State.readReg, State.d, this]

theorem Frame.setDh (h : Frame s t rs fs st) {r : DReg} (hr : .d r ∈ rs) (k : Half) (v : HWord) :
    Frame s (t.setDh r k v) rs fs st := Frame.setD h hr _

theorem Frame.setP (h : Frame s t rs fs st) {r : PReg} (hr : .p r ∈ rs) (v : Word) : Frame s (t.setP r v) rs fs st := by
  obtain ⟨h1, h2, h3, h4, h5, h6, h7, h8, h9⟩ := h
  refine ⟨?_, ?_, h3, h4, h5, h6, h7, h8, h9⟩
  · intro q a b c
    rw [← h1 q a b c]
    cases q <;> try rfl
    · rename_i q
      have : q ≠ r := fun e => a (e ▸ hr)
      simp [State.readReg, State.p, this]
    · exact absurd rfl c
  · rcases h2 with h2 | h2
    · exact .inl h2
    · refine .inr (Eq.trans ?_ h2)
      simp only [State.otherSp, setP_user, setP_cur]
      by_cases hu : t.user = true
      · simp [hu]
      · simp [Bool.eq_false_iff.mpr hu]

theorem Frame.setDp (h : Frame s t rs fs st) {r : DPReg} (hd : ∀ x, r = .d x → .d x ∈ rs)
    (hp : ∀ x, r = .p x → .p x ∈ rs) (v : Word) : Frame s (t.setDp r v) rs fs st := by
  cases r with
  | d x => exact Frame.setD h (hd x rfl) v
  | p x => exact Frame.setP h (hp x rfl) v

theorem Frame.setI (h : Frame s t rs fs st) {r : DagN} (hr : .i r ∈ rs) (v : Word) : Frame s (t.setI r v) rs fs st := by
  obtain ⟨h1, h2, h3, h4, h5, h6, h7, h8, h9⟩ := h
  refine ⟨?_, h2, h3, h4, h5, h6, h7, h8, h9⟩
  intro q a b c
  rw [← h1 q a b c]
  cases q <;> try rfl
  rename_i q
  have : q ≠ r := fun e => a (e ▸ hr)
  simp [State.readReg, State.i, this]

theorem Frame.setM (h : Frame s t rs fs st) {r : DagN} (hr : .m r ∈ rs) (v : Word) : Frame s (t.setM r v) rs fs st := by
  obtain ⟨h1, h2, h3, h4, h5, h6, h7, h8, h9⟩ := h
  refine ⟨?_, h2, h3, h4, h5, h6, h7, h8, h9⟩
  intro q a b c
  rw [← h1 q a b c]
  cases q <;> try rfl
  rename_i q
  have : q ≠ r := fun e => a (e ▸ hr)
  simp [State.readReg, State.m, this]

theorem Frame.setB (h : Frame s t rs fs st) {r : DagN} (hr : .b r ∈ rs) (v : Word) : Frame s (t.setB r v) rs fs st := by
  obtain ⟨h1, h2, h3, h4, h5, h6, h7, h8, h9⟩ := h
  refine ⟨?_, h2, h3, h4, h5, h6, h7, h8, h9⟩
  intro q a b c
  rw [← h1 q a b c]
  cases q <;> try rfl
  rename_i q
  have : q ≠ r := fun e => a (e ▸ hr)
  simp [State.readReg, State.b, this]

theorem Frame.setL (h : Frame s t rs fs st) {r : DagN} (hr : .l r ∈ rs) (v : Word) : Frame s (t.setL r v) rs fs st := by
  obtain ⟨h1, h2, h3, h4, h5, h6, h7, h8, h9⟩ := h
  refine ⟨?_, h2, h3, h4, h5, h6, h7, h8, h9⟩
  intro q a b c
  rw [← h1 q a b c]
  cases q <;> try rfl
  rename_i q
  have : q ≠ r := fun e => a (e ▸ hr)
  simp [State.readReg, State.l, this]

/-- An accumulator takes a value: both of its parts may change. -/
theorem Frame.setAcc (h : Frame s t rs fs st) {a : AccN} (hx : .ax a ∈ rs) (hw : .aw a ∈ rs) (v : Acc) :
    Frame s (t.setAcc a v) rs fs st := by
  obtain ⟨h1, h2, h3, h4, h5, h6, h7, h8, h9⟩ := h
  cases a
  all_goals
    refine ⟨?_, h2, h3, h4, h5, h6, h7, h8, h9⟩
    intro q e b c
    rw [← h1 q e b c]
    cases q <;> try rfl
    all_goals
      rename_i q
      cases q
      · first | rfl | exact absurd hx e | exact absurd hw e
      · first | rfl | exact absurd hx e | exact absurd hw e

/-- The flags are changed by `g`, which leaves all but those in `fs`. -/
theorem Frame.flags (h : Frame s t rs fs st) {g : Astat → Astat}
    (hg : ∀ f, f ∉ fs → (t.flags g).flag f = t.flag f) : Frame s (t.flags g) rs fs st := by
  obtain ⟨h1, h2, h3, h4, h5, h6, h7, h8, h9⟩ := h
  refine ⟨?_, h2, ?_, h4, h5, h6, h7, h8, h9⟩
  · intro q a b c
    rw [← h1 q a b c]
    cases q <;> first | rfl | exact absurd rfl b
  · intro f hf
    rw [hg f hf, h3 f hf]

theorem Frame.setCc (h : Frame s t rs fs st) (hc : .cc ∈ fs) (b : Bool) : Frame s (t.setCc b) rs fs st :=
  Frame.flags (g := fun f => { f with cc := b }) h (by
    intro f hf
    cases f <;> first | rfl | exact absurd hc hf)

@[simp] theorem extract_append_low {m n : Nat} (x : BitVec m) (y : BitVec n) : (x ++ y).extractLsb' 0 n = y := by
  apply BitVec.eq_of_getLsbD_eq
  intro i hi
  simp [BitVec.getLsbD_append, hi]

@[simp] theorem extract_append_high {m n : Nat} (x : BitVec m) (y : BitVec n) : (x ++ y).extractLsb' n m = x := by
  apply BitVec.eq_of_getLsbD_eq
  intro i hi
  simp [BitVec.getLsbD_append, hi]

@[simp] theorem accX_accOf (x : Byte) (w : Word) : accX (accOf x w) = x := extract_append_high x w

@[simp] theorem accW_accOf (x : Byte) (w : Word) : accW (accOf x w) = w := extract_append_low x w

/-- A register takes a word (R550): `changedBy` and `changedFlags` name what changes. -/
theorem Frame.writeReg (h : Frame s t rs fs st) {r : AllReg} (hr : ∀ x, x ∈ changedBy r → x ∈ rs)
    (hf : ∀ f, f ∈ changedFlags r → f ∈ fs) (hu : r = .usp → t.user = false) (v : Word) :
    Frame s (t.writeReg r v) rs fs st := by
  cases r with
  | d r => exact Frame.setD h (hr _ (by simp [changedBy])) v
  | p r => exact Frame.setP h (hr _ (by simp [changedBy])) v
  | i r => exact Frame.setI h (hr _ (by simp [changedBy])) v
  | m r => exact Frame.setM h (hr _ (by simp [changedBy])) v
  | b r => exact Frame.setB h (hr _ (by simp [changedBy])) v
  | l r => exact Frame.setL h (hr _ (by simp [changedBy])) v
  | astat =>
    exact Frame.flags (g := fun _ => Astat.ofWord v) h (fun f hn =>
      absurd (hf f (by cases f <;> simp [changedFlags, FlagName.all])) hn)
  | seqstat => exact h
  | emudat => exact h
  | usp =>
    have hu := hu rfl
    obtain ⟨h1, h2, h3, h4, h5, h6, h7, h8, h9⟩ := h
    refine ⟨?_, .inl (hr _ (by simp [changedBy])), h3, h4, h5, h6, h7, h8, h9⟩
    intro q a b c
    rw [← h1 q a b c]
    cases q <;> try rfl
    · rename_i q
      have e : t.cur.user = false := hu
      cases q <;>
        simp [State.writeReg, State.readReg, State.p, State.user, Core.user, Core.evbits, PRegs.get] at e ⊢ <;> simp [e]
    · exact absurd rfl c
  | ax a =>
    have hm : AllReg.ax a ∈ rs := hr _ (by simp [changedBy])
    obtain ⟨h1, h2, h3, h4, h5, h6, h7, h8, h9⟩ := h
    cases a <;>
    · refine ⟨?_, h2, h3, h4, h5, h6, h7, h8, h9⟩
      intro q e b c
      rw [← h1 q e b c]
      cases q <;> try rfl
      all_goals
        rename_i q
        cases q <;> first
          | rfl
          | exact absurd hm e
          | simp [State.writeReg, State.readReg, State.acc, State.setAcc]
  | aw a =>
    have hm : AllReg.aw a ∈ rs := hr _ (by simp [changedBy])
    obtain ⟨h1, h2, h3, h4, h5, h6, h7, h8, h9⟩ := h
    cases a <;>
    · refine ⟨?_, h2, h3, h4, h5, h6, h7, h8, h9⟩
      intro q e b c
      rw [← h1 q e b c]
      cases q <;> try rfl
      all_goals
        rename_i q
        cases q <;> first
          | rfl
          | exact absurd hm e
          | simp [State.writeReg, State.readReg, State.acc, State.setAcc]
  | lc n | lt n | lb n =>
    have hm := hr _ (List.mem_singleton.mpr rfl)
    obtain ⟨h1, h2, h3, h4, h5, h6, h7, h8, h9⟩ := h
    cases n <;>
    · refine ⟨?_, h2, h3, h4, h5, h6, h7, h8, h9⟩
      intro q e b c
      rw [← h1 q e b c]
      cases q <;> try rfl
      all_goals rename_i q; cases q <;> first | rfl | exact absurd hm e
  | cycles | cycles2 =>
    have hm := hr _ (List.mem_singleton.mpr rfl)
    obtain ⟨h1, h2, h3, h4, h5, h6, h7, h8, h9⟩ := h
    refine ⟨?_, h2, h3, h4, h5, h6, h7, h8, h9⟩
    intro q e b c
    rw [← h1 q e b c]
    cases q <;> first
      | rfl
      | exact absurd hm e
      | exact extract_append_high (m := 32) (n := 32) _ _
      | exact extract_append_low (m := 32) (n := 32) _ _
  | rets | syscfg | reti | retx | retn | rete =>
    have hm := hr _ (List.mem_singleton.mpr rfl)
    obtain ⟨h1, h2, h3, h4, h5, h6, h7, h8, h9⟩ := h
    refine ⟨?_, h2, h3, h4, h5, h6, h7, h8, h9⟩
    intro q e b c
    rw [← h1 q e b c]
    cases q <;> first | rfl | exact absurd hm e

/-- What the newest pending store to each byte holds, one more store having joined them. -/
theorem pendByte_append (ps : List PendStore) (q : PendStore) (x : Nat) :
    pendByte (ps ++ [q]) x =
      if q.addr ≤ x ∧ x < q.addr + q.size then some (BitVec.ofNat 8 (q.val / 256 ^ (x - q.addr))) else pendByte ps x := by
  simp [pendByte, List.foldl_append]

/-- One more store joins the pending ones. -/
theorem storesTo.pend (h : storesTo s t st) {a n : Nat} (hn : 0 < n) (hb : ∀ x, bytesAt a n x → st x) (v : Nat) :
    storesTo s (t.pend a n v) st := by
  obtain ⟨h1, ⟨new, h2, h3⟩, h4⟩ := h
  refine ⟨h1, ⟨new ++ [⟨a, n, v⟩], ?_, ?_⟩, ?_⟩
  · simp [State.pend, State.setCur, h2]
  · intro q hq
    rcases List.mem_append.1 hq with hq | hq
    · exact h3 q hq
    · obtain rfl := List.mem_singleton.1 hq
      exact ⟨hn, hb⟩
  · intro x hx
    obtain ⟨e1, e2⟩ := h4 x hx
    have : ¬ (a ≤ x ∧ x < a + n) := fun e => hx (hb x e)
    have e : pendByte (t.pend a n v).cur.stores x = pendByte t.cur.stores x := by
      simp only [State.pend, State.setCur, pendByte_append, if_neg this]
    exact ⟨by rw [← e1]; simp only [State.seen, e]; rfl, by rw [← e2]; simp only [State.byte, e]; rfl⟩

/-- The bytes of a store. -/
theorem Frame.pend (h : Frame s t rs fs st) {a n : Nat} (hn : 0 < n) (hb : ∀ x, bytesAt a n x → st x) (v : Nat) :
    Frame s (t.pend a n v) rs fs st := by
  obtain ⟨h1, h2, h3, h4, h5, h6, h7, h8, h9⟩ := h
  refine ⟨?_, h2, ?_, h4, h5, h6, h7, storesTo.pend h8 hn hb v, h9⟩
  · intro r a b c
    rw [← h1 r a b c]
    cases r <;> rfl
  · intro f hf
    rw [← h3 f hf]
    cases f <;> rfl

/-- The model's counter of free values is no state of the machine. -/
theorem Frame.setFree (h : Frame s t rs fs st) (n : Nat) : Frame s { t with free := n } rs fs st :=
  Frame.of_same h rfl rfl rfl rfl rfl rfl rfl

end Sys2Proof.Laws
end

