-- ==== Sys2Proof/Laws/Access.lean ====
section
/-!
SUPPORT. Data accesses that nothing stands in the way of, and accesses that the checks stop: what they answer.
-/

namespace Sys2Proof.Laws

open Machine

variable {s : State} {a : Word} {n : Nat}

theorem plain_check (h : s.plain a n) (dag1 write : Bool) : s.checkData dag1 a n write = none := by
  obtain ⟨h1, h2, -, -, -, h5⟩ := h
  have : s.cur.fixedViolation a write dag1 = none := by
    rcases h5 with h5 | h5 <;> simp [Core.fixedViolation, h5]
  simp [State.checkData, Core.dataCheck, h1, h2, this]

theorem plain_watch (h : s.plain a n) (write dag1 : Bool) : s.dataWatch a write dag1 = s := by
  rw [State.dataWatch, if_neg (by rw [h.2.2.1]; decide)]

theorem plain_watched (h : s.plain a n) (write dag1 : Bool) : s.watched a n write dag1 = s := by
  rw [State.watched, plain_watch h, ite_self]

theorem plain_noPage (h : s.plain a n) : s.cur.badPage a = false ∧ s.cur.dataPage a = none := by
  simp [Core.badPage, Core.dataPage, h.2.1]

theorem plain_performLoad (h : s.plain a n) (dag1 : Bool) :
    s.performLoad a n dag1 = .ok (overlay s.cur.stores a.toNat n (s.mem.loadN a.toNat n)) s := by
  obtain ⟨e1, -⟩ := plain_noPage h
  rcases h.2.2.2.2.2 with h5 | h5 <;> simp [State.performLoad, e1, h5]

theorem plain_performStore (h : s.plain a n) (v : Nat) (dag1 : Bool) :
    s.performStore a n v dag1 = .ok () (s.pend a.toNat n v) := by
  obtain ⟨e1, -⟩ := plain_noPage h
  rcases h.2.2.2.2.2 with h5 | h5 <;> simp [State.performStore, e1, h5]

theorem plain_takeLoad (h : s.plain a n) (dag1 : Bool) :
    s.takeLoad a n dag1 = .ok (overlay s.cur.stores a.toNat n (s.mem.loadN a.toNat n)) s := by
  simp [State.takeLoad, h.2.2.2.2.1, plain_performLoad h]

/-- A plain load answers the bytes as the core sees them and changes nothing. -/
theorem load_plain (h : s.plain a n) :
    s.load a n = .ok (overlay s.cur.stores a.toNat n (s.mem.loadN a.toNat n)) s := by
  have hc : s.issue.clashes a.toNat n = false := by simp [Issue.clashes, h.2.2.2.1]
  simp [State.load, State.loadAt, plain_check h, plain_watched h, plain_takeLoad h, Res.bind, hc]

/-- A plain store joins the core's pending stores and changes nothing else. -/
theorem store_plain (h : s.plain a n) (v : Nat) : s.store a n v = .ok () (s.pend a.toNat n v) := by
  simp [State.store, State.storeAt, plain_check h, plain_watched h, plain_performStore h]

/-- An instruction that loads where nothing stands in the way completes. -/
theorem loading_plain (h : s.plain a n) (len : Nat) (f : Nat → State → State) :
    s.loading len a n f =
      .next ((f (overlay s.cur.stores a.toNat n (s.mem.loadN a.toNat n)) s).finish len) := by
  simp [State.loading, load_plain h, Res.run, done]

/-- An instruction that stores where nothing stands in the way completes. -/
theorem storing_plain (h : s.plain a n) (len : Nat) (v : Word) (f : State → State) :
    s.storing len a n v f = .next ((f (s.pend a.toNat n (v.toNat % 2 ^ (8 * n)))).finish len) := by
  simp [State.storing, store_plain h, Res.run, done]

/-! ## Accesses that the checks stop (20_memory.md R335) -/

/-- A load that the checks stop raises their exception. -/
theorem load_stopped (h : s.issue.slot = .single) {e : Exc}
    (k : s.cur.dataCheck a n false false (Config.freeWord s.free) = some e) :
    ∃ m, s.load a n = .exc e { s with free := m } := by
  refine ⟨if e.code = 0x24 then s.free + 1 else s.free, ?_⟩
  have d : s.dag1 = false := by rw [State.dag1, h]; rfl
  simp only [State.load, State.loadAt, d, State.checkData, k, Res.bind]
  split <;> rfl

/-- A store that the checks stop raises their exception. -/
theorem store_stopped (h : s.issue.slot = .single) {e : Exc}
    (k : s.cur.dataCheck a n true false (Config.freeWord s.free) = some e) (v : Nat) :
    ∃ m, s.store a n v = .exc e { s with free := m } := by
  refine ⟨if e.code = 0x24 then s.free + 1 else s.free, ?_⟩
  have d : s.dag1 = false := by rw [State.dag1, h]; rfl
  simp only [State.store, State.storeAt, d, State.checkData, k]
  split <;> rfl

/-- An instruction that loads where the checks stop it raises their exception. -/
theorem loading_stopped (h : s.issue.slot = .single) {e : Exc}
    (k : s.cur.dataCheck a n false false (Config.freeWord s.free) = some e) (len : Nat) (f : Nat → State → State) :
    ∃ m, s.loading len a n f = raise e { s with free := m } := by
  obtain ⟨m, hm⟩ := load_stopped h k
  exact ⟨m, by simp [State.loading, hm, Res.run]⟩

/-- An instruction that stores where the checks stop it raises their exception. -/
theorem storing_stopped (h : s.issue.slot = .single) {e : Exc}
    (k : s.cur.dataCheck a n true false (Config.freeWord s.free) = some e) (len : Nat) (v : Word) (f : State → State) :
    ∃ m, s.storing len a n v f = raise e { s with free := m } := by
  obtain ⟨m, hm⟩ := store_stopped h k (v.toNat % 2 ^ (8 * n))
  exact ⟨m, by simp [State.storing, hm, Res.run]⟩

/-- Words pushed where the checks stop the first one. -/
theorem pushWords_stopped (h : s.issue.slot = .single) {e : Exc}
    (k : s.cur.dataCheck (a - 4) 4 true false (Config.freeWord s.free) = some e) (v : Word) (vs : List Word) :
    ∃ m, s.pushWords a (v :: vs) = .exc e { s with free := m } := by
  obtain ⟨m, hm⟩ := store_stopped h k v.toNat
  exact ⟨m, by rw [State.pushWords, hm]; rfl⟩

/-- Words popped where the checks stop the first one. -/
theorem popWords_stopped (h : s.issue.slot = .single) {e : Exc}
    (k : s.cur.dataCheck a 4 false false (Config.freeWord s.free) = some e) (j : Nat) :
    ∃ m, s.popWords a (j + 1) = .exc e { s with free := m } := by
  obtain ⟨m, hm⟩ := load_stopped h k
  exact ⟨m, by rw [State.popWords, hm]; rfl⟩

/-- What the bus has done is kept of a step that has done nothing. -/
theorem keepBus_free (s : State) (m : Nat) : s.keepBus { s with free := m } = { s with free := m } := by
  have hf : (s.cur.dfill.map fun f => f.unmerged s.cur.dfill) = s.cur.dfill := by
    cases h : s.cur.dfill <;> simp [Fill.unmerged]
  simp only [State.keepBus, Nat.sub_self, List.take_zero, State.replay, List.foldl_nil, hf, BitVec.or_self]

/-- Of several accesses the first is stopped: there is nothing to take back. -/
theorem allOrNone_stopped {α : Type} (e : Exc) (m : Nat) :
    (Res.exc e { s with free := m } : Res α).allOrNone s = .exc e { s with free := m } := by
  simp only [Res.allOrNone, keepBus_free]

/-- An instruction whose data access, of several the first, the checks stop raises their exception. -/
theorem access_stopped (h : s.issue.slot = .single) {i : Instr} {x : Word} {w : Bool} (ha : s.access i = some (x, n, w))
    {e : Exc} (k : s.cur.dataCheck x n w false (Config.freeWord s.free) = some e) :
    ∃ m, exec i s = raise e { s with free := m } := by
  cases i <;> delta State.access at ha <;>
    simp only [Option.ite_none_left_eq_some, Option.some.injEq, Prod.mk.injEq, reduceCtorEq] at ha <;>
    first
      | (obtain ⟨rfl, rfl, rfl⟩ := ha; first | exact loading_stopped h k _ _ | exact storing_stopped h k _ _ _)
      | (obtain ⟨hn, rfl, rfl, rfl⟩ := ha; show ∃ m, ite _ _ _ = _; rw [if_neg hn]
         first | exact loading_stopped h k _ _ | exact storing_stopped h k _ _ _)
      | (obtain ⟨hn, rfl, rfl⟩ := ha; subst hn)
      | obtain ⟨hn, rfl, rfl, rfl⟩ := ha
  case loadBZLong d p o => exact loading_stopped h (by simpa [State.eaLong] using k) _ _
  case loadBXLong d p o => exact loading_stopped h (by simpa [State.eaLong] using k) _ _
  case storeBLong p o r => exact storing_stopped h (by simpa [State.eaLong] using k) _ _ _
  case pushReg r =>
    simp only [Bool.or_eq_true, decide_eq_true_eq, not_or] at hn
    show ∃ m, ite _ _ (ite _ _ _) = _
    rw [if_neg hn.1, if_neg hn.2]
    exact storing_stopped h k _ _ _
  case popReg r =>
    simp only [Bool.or_eq_true, decide_eq_true_eq, not_or] at hn
    show ∃ m, ite _ _ (ite _ _ (ite _ _ _)) = _
    rw [if_neg hn.1.1, if_neg hn.1.2, if_neg hn.2]
    exact loading_stopped h k _ _
  case pushMulti rs =>
    obtain ⟨r, q, hq⟩ := List.exists_cons_of_ne_nil hn
    obtain ⟨m, hm⟩ := pushWords_stopped h k (s.dp r) (q.map s.dp)
    refine ⟨m, ?_⟩
    rw [show exec (.pushMulti rs) s = execPushMulti rs s from rfl, execPushMulti, hq, List.map_cons, hm]
    rfl
  case popMulti rs =>
    obtain ⟨j, hj⟩ := Nat.exists_eq_succ_of_ne_zero (mt List.length_eq_zero_iff.1 (mt List.reverse_eq_nil_iff.1 hn))
    obtain ⟨m, hm⟩ := popWords_stopped h k j
    refine ⟨m, ?_⟩
    rw [show exec (.popMulti rs) s = execPopMulti rs s from rfl, execPopMulti]
    simp only [hj, Nat.succ_eq_add_one, hm, allOrNone_stopped]
    rfl
  case link n =>
    obtain ⟨m, hm⟩ := pushWords_stopped h k s.cur.rets [s.p .fp]
    exact ⟨m, by rw [show exec (.link n) s = execLink n s from rfl, execLink, if_neg hn, hm, allOrNone_stopped]; rfl⟩
  case unlink =>
    obtain ⟨m, hm⟩ := popWords_stopped h k 1
    exact ⟨m, by rw [show exec .unlink s = execUnlink s from rfl, execUnlink, hm, allOrNone_stopped]; rfl⟩

/-! ## Bytes -/

theorem toNat_append {m k : Nat} (x : BitVec m) (y : BitVec k) : (x ++ y).toNat = x.toNat * 2 ^ k + y.toNat := by
  rw [BitVec.toNat_append, ← Nat.shiftLeft_add_eq_or_of_lt y.isLt, Nat.shiftLeft_eq]

/-- The bytes of memory with the core's pending stores over them, one by one. -/
theorem overlay_succ (s : State) (x n : Nat) :
    overlay s.cur.stores x (n + 1) (s.mem.loadN x (n + 1)) =
      (s.byte x).toNat + 256 * overlay s.cur.stores (x + 1) n (s.mem.loadN (x + 1) n) := by
  have h0 := (s.mem.load x).isLt
  have e1 : BitVec.ofNat 8 (s.mem.loadN x (n + 1)) = s.mem.load x := by
    apply BitVec.eq_of_toNat_eq
    simp only [Mem.loadN, BitVec.toNat_ofNat]
    omega
  have e2 : s.mem.loadN x (n + 1) / 256 = s.mem.loadN (x + 1) n := by
    simp only [Mem.loadN]
    omega
  rw [overlay, e1, e2]
  rfl

/-- A load of a word as its four bytes. -/
theorem loadZ_word (s : State) (x : Nat) : loadZ (overlay s.cur.stores x 4 (s.mem.loadN x 4)) = s.word x := by
  apply BitVec.eq_of_toNat_eq
  have h0 := (s.byte x).isLt
  have h1 := (s.byte (x + 1)).isLt
  have h2 := (s.byte (x + 2)).isLt
  have h3 := (s.byte (x + 3)).isLt
  have e : (s.word x).toNat = ((((s.byte (x + 3)).toNat * 2 ^ 8 + (s.byte (x + 2)).toNat) * 2 ^ 8
      + (s.byte (x + 1)).toNat) * 2 ^ 8 + (s.byte x).toNat) :=
    (toNat_append (m := 24) (k := 8) _ _).trans
      (by rw [toNat_append (m := 16) (k := 8), toNat_append (m := 8) (k := 8)])
  rw [e, loadZ, BitVec.toNat_ofNat, overlay_succ s x 3, overlay_succ s (x + 1) 2, overlay_succ s (x + 1 + 1) 1,
    overlay_succ s (x + 1 + 1 + 1) 0, overlay]
  simp only [Nat.add_assoc, Nat.reduceAdd]
  omega

/-- A load of a half word as its two bytes. -/
theorem loadN_half (s : State) (x : Nat) :
    BitVec.ofNat 16 (overlay s.cur.stores x 2 (s.mem.loadN x 2)) = s.half x := by
  apply BitVec.eq_of_toNat_eq
  have h0 := (s.byte x).isLt
  have h1 := (s.byte (x + 1)).isLt
  rw [State.half, toNat_append, BitVec.toNat_ofNat, overlay_succ s x 1, overlay_succ s (x + 1) 0, overlay]
  omega

/-- A load of a byte. -/
theorem loadN_byte (s : State) (x : Nat) : BitVec.ofNat 8 (overlay s.cur.stores x 1 (s.mem.loadN x 1)) = s.byte x := by
  apply BitVec.eq_of_toNat_eq
  have h0 := (s.byte x).isLt
  rw [BitVec.toNat_ofNat, overlay_succ s x 0, overlay]
  omega

/-- The addresses of a plain access exist. -/
theorem plain_bound (h : s.plain a n) (hn : n = 1 ∨ n = 2 ∨ n = 4) : a.toNat + n ≤ 2 ^ 32 := by
  have h1 := h.1
  have h2 := a.isLt
  rcases hn with rfl | rfl | rfl <;> omega

/-- The core sees the bytes of a store of a word that it has made, the least significant one lowest. -/
theorem pend_holds (s : State) (x n : Nat) (v : Word) (hn : n ≤ 4) :
    (s.pend x n (v.toNat % 2 ^ (8 * n))).holds x n v := by
  intro k hk
  have e : x ≤ x + k ∧ x + k < x + n := by omega
  simp only [State.seen, State.pend, State.setCur, pendByte_append, e, and_self, if_true, Option.some_or,
    Option.some.injEq, Nat.add_sub_cancel_left]
  apply BitVec.eq_of_toNat_eq
  simp only [BitVec.toNat_ofNat, BitVec.extractLsb'_toNat, Nat.shiftRight_eq_div_pow]
  have hv := v.isLt
  have : k = 0 ∨ k = 1 ∨ k = 2 ∨ k = 3 := by omega
  have : n = 1 ∨ n = 2 ∨ n = 3 ∨ n = 4 := by omega
  rcases ‹k = 0 ∨ _› with rfl | rfl | rfl | rfl <;> rcases ‹n = 1 ∨ _› with rfl | rfl | rfl | rfl <;> omega

end Sys2Proof.Laws
end

