-- ==== Sys2Proof/Laws/Caches.lean ====
section
/-!
SUPPORT. What a cache array answers to a test access stays as it was first answered (21_cache_cplb.md R406, R417;
70_reset_and_hazards.md R1935), and the order in which pending stores are performed.
-/

namespace Sys2Proof.Laws

open Machine

/-- The LRU bit that has been stated of a set is the one that is read. -/
@[simp] theorem DMem.lruBit_setLru (d : DMem) (k : LineKey) (b : Bool) : (d.setLru k b).lruBit k = some b := by
  simp [DMem.lruBit, DMem.setLru]

/-- The LRU bit of a set stays as it was first answered (R1935, U2). -/
theorem lruOf_again (s : State) (k : LineKey) : (s.lruOf k).2.lruOf k = s.lruOf k := by
  have hk : (s.lruOf k).2.cur.dmem.lruBit k = some (s.lruOf k).1 := by
    unfold State.lruOf
    cases h : s.cur.dmem.lruBit k with
    | some b => exact h
    | none => exact DMem.lruBit_setLru _ _ _
  rw [State.lruOf, hk]

/-- A line that has been put under a key is listed there, and found. -/
@[simp] theorem listed_setLine (ls : List (LineKey × Line)) (k : LineKey) (l : Line) : listed (setLine ls k l) k = true := by
  simp [listed, setLine]

@[simp] theorem lineAt_setLine (ls : List (LineKey × Line)) (k : LineKey) (l : Line) : lineAt (setLine ls k l) k = l := by
  simp [lineAt, setLine]

/-- A test access finds the instruction line as the one before it did. -/
theorem instTest_again (s : State) (k : LineKey) : (s.instTest k).2.instTest k = s.instTest k := by
  have hk : listed (s.instTest k).2.cur.imem.lines k = true ∧
      lineAt (s.instTest k).2.cur.imem.lines k = (s.instTest k).1 := by
    unfold State.instTest
    by_cases h : listed s.cur.imem.lines k = true
    · simp only [h, if_true, and_self]
    · rw [if_neg h]; exact ⟨listed_setLine _ _ _, lineAt_setLine _ _ _⟩
  rw [State.instTest, if_pos hk.1, hk.2]

/-- A test access finds the data line as the one before it did. -/
theorem dataTest_again (s : State) (k : LineKey) : (s.dataTest k).2.dataTest k = s.dataTest k := by
  have hk : listed (s.dataTest k).2.cur.dmem.lines k = true ∧
      lineAt (s.dataTest k).2.cur.dmem.lines k = (s.dataTest k).1 := by
    unfold State.dataTest
    by_cases h : listed s.cur.dmem.lines k = true
    · simp only [h, if_true, and_self]
    · rw [if_neg h]; exact ⟨listed_setLine _ _ _, lineAt_setLine _ _ _⟩
  rw [State.dataTest, if_pos hk.1, hk.2]

/-- A pending store that may be performed has no older one that comes before it (G4 of R340, R150). -/
theorem drainable_before {ps : List PendStore} {j k : Nat} {q r : PendStore} (hk : k ∈ drainable ps) (hj : j < k)
    (hq : ps[j]? = some q) (hr : ps[k]? = some r) : q.before r = false := by
  simp only [drainable, List.mem_filter, hr, List.all_eq_true, Bool.not_eq_true'] at hk
  exact hk.2 q (List.mem_of_getElem? (by rw [List.getElem?_take, if_pos hj, hq]))

end Sys2Proof.Laws
end

