-- ==== Sys2Proof/Laws/Ops.lean ====
section
/-!
SUPPORT. What the operations that every instruction shares can do: counting an event, the move past an instruction, a
transfer, raising and taking an exception.
-/

namespace Sys2Proof.Laws

open Machine

variable {s : State}

/-! ## The performance monitor and the trace buffer -/

/-- A monitor that is off counts nothing. -/
theorem count_off (h : s.perfOff) (e : Byte) : s.count e = s := by
  have k : ∀ n, s.cur.perfOn n = false := fun n => by
    unfold Core.perfOn; rw [show s.cur.perf.ctl.getLsbD 0 = false from h]; rfl
  simp [State.count, k]

/-- What counting may change: the counts of the monitor, the cause of a hardware error, bit 5 of ILAT, and the step's own
marks. -/
structure Counted (s t : State) : Prop where
  counts : { t.cur.perf with cntr0 := s.cur.perf.cntr0, cntr1 := s.cur.perf.cntr1 } = s.cur.perf
  ilat : ∀ k, k ≠ 5 → t.cur.ev.ilat.getLsbD k = s.cur.ev.ilat.getLsbD k
  cur : { t.cur with perf := s.cur.perf, seqstat := { t.cur.seqstat with hwerrcause := s.cur.seqstat.hwerrcause },
                     ev := { t.cur.ev with ilat := s.cur.ev.ilat } } = s.cur
  oth : t.oth = s.oth
  sys : t.sys = s.sys
  mem : t.mem = s.mem
  free : t.free = s.free
  inputs : t.inputs = s.inputs
  outside : t.board = s.board ∧ t.out = s.out
  issue : { t.issue with emu := s.issue.emu } = s.issue

theorem Counted.refl (s : State) : Counted s s := ⟨rfl, fun _ _ => rfl, rfl, rfl, rfl, rfl, rfl, rfl, ⟨rfl, rfl⟩, rfl⟩

theorem Counted.trans {t u : State} (h : Counted s t) (k : Counted t u) : Counted s u := by
  have e1 := h.cur
  have e2 := k.cur
  have f1 := h.issue
  have f2 := k.issue
  constructor
  · rw [← h.counts, ← k.counts]
  · exact fun n hn => (k.ilat n hn).trans (h.ilat n hn)
  · rw [← e1, ← e2]
  · rw [k.oth, h.oth]
  · rw [k.sys, h.sys]
  · rw [k.mem, h.mem]
  · rw [k.free, h.free]
  · rw [k.inputs, h.inputs]
  · exact ⟨k.outside.1.trans h.outside.1, k.outside.2.trans h.outside.2⟩
  · rw [← f1, ← f2]

theorem Counted.perf (s : State) (a b : Word) :
    Counted s (s.setCur { s.cur with perf := { s.cur.perf with cntr0 := a, cntr1 := b } }) :=
  ⟨rfl, fun _ _ => rfl, rfl, rfl, rfl, rfl, rfl, rfl, ⟨rfl, rfl⟩, rfl⟩

theorem Counted.emu (s : State) (b : Bool) : Counted s { s with issue := { s.issue with emu := b } } :=
  ⟨rfl, fun _ _ => rfl, rfl, rfl, rfl, rfl, rfl, rfl, ⟨rfl, rfl⟩, rfl⟩

/-- Bit 5 alone is set. -/
theorem ilat_hwError (x : HWord) (k : Nat) (h : k ≠ 5) : (x ||| 0x20).getLsbD k = x.getLsbD k := by
  have e : (0x20 : HWord) = BitVec.twoPow 16 5 := rfl
  rw [BitVec.getLsbD_or, e, BitVec.getLsbD_twoPow]
  simp [show ¬ 5 = k from fun a => h a.symm]

theorem Counted.hwError (s : State) (c : BitVec 5) : Counted s (s.hwError c) :=
  ⟨rfl, fun k h => ilat_hwError s.cur.ev.ilat k h, rfl, rfl, rfl, rfl, rfl, rfl, ⟨rfl, rfl⟩, rfl⟩

theorem perfAdd_counted (s : State) (n : Bool) (k : Nat) : Counted s (s.perfAdd n k) := by
  have key : ∀ (p : PerfUnit) (x y : Word) (a b : Bool), p = { s.cur.perf with cntr0 := x, cntr1 := y } →
      Counted s (if a then (if b then { s.setCur { s.cur with perf := p } with
          issue := { (s.setCur { s.cur with perf := p }).issue with emu := true } }
        else (s.setCur { s.cur with perf := p }).hwError 0x12) else s.setCur { s.cur with perf := p }) := by
    intro p x y a b h
    subst h
    cases a <;> cases b <;>
      first
        | exact Counted.perf s x y
        | exact (Counted.perf s x y).trans (Counted.emu _ _)
        | exact (Counted.perf s x y).trans (Counted.hwError _ _)
  have e := fun p x y h (q : Prop) [Decidable q] b => key p x y (decide q) b h
  simp only [decide_eq_true_eq] at e
  cases n
  · exact e _ _ s.cur.perf.cntr1 rfl _ _
  · exact e _ s.cur.perf.cntr0 _ rfl _ _

theorem count_counted (s : State) (e : Byte) : Counted s (s.count e) := by
  have key : ∀ (t : State) (n b : Bool), Counted t (if b then t.perfAdd n 1 else t) := by
    intro t n b
    cases b
    · exact Counted.refl t
    · exact perfAdd_counted t n 1
  exact (key s false _).trans (key _ true _)

/-- A trace buffer that is off records nothing. -/
theorem recordFlow_off (h : s.traceOff) (ip : HWord) (a b : Word) : s.recordFlow ip a b = s := by
  simp [State.recordFlow, show s.cur.trace.en = false from h]

theorem countBranch_off (h : s.traceOff) : s.countBranch = s := by
  simp [State.countBranch, show s.cur.trace.en = false from h]

/-! ## The end of an instruction -/

/-- A part of a bundle does not move the core on. -/
theorem finish_bundle (h : s.issue.slot ≠ .single) (len : Nat) : s.finish len = s := if_neg h

/-- Where no loop ends, the next address follows. -/
theorem finish_linear (h : s.issue.slot = .single) (k : s.noLoopEnd) (len : Nat) :
    s.finish len = s.setPc (s.cur.pc + BitVec.ofNat 32 len) := by
  obtain ⟨k0, k1⟩ := k
  replace k0 : s.cur.pc = s.cur.loop0.lb → s.cur.loop0.lc = 0 := fun a => Decidable.byContradiction fun b => k0 ⟨a, b⟩
  replace k1 : s.cur.pc = s.cur.loop1.lb → s.cur.loop1.lc = 0 := fun a => Decidable.byContradiction fun b => k1 ⟨a, b⟩
  have c1 : ¬ (s.cur.pc = s.cur.loop1.lb ∧ 2 ≤ s.cur.loop1.lc.toNat) := fun ⟨a, b⟩ => by rw [k1 a] at b; revert b; decide
  have c2 : ¬ (s.cur.pc = s.cur.loop1.lb ∧ s.cur.loop1.lc = 1) := fun ⟨a, b⟩ => by rw [k1 a] at b; revert b; decide
  have c3 : ¬ (s.cur.pc = s.cur.loop0.lb ∧ 2 ≤ s.cur.loop0.lc.toNat) := fun ⟨a, b⟩ => by rw [k0 a] at b; revert b; decide
  have c4 : ¬ (s.cur.pc = s.cur.loop0.lb ∧ s.cur.loop0.lc = 1) := fun ⟨a, b⟩ => by rw [k0 a] at b; revert b; decide
  simp only [State.finish, h, if_true, State.loopStep, if_neg c1, if_neg c2, if_neg c3, if_neg c4]

/-- A taken transfer to an even address, with the trace buffer off. -/
theorem transfer_even (h : s.traceOff) {t : Word} (ht : t.getLsbD 0 = false) : transfer t s = .next (s.setPc t) := by
  simp only [transfer, State.flow, countBranch_off h, recordFlow_off h, goTo, ht]; rfl

/-! ## Exceptions -/

theorem supervisor_user (h : s.user = true) (k : Outcome) : supervisor s k = raise .illegalSupervisorUse s := by
  simp [supervisor, h]

theorem supervisor_ok (h : s.user = false) (k : Outcome) : supervisor s k = k := by simp [supervisor, h]

theorem legal_ok (k : Outcome) : legal true s k = k := rfl

theorem legal_not (k : Outcome) : legal false s k = raise .illegalCombination s := rfl

/-- The state with other trace entries and another mark that the buffer is full. -/
def withTrace (s : State) (es : List TraceEntry) (full : Bool) : State :=
  { s.setCur { s.cur with trace := { s.cur.trace with entries := es } } with issue := { s.issue with full := full } }

/-- Recording a change of flow touches the trace buffer only. -/
theorem recordFlow_only (s : State) (ip : HWord) (a b : Word) :
    ∃ es full, s.recordFlow ip a b = withTrace s es full := by
  have key : ∀ (r : List TraceEntry × Bool) (p q : Bool), ∃ es full,
      (if p then
        (if q then { s.setCur { s.cur with trace := { s.cur.trace with entries := r.1 } } with
            issue := { (s.setCur { s.cur with trace := { s.cur.trace with entries := r.1 } }).issue with full := true } }
          else s.setCur { s.cur with trace := { s.cur.trace with entries := r.1 } }) else s) = withTrace s es full := by
    intro r p q
    cases p
    · exact ⟨s.cur.trace.entries, s.issue.full, rfl⟩
    · cases q
      · exact ⟨r.1, s.issue.full, rfl⟩
      · exact ⟨r.1, true, rfl⟩
  exact key _ _ _

/-- An exception that is raised where one may be taken, alone in its issue: event 3 is entered with RETX at the
instruction (R1720, R1740). -/
theorem raise_takes (h : s.issue.slot = .single) (e : Exc) : raise e s = .next (s.takeException e s.cur.pc) := by
  simp [raise, h]

/-- Entering event 3: what holds after it, in terms of the state before. -/
theorem enterEvent3 (s : State) (src ret : Word) : ∃ es full,
    s.enterEvent 3 src ret =
      { (withTrace s es full).setCur ((withTrace s es full).cur.enterEvent 3 ret).refetch with
        issue := { (withTrace s es full).issue with event := true } } := by
  obtain ⟨es, full, e⟩ := recordFlow_only s (s.cur.ev.ipend ||| bitOf 3) src (s.cur.vector 3)
  refine ⟨es, full, ?_⟩
  simp only [State.enterEvent, e]
  rfl

/-- Entering event 3 in terms of the core before: nothing changes but what `Core.withEntry` names. -/
theorem core_enterEvent3 (c : Core) (es : List TraceEntry) (ret : Word) :
    let d := (({ c with trace := { c.trace with entries := es } } : Core).enterEvent 3 ret).refetch
    d.retx = ret ∧ d.seqstat = c.seqstat ∧ d.pc = c.ev.evt.toList.getD 3 0 ∧ d.idle = false ∧
      d.ev = { c.ev with ilat := c.ev.ilat &&& ~~~ (bitOf 3), raised := c.ev.raised &&& ~~~ (bitOf 3),
                         ipend := c.ev.ipend ||| 0x8 } ∧ d.perf = c.perf ∧ d.withEntry c = c ∧ d.dmem = c.dmem ∧ d.imem = c.imem :=
  ⟨rfl, rfl, rfl, rfl, by simp [Core.refetch, Core.enterEvent, Core.setReturn, bitOf], rfl, rfl, rfl, rfl⟩

/-- The same of a state that enters event 3. -/
theorem enterEvent3_keeps (s : State) (src ret : Word) : let t := s.enterEvent 3 src ret
    t.cur.retx = ret ∧ t.cur.seqstat = s.cur.seqstat ∧ t.cur.pc = s.cur.ev.evt.toList.getD 3 0 ∧ t.cur.idle = false ∧
      t.cur.ev = { s.cur.ev with ilat := s.cur.ev.ilat &&& ~~~ (bitOf 3), raised := s.cur.ev.raised &&& ~~~ (bitOf 3),
                                 ipend := s.cur.ev.ipend ||| 0x8 } ∧
      t.cur.perf = s.cur.perf ∧ t.cur.withEntry s.cur = s.cur ∧ t.oth = s.oth ∧ t.sys = s.sys ∧ t.mem = s.mem ∧
      t.board = s.board ∧ t.inputs = s.inputs ∧ t.out = s.out ∧ t.cur.dmem = s.cur.dmem ∧ t.cur.imem = s.cur.imem := by
  obtain ⟨es, full, k⟩ := enterEvent3 s src ret
  rw [k]
  have h := core_enterEvent3 s.cur es ret
  refine ⟨h.1, h.2.1, h.2.2.1, h.2.2.2.1, h.2.2.2.2.1, h.2.2.2.2.2.1, h.2.2.2.2.2.2.1, ?_, ?_, ?_, ?_, ?_, ?_,
    h.2.2.2.2.2.2.2.1, h.2.2.2.2.2.2.2.2⟩ <;> rfl

/-- ILAT with bit 3 cleared. -/
theorem ilat_entry (x : HWord) (k : Nat) (hk : k < 16) (h : k ≠ 3) : (x &&& ~~~ (bitOf 3)).getLsbD k = x.getLsbD k := by
  have : k = 0 ∨ k = 1 ∨ k = 2 ∨ k = 4 ∨ k = 5 ∨ k = 6 ∨ k = 7 ∨ k = 8 ∨ k = 9 ∨ k = 10 ∨ k = 11 ∨ k = 12 ∨ k = 13 ∨
    k = 14 ∨ k = 15 := by omega
  rcases this with rfl | rfl | rfl | rfl | rfl | rfl | rfl | rfl | rfl | rfl | rfl | rfl | rfl | rfl | rfl <;>
    simp [bitOf]

/-- Taking the exception `e` where one may be taken, all it does: `Entered`, with the report of `e`. `t` is the state in
which it is found, which differs from `s` in the number of the next free value alone. -/
theorem takeException_entered (h : s.cur.inException = false) (e : Exc) (n : Nat) :
    let t := ({ s with free := n } : State).takeException e s.cur.pc
    Entered (.next t) s e.code ∧ t.cur.dmem = (s.cur.report e.report).dmem ∧ t.cur.imem = (s.cur.report e.report).imem := by
  let v : State := { s with free := n }
  obtain ⟨u, hu, hp, hd⟩ : ∃ u, Counted v u ∧ (s.perfOff → u = v) ∧
      v.takeException e s.cur.pc = (u.setCur { u.cur.report e.report with
        seqstat := { (u.cur.report e.report).seqstat with excause := e.code } }).enterEvent 3
          (u.cur.report e.report).pc s.cur.pc := by
    refine ⟨if e.code = 0x24 ∨ e.code = 0x2A then v.count 0x0F else v, ?_, ?_, ?_⟩
    · split
      · exact count_counted v 0x0F
      · exact Counted.refl v
    · intro k
      split
      · exact count_off (s := v) k 0x0F
      · rfl
    · unfold State.takeException
      rw [if_neg (by rw [show v.cur.inException = false from h]; decide)]
      rfl
  have hr : ∀ (c : Core) (r : Report), (c.report r).pc = c.pc ∧ (c.report r).ev = c.ev ∧ (c.report r).perf = c.perf ∧
      (c.report r).seqstat = c.seqstat ∧ ∀ q g, ({ c.report r with seqstat := q } : Core).withEntry g = c.withEntry g := by
    intro c r
    cases r <;> exact ⟨rfl, rfl, rfl, rfl, fun _ _ => rfl⟩
  obtain ⟨r1, r2, r3, r4, r5⟩ := hr u.cur e.report
  obtain ⟨h1, h2, h3, -, h5, h6, h7, h8, h9, h10, h11, h12, h13, h14, h15⟩ := enterEvent3_keeps (u.setCur { u.cur.report e.report with
    seqstat := { (u.cur.report e.report).seqstat with excause := e.code } }) (u.cur.report e.report).pc s.cur.pc
  have es : ({ u.cur.seqstat with hwerrcause := s.cur.seqstat.hwerrcause } : Seqstat) = s.cur.seqstat :=
    congrArg Core.seqstat hu.cur
  have ee : ({ u.cur.ev with ilat := s.cur.ev.ilat } : EventCtl) = s.cur.ev := congrArg Core.ev hu.cur
  have ew : u.cur.withEntry s.cur = s.cur := by
    have a : u.cur.withEntry s.cur = { (({ u.cur with
        perf := s.cur.perf, seqstat := { u.cur.seqstat with hwerrcause := s.cur.seqstat.hwerrcause }
        ev := { u.cur.ev with ilat := s.cur.ev.ilat } } : Core).withEntry s.cur) with
          perf := { u.cur.perf with cntr0 := s.cur.perf.cntr0, cntr1 := s.cur.perf.cntr1 } } := rfl
    have b : ({ u.cur.perf with cntr0 := s.cur.perf.cntr0, cntr1 := s.cur.perf.cntr1 } : PerfUnit) = s.cur.perf := hu.counts
    rw [a, b, show ({ u.cur with
        perf := s.cur.perf, seqstat := { u.cur.seqstat with hwerrcause := s.cur.seqstat.hwerrcause }
        ev := { u.cur.ev with ilat := s.cur.ev.ilat } } : Core) = s.cur from hu.cur]
    rfl
  have evt : u.cur.ev.evt = s.cur.ev.evt := by have := congrArg EventCtl.evt ee; exact this
  have ip : u.cur.ev.ipend = s.cur.ev.ipend := by have := congrArg EventCtl.ipend ee; exact this
  have wev : (u.setCur { u.cur.report e.report with
    seqstat := { (u.cur.report e.report).seqstat with excause := e.code } }).cur.ev = u.cur.ev := r2
  have wsq : (u.setCur { u.cur.report e.report with
    seqstat := { (u.cur.report e.report).seqstat with excause := e.code } }).cur.seqstat =
      { u.cur.seqstat with excause := e.code } := by
    show ({ (u.cur.report e.report).seqstat with excause := e.code } : Seqstat) = _
    rw [r4]
  rw [wev] at h3 h5
  rw [wsq] at h2
  have hdm : ∀ (c d : Core) (r : Report), c.dmem = d.dmem → c.imem = d.imem →
      (c.report r).dmem = (d.report r).dmem ∧ (c.report r).imem = (d.report r).imem := by
    intro c d r x y
    cases r <;> simp [Core.report, x, y]
  have cd : u.cur.dmem = s.cur.dmem := by have := congrArg Core.dmem hu.cur; exact this
  have ci : u.cur.imem = s.cur.imem := by have := congrArg Core.imem hu.cur; exact this
  intro t
  rw [show t = _ from hd]
  refine ⟨⟨_, rfl, h1, h3.trans (by rw [evt]), ?_, ?_, fun k hk k3 k5 => ?_, fun k => ?_, ?_, h8.trans hu.oth,
    h9.trans hu.sys, h10.trans hu.mem, h11.trans hu.outside.1, h12.trans hu.inputs, h13.trans hu.outside.2⟩,
    h14.trans (hdm _ _ _ cd ci).1, h15.trans (hdm _ _ _ cd ci).2⟩
  · rw [h2, ← es]
  · rw [h5, ← ee]
  · rw [h5]
    refine (ilat_entry _ k hk k3).trans ?_
    rcases k5 with k5 | k5
    · exact hu.ilat k k5
    · rw [hp k5]
  · rw [h6, h2]
    refine ⟨r3.trans (by rw [hp k]), ?_⟩
    rw [hp k]
  · have a := congrArg (fun c : Core => c.withEntry s.cur) h7
    exact a.trans ((r5 _ _).trans ew)

/-- Raising an exception is its entry, with its report. -/
theorem raise_reported (h : s.canTrap) (e : Exc) (n : Nat) {o : Outcome} (k : o = raise e { s with free := n }) :
    Entered o s e.code ∧ ∀ t, o = .next t → t.cur.dmem = (s.cur.report e.report).dmem ∧
      t.cur.imem = (s.cur.report e.report).imem := by
  have a := takeException_entered h.2 e n
  rw [k, raise_takes (s := { s with free := n }) h.1]
  exact ⟨a.1, fun t ht => by cases ht; exact a.2⟩

/-- The same of an exception without a report. -/
theorem raise_entered (h : s.canTrap) {o : Outcome} {code : BitVec 6} {prio : Nat} (e : o = raise (.plain code prio) s) :
    Entered o s code := (raise_reported h (.plain code prio) s.free e).1

/-- The same of an instruction. -/
theorem raise_traps (h : s.canTrap) {i : Instr} {code : BitVec 6} {prio : Nat} (e : exec i s = raise (.plain code prio) s) :
    Traps i s code := raise_entered h e

end Sys2Proof.Laws
end

