-- ==== Sys2Proof/Tests/Slice0.lean ====
section
/-!
SUPPORT. Tests. The words of `test_words_*` are written out bit by bit from the encoding tables of 30_encoding.md; the
expected results of the other tests are those of 95_test_vectors.md (the vector's name stands in the docstring). The
`witness_*` theorems show, for each statement with hypotheses, a concrete state and operands that meet them together.
-/

namespace Sys2Proof.Tests

open Sys2Proof.Machine

noncomputable section

set_option Elab.async false

/-! ## Helpers -/

/-- The state after reset with the pc in this core's L1 instruction SRAM and the registers of the list set. -/
def regs (l : List (AllReg × Word)) : State := l.foldl (fun s x => s.writeReg x.1 x.2) (State.reset.setPc 0xFFA00100)

/-- The same in User mode. -/
def userRegs (l : List (AllReg × Word)) : State :=
  l.foldl (fun s x => s.writeReg x.1 x.2) ((State.reset.setPc 0xFFA00100).withIpend 0)

/-- The state with accumulators set. -/
def accs (a0 a1 : Acc) (s : State) : State := (s.setAcc .a0 a0).setAcc .a1 a1

/-- The state with bytes placed in memory. -/
def bytes (a : Nat) (l : List Byte) (s : State) : State := { s with mem := s.mem.placeBytes a l }

/-- The state with bytes placed in memory as stores leave them. -/
def stores (a n v : Nat) (s : State) : State := { s with mem := s.mem.storeN a n v }

/-- The bytes of 95_test_vectors.md T-45-1. -/
def data : List Byte := [0x11, 0x22, 0x33, 0x84, 0x55, 0x66, 0x77, 0x88]

/-- The instruction answers a next state of which `p` holds. -/
def gives (i : Instr) (s : State) (p : State → Bool) : Bool :=
  match exec i s with
  | .next t => p t
  | _ => false

/-- The words decode to the instructions. -/
def decodesTo (l : List (Nat × Nat × Instr)) : Bool := l.all fun x => decide (decodeTableWord x.1 x.2.1 = some x.2.2)

/-! ## Well-formedness: each check refuses an ill-formed term -/

theorem test_wf_refuses : [
    .addPreg .p1 .p3 .p3, .addPreg .p1 .p1 .p3, .addPregTo .p1 .p1,
    .macDual .fr false false ⟨.none, false, ⟨.lo, .lo⟩⟩ ⟨.add, false, ⟨.lo, .lo⟩⟩ .r0 .r1 .r2,
    .macDual .fr false false ⟨.add, false, ⟨.lo, .lo⟩⟩ ⟨.none, false, ⟨.lo, .lo⟩⟩ .r0 .r1 .r2,
    .macDual .fr false false ⟨.none, true, ⟨.lo, .lo⟩⟩ ⟨.none, true, ⟨.lo, .lo⟩⟩ .r0 .r1 .r2,
    .macDual .fr false false ⟨.none, false, ⟨.lo, .lo⟩⟩ ⟨.none, false, ⟨.lo, .lo⟩⟩ .r0 .r0 .r0,
    .lsrImm .r1 .r2 3, .lslImm .r1 .r2 0x3D, .lsrImmVec .r1 .r2 3, .lslImmVec .r1 .r2 0x3D,
    .lsrImmHalf .lo .r1 .lo .r2 3, .lslImmHalf .lo .r1 .lo .r2 0x3D, .asrAccImm .a0 3, .lslAccImm .a0 0x3D,
    .pushMulti ⟨none, some .fp⟩, .popMulti ⟨some .r5, some .sp⟩, .jumpAny 2,
    .asrImm .r1 .r2 0x20, .lsrImm .r1 .r2 0x20, .asrImmVec .r1 .r2 0x30, .lslImmVecSat .r1 .r2 0x10,
    .lsrImmHalf .lo .r1 .lo .r2 0x30, .lslImmHalf .lo .r1 .lo .r2 0x10, .asrAccImm .a0 0x20,
    .link 0, .link 1].all (fun i : Instr => !i.wf) = true := by
  decide +kernel

theorem test_wf_accepts : [
    .asrImm .r1 .r2 0x21, .lsrImmHalf .lo .r1 .lo .r2 0x31, .lslImmVec .r1 .r2 0x0F, .asrAccImm .a0 0x21,
    .addPreg .p1 .p2 .p3, .addPregTo .p1 .p2, .lsrImm .r1 .r2 0x3D, .lslImm .r1 .r2 3, .pushMulti ⟨none, some .p5⟩, .link 2,
    .macDual .fr false false ⟨.add, false, ⟨.lo, .lo⟩⟩ ⟨.add, false, ⟨.lo, .lo⟩⟩ .r0 .r1 .r2].all
    (fun i : Instr => i.wf) = true := by
  decide +kernel

/-! ## Decoding -/

theorem test_words_moves_1 : decodesTo [
    (16, 0b0011_0111_1110_1011, .moveReg (.l .n1) .reti),
    (32, 0b1100_0100_0000_1000_1110_0000_0000_0000, .moveAccAcc .a1),
    (32, 0b1100_0100_0000_1001_1010_0000_0010_1000, .moveAccDreg .a1 .r5),
    (32, 0b1100_0001_0000_1011_0011_1001_1000_0000, .moveDregEvenA0 .is .r6),
    (32, 0b1100_0000_1001_1111_0001_1001_1000_0000, .moveDregOddA1 .fu true .r6),
    (32, 0b1100_0000_1001_1111_0011_1001_1000_0000, .moveDregPairAcc .fu true .r6),
    (16, 0b0000_0111_1011_0011, .ifCcMove (.p .sp) (.d .r3)),
    (16, 0b0000_0110_1011_0011, .ifNccMove (.p .sp) (.d .r3)),
    (16, 0b0100_0010_1101_0101, .moveHalfZ .r5 .r2),
    (16, 0b0100_0010_1001_0101, .moveHalfX .r5 .r2),
    (32, 0b1100_0100_0000_1001_1100_0000_0010_1000, .moveAccXDregLo .a1 .r5),
    (32, 0b1100_0100_0000_1010_0100_1010_0000_0000, .moveDregLoAccX .r5 .a1),
    (32, 0b1100_0100_0000_1001_1000_0000_0010_1000, .moveAccLDregLo .a1 .r5),
    (32, 0b1100_0100_0010_1001_1000_0000_0010_1000, .moveAccHDregHi .a1 .r5),
    (32, 0b1100_0000_0100_0011_0011_1001_0100_0000, .moveDregLoA0 .t .r5),
    (32, 0b1100_0000_0011_0111_0001_1001_0100_0000, .moveDregHiA1 .s2rnd true .r5),
    (32, 0b1100_0000_0011_0111_0011_1001_0100_0000, .moveDregHalvesAcc .s2rnd true .r5),
    (16, 0b0100_0011_0101_0101, .moveByteZ .r5 .r2),
    (16, 0b0100_0011_0001_0101, .moveByteX .r5 .r2),
    (16, 0b0110_0010_0000_1011, .loadImm7D .r3 0x41),
    (16, 0b0110_1001_1111_0111, .loadImm7P .fp 0x3E),
    (32, 0b1110_0001_0010_0110_1000_0000_0000_0001, .loadImm16X (.d .r6) 0x8001),
    (32, 0b1110_0001_1000_1110_1000_0000_0000_0001, .loadImm16Z (.p .sp) 0x8001),
    (32, 0b1110_0001_0001_0110_0001_0010_0011_0100, .loadImm16Lo (.m .n2) 0x1234),
    (32, 0b1110_0001_0101_1001_1111_1111_1100_0000, .loadImm16Hi (.b .n1) 0xFFC0),
    (32, 0b1100_0100_0000_1000_0000_0000_0000_0000, .clearA0),
    (32, 0b1100_0100_0000_1000_0100_0000_0000_0000, .clearA1),
    (32, 0b1100_0100_0000_1000_1000_0000_0000_0000, .clearA1A0),
    (16, 0b0000_0010_0000_1110, .ccFromDreg .r6),
    (16, 0b0000_0010_0000_0110, .dregFromCc .r6)] = true := by decide +kernel

theorem test_words_moves_2 : decodesTo [
    (16, 0b0000_0011_0000_0000, .ccFlagSet .az),
    (16, 0b0000_0011_0010_0001, .ccFlagOr .an),
    (16, 0b0000_0011_0100_0110, .ccFlagAnd .aq),
    (16, 0b0000_0011_0110_1100, .ccFlagXor .ac0),
    (16, 0b0000_0011_1000_1101, .flagCcSet .ac1),
    (16, 0b0000_0011_1011_0001, .flagCcOr .av0s),
    (16, 0b0000_0011_1101_1000, .flagCcAnd .v),
    (16, 0b0000_0011_1111_1001, .flagCcXor .vs),
    (16, 0b0000_0010_0001_1000, .ccNot)] = true := by decide +kernel

theorem test_words_alu_1 : decodesTo [
    (16, 0b0101_1010_0101_1110, .addPreg .p1 .sp .p3),
    (16, 0b0101_1010_0101_1001, .addPregTo .p1 .p3),
    (16, 0b0100_0100_0001_0101, .subPregFrom .p5 .p2),
    (16, 0b0110_1111_1100_0110, .addPregImm7 .sp 0x78),
    (16, 0b0101_0000_0101_1110, .addDreg .r1 .r6 .r3),
    (32, 0b1100_0100_0000_0100_0010_0010_0011_0011, .addDregOpt true .r1 .r6 .r3),
    (16, 0b0101_0010_0101_1110, .subDreg .r1 .r6 .r3),
    (32, 0b1100_0100_0000_0100_0110_0010_0011_0011, .subDregOpt true .r1 .r6 .r3),
    (32, 0b1100_0100_0000_0100_1010_0011_0011_0011, .addSubDreg true .r4 .r1 .r6 .r3),
    (16, 0b0110_0110_0000_1011, .addDregImm7 .r3 0x41),
    (16, 0b0100_0011_1001_0101, .negDreg .r5 .r2),
    (32, 0b1100_0100_0000_0111_1110_0010_0011_0000, .negDregOpt true .r1 .r6),
    (32, 0b1100_0100_0001_0001_0100_0011_0000_0000, .accSumDiff true false .r4 .r1),
    (32, 0b1100_0100_0010_0010_0100_0010_0011_0011, .addHalf false .hi .r1 .lo .hi .r6 .r3),
    (32, 0b1100_0100_0010_0011_0100_0010_0011_0011, .subHalf false .hi .r1 .lo .hi .r6 .r3),
    (32, 0b1100_0100_0000_0000_0001_0010_0011_0011, .vecAddAdd false true .r1 .r6 .r3),
    (32, 0b1100_0100_0000_0000_0101_0010_0011_0011, .vecAddSub false true .r1 .r6 .r3),
    (32, 0b1100_0100_0000_0000_1001_0010_0011_0011, .vecSubAdd false true .r1 .r6 .r3),
    (32, 0b1100_0100_0000_0000_1101_0010_0011_0011, .vecSubSub false true .r1 .r6 .r3),
    (32, 0b1100_0100_0000_0001_1010_0011_0011_0011, .quadAddSub .asr true false .r4 .r1 .r6 .r3),
    (32, 0b1100_0100_0010_0001_1010_0011_0011_0011, .quadAddSubCross .asr true false .r4 .r1 .r6 .r3),
    (32, 0b1100_0100_0000_1011_1010_0000_0000_0000, .accAdd true),
    (32, 0b1100_0100_0000_1011_1110_0000_0000_0000, .accSub true),
    (32, 0b1100_0100_0000_1011_0000_1010_0000_0000, .dregAccAdd .r5),
    (32, 0b1100_0100_0010_1011_0100_1010_0000_0000, .dregHalfAccAdd .hi .r5),
    (32, 0b1100_0100_0010_1110_0000_0000_0000_0000, .negAcc .a1 .a0),
    (32, 0b1100_0100_0000_1110_1100_0000_0000_0000, .negAccBoth),
    (32, 0b1100_0100_0011_0000_0000_0000_0000_0000, .absAcc .a1 .a0),
    (32, 0b1100_0100_0001_0000_1100_0000_0000_0000, .absAccBoth),
    (32, 0b1100_0100_0000_1000_0110_0000_0000_0000, .satAcc .a1)] = true := by decide +kernel

theorem test_words_alu_2 : decodesTo [
    (32, 0b1100_0100_0000_1000_1010_0000_0000_0000, .satAccBoth),
    (16, 0b0100_0010_0101_0101, .divs .r5 .r2),
    (16, 0b0100_0010_0001_0101, .divq .r5 .r2),
    (32, 0b1100_0100_0000_0111_0000_0010_0011_0011, .maxDreg .r1 .r6 .r3),
    (32, 0b1100_0100_0000_0110_0000_0010_0011_0011, .maxVec .r1 .r6 .r3),
    (32, 0b1100_0100_0000_0111_0100_0010_0011_0011, .minDreg .r1 .r6 .r3),
    (32, 0b1100_0100_0000_0110_0100_0010_0011_0011, .minVec .r1 .r6 .r3),
    (32, 0b1100_0100_0000_0111_1000_0010_0011_0000, .absDreg .r1 .r6),
    (32, 0b1100_0100_0000_0110_1000_0010_0011_0000, .absVec .r1 .r6),
    (32, 0b1100_0100_0010_1100_1100_0010_0011_0000, .roundHalf .hi .r1 .r6),
    (32, 0b1100_0100_0010_0101_0000_0010_0011_0011, .addRnd12 .hi .r1 .r6 .r3),
    (32, 0b1100_0100_0010_0101_0100_0010_0011_0011, .subRnd12 .hi .r1 .r6 .r3),
    (32, 0b1100_0100_0010_0101_1000_0010_0011_0011, .addRnd20 .hi .r1 .r6 .r3),
    (32, 0b1100_0100_0010_0101_1100_0010_0011_0011, .subRnd20 .hi .r1 .r6 .r3),
    (32, 0b1100_0110_0000_0101_0000_0010_0000_0011, .signbitsDreg .r1 .r3),
    (32, 0b1100_0110_0000_0101_1000_0010_0000_0011, .signbitsHalf .r1 .hi .r3),
    (32, 0b1100_0110_0000_0110_0100_0010_0000_0000, .signbitsAcc .r1 .a1),
    (32, 0b1100_0110_0000_0111_0100_0010_0011_0011, .expadjVec .r1 .r3 .r6),
    (32, 0b1100_0110_0000_0111_1100_0010_0011_0011, .expadj .hi .r1 .r3 .r6),
    (16, 0b0101_0100_0101_1110, .andDreg .r1 .r6 .r3),
    (16, 0b0100_0011_1101_0101, .notDreg .r5 .r2),
    (16, 0b0101_0110_0101_1110, .orDreg .r1 .r6 .r3),
    (16, 0b0101_1000_0101_1110, .xorDreg .r1 .r6 .r3),
    (16, 0b0000_1100_0010_0001, .cmpEqDreg .r1 (.imm 4)),
    (16, 0b0000_1100_1010_0001, .cmpLtDreg .r1 (.imm 4)),
    (16, 0b0000_1101_0010_0001, .cmpLeDreg .r1 (.imm 4)),
    (16, 0b0000_1001_1011_0001, .cmpLtuDreg .r1 (.reg .r6)),
    (16, 0b0000_1010_0011_0001, .cmpLeuDreg .r1 (.reg .r6)),
    (16, 0b0000_1101_1111_1001, .cmpPreg .ltu .p1 (.imm 7))] = true := by decide +kernel

theorem test_words_alu_pointer : decodesTo [
    (16, 0b0100_0001_0001_0101, .addShift1Dreg .r5 .r2),
    (16, 0b0100_0001_0101_0101, .addShift2Dreg .r5 .r2),
    (16, 0b0100_0101_1001_0101, .addShift1Preg .p5 .p2),
    (16, 0b0100_0101_1101_0101, .addShift2Preg .p5 .p2),
    (16, 0b0101_1100_0101_1110, .addShifted1Preg .p1 .sp .p3),
    (16, 0b0101_1110_0101_1110, .addShifted2Preg .p1 .sp .p3),
    (16, 0b0101_1010_0101_1011, .shl1Preg .p1 .p3),
    (16, 0b0100_0100_0101_0101, .shl2Preg .p5 .p2),
    (16, 0b0100_0100_1101_0101, .shr2Preg .p5 .p2),
    (16, 0b0100_0101_0001_0101, .shr1Preg .p5 .p2)] = true := by decide +kernel

theorem test_words_mac : decodesTo [
    (32, 0b1100_0011_0000_0000_0010_0100_0111_0011, .mulLo .is .r1 ⟨.hi, .lo, .r6, .r3⟩),
    (32, 0b1100_0010_0011_0100_1000_0000_0111_0011, .mulHi .s2rnd true .r1 ⟨.hi, .lo, .r6, .r3⟩),
    (32, 0b1100_0011_0010_1000_0010_0100_1011_0011, .mulEven .iss2 .r2 ⟨.hi, .lo, .r6, .r3⟩),
    (32, 0b1100_0010_1001_1100_1000_0000_1011_0011, .mulOdd .fu true .r2 ⟨.hi, .lo, .r6, .r3⟩),
    (32, 0b1100_0011_0111_0100_1010_0010_0111_0011, .mulDual .ih true false .r1 ⟨.hi, .lo⟩ ⟨.lo, .hi⟩ .r6 .r3),
    (32, 0b1100_0000_0110_0011_0000_0100_0011_0011, .macA0Set .w32 ⟨.hi, .lo, .r6, .r3⟩),
    (32, 0b1100_0000_1001_0000_1001_1000_0011_0011, .macA1Set .fu true ⟨.hi, .lo, .r6, .r3⟩),
    (32, 0b1100_0001_0000_0011_0010_0100_0111_0011, .macA0SetLo .is .r1 ⟨.hi, .lo, .r6, .r3⟩),
    (32, 0b1100_0000_0011_0100_1001_1000_0111_0011, .macA1SetHi .s2rnd true .r1 ⟨.hi, .lo, .r6, .r3⟩),
    (32, 0b1100_0001_0010_1011_0010_0100_1011_0011, .macA0SetEven .iss2 .r2 ⟨.hi, .lo, .r6, .r3⟩),
    (32, 0b1100_0000_1001_1100_1001_1000_1011_0011, .macA1SetOdd .fu true .r2 ⟨.hi, .lo, .r6, .r3⟩),
    (32, 0b1100_0000_0110_0011_0000_1100_0011_0011, .macA0Add .w32 ⟨.hi, .lo, .r6, .r3⟩),
    (32, 0b1100_0000_1001_0001_1001_1000_0011_0011, .macA1Add .fu true ⟨.hi, .lo, .r6, .r3⟩),
    (32, 0b1100_0001_0000_0011_0010_1100_0111_0011, .macA0AddLo .is .r1 ⟨.hi, .lo, .r6, .r3⟩),
    (32, 0b1100_0000_0011_0101_1001_1000_0111_0011, .macA1AddHi .s2rnd true .r1 ⟨.hi, .lo, .r6, .r3⟩),
    (32, 0b1100_0001_0010_1011_0010_1100_1011_0011, .macA0AddEven .iss2 .r2 ⟨.hi, .lo, .r6, .r3⟩),
    (32, 0b1100_0000_1001_1101_1001_1000_1011_0011, .macA1AddOdd .fu true .r2 ⟨.hi, .lo, .r6, .r3⟩),
    (32, 0b1100_0000_0110_0011_0001_0100_0011_0011, .macA0Sub .w32 ⟨.hi, .lo, .r6, .r3⟩),
    (32, 0b1100_0000_1001_0010_1001_1000_0011_0011, .macA1Sub .fu true ⟨.hi, .lo, .r6, .r3⟩),
    (32, 0b1100_0001_0000_0011_0011_0100_0111_0011, .macA0SubLo .is .r1 ⟨.hi, .lo, .r6, .r3⟩),
    (32, 0b1100_0000_0011_0110_1001_1000_0111_0011, .macA1SubHi .s2rnd true .r1 ⟨.hi, .lo, .r6, .r3⟩),
    (32, 0b1100_0001_0010_1011_0011_0100_1011_0011, .macA0SubEven .iss2 .r2 ⟨.hi, .lo, .r6, .r3⟩),
    (32, 0b1100_0000_1001_1110_1001_1000_1011_0011, .macA1SubOdd .fu true .r2 ⟨.hi, .lo, .r6, .r3⟩),
    (32, 0b1100_0001_1001_0101_1001_0010_0111_0011, .macDual .iu true false ⟨.add, true, ⟨.hi, .lo⟩⟩ ⟨.sub, false, ⟨.lo, .hi⟩⟩ .r1 .r6 .r3),
    (16, 0b0100_0000_1101_0101, .mulDreg .r5 .r2)] = true := by decide +kernel

theorem test_words_shifter_1 : decodesTo [
    (16, 0b0100_1100_1001_0011, .bitclr .r3 0x12),
    (16, 0b0100_1010_1001_0011, .bitset .r3 0x12),
    (16, 0b0100_1011_1001_0011, .bittgl .r3 0x12),
    (16, 0b0100_1001_1001_0011, .ccBittst .r3 0x12),
    (16, 0b0100_1000_1001_0011, .ccNotBittst .r3 0x12),
    (16, 0b0100_1101_1001_0011, .asrImmTo .r3 0x12),
    (16, 0b0100_1110_1001_0011, .lsrImmTo .r3 0x12),
    (16, 0b0100_1111_1001_0011, .lslImmTo .r3 0x12),
    (32, 0b1100_0110_0000_1010_1100_0010_0011_0011, .deposit true .r1 .r3 .r6),
    (32, 0b1100_0110_0000_1010_0100_0010_0011_0011, .extract true .r1 .r3 .r6),
    (32, 0b1100_0110_0000_1000_0100_0000_0011_0011, .bitmux true .r6 .r3),
    (32, 0b1100_0110_0000_0110_1100_0010_0000_0011, .ones .r1 .r3),
    (32, 0b1100_0110_0000_0100_1000_0010_0011_0011, .pack .r1 .hi .lo .r3 .r6),
    (32, 0b1100_0110_1000_0010_0000_0011_1101_1011, .asrImm .r1 .r3 0x3B),
    (32, 0b1100_0110_1000_0010_1000_0011_1101_1011, .lsrImm .r1 .r3 0x3B),
    (32, 0b1100_0110_1000_0010_1000_0010_0010_1011, .lslImm .r1 .r3 5),
    (32, 0b1100_0110_1000_0010_0100_0010_0010_1011, .lslImmSat .r1 .r3 5),
    (32, 0b1100_0110_1000_0001_0000_0011_1101_1011, .asrImmVec .r1 .r3 0x3B),
    (32, 0b1100_0110_1000_0001_1000_0011_1101_1011, .lsrImmVec .r1 .r3 0x3B),
    (32, 0b1100_0110_1000_0001_1000_0010_0010_1011, .lslImmVec .r1 .r3 5),
    (32, 0b1100_0110_1000_0001_0100_0010_0010_1011, .lslImmVecSat .r1 .r3 5),
    (32, 0b1100_0110_1000_0000_0010_0011_1101_1011, .asrImmHalf .hi .r1 .lo .r3 0x3B),
    (32, 0b1100_0110_1000_0000_1010_0011_1101_1011, .lsrImmHalf .hi .r1 .lo .r3 0x3B),
    (32, 0b1100_0110_1000_0000_1010_0010_0010_1011, .lslImmHalf .hi .r1 .lo .r3 5),
    (32, 0b1100_0110_1000_0000_0110_0010_0010_1011, .lslImmHalfSat .hi .r1 .lo .r3 5),
    (16, 0b0100_0000_0001_0101, .asrDregTo .r5 .r2),
    (16, 0b0100_0000_0101_0101, .lsrDregTo .r5 .r2),
    (16, 0b0100_0000_1001_0101, .lslDregTo .r5 .r2),
    (32, 0b1100_0110_0000_0010_0000_0010_0011_0011, .ashift .r1 .r3 .r6),
    (32, 0b1100_0110_0000_0010_0100_0010_0011_0011, .ashiftSat .r1 .r3 .r6)] = true := by decide +kernel

theorem test_words_shifter_2 : decodesTo [
    (32, 0b1100_0110_0000_0010_1000_0010_0011_0011, .lshift .r1 .r3 .r6),
    (32, 0b1100_0110_0000_0001_0000_0010_0011_0011, .ashiftVec .r1 .r3 .r6),
    (32, 0b1100_0110_0000_0001_0100_0010_0011_0011, .ashiftVecSat .r1 .r3 .r6),
    (32, 0b1100_0110_0000_0001_1000_0010_0011_0011, .lshiftVec .r1 .r3 .r6),
    (32, 0b1100_0110_0000_0000_0001_0010_0011_0011, .ashiftHalf .lo .r1 .hi .r3 .r6),
    (32, 0b1100_0110_0000_0000_0101_0010_0011_0011, .ashiftHalfSat .lo .r1 .hi .r3 .r6),
    (32, 0b1100_0110_0000_0000_1001_0010_0011_0011, .lshiftHalf .lo .r1 .hi .r3 .r6),
    (32, 0b1100_0110_1000_0010_1100_0011_1101_1011, .rotImm .r1 .r3 0x3B),
    (32, 0b1100_0110_0000_0010_1100_0010_0011_0011, .rotDreg .r1 .r3 .r6),
    (32, 0b1100_0110_1000_0011_1001_0001_1101_1000, .rotAccImm .a1 0x3B),
    (32, 0b1100_0110_0000_0011_1001_0000_0011_0000, .rotAcc .a1 .r6),
    (32, 0b1100_0110_1000_0011_0001_0001_1101_1000, .asrAccImm .a1 0x3B),
    (32, 0b1100_0110_1000_0011_0101_0001_1101_1000, .lsrAccImm .a1 0x3B),
    (32, 0b1100_0110_1000_0011_0001_0000_0010_1000, .lslAccImm .a1 5),
    (32, 0b1100_0110_0000_0011_0001_0000_0011_0000, .ashiftAcc .a1 .r6)] = true := by decide +kernel

theorem test_words_video : decodesTo [
    (32, 0b1100_0110_0000_1011_0110_0010_0011_0011, .bxorShift 1 2 .r1 .r6 .r3),
    (32, 0b1100_0110_0000_1100_0110_0010_0011_0011, .bxorAcc 1 2 .r1 .r6 .r3),
    (32, 0b1100_0100_0001_0010_0010_0011_0011_0011, .saa false true false .r1 .r4 .r6 .r3),
    (32, 0b1100_0100_0011_0100_1001_0011_0011_0011, .byteop1p true 2 false true .r1 .r4 .r6 .r3),
    (32, 0b1100_0100_0011_0101_1001_0011_0011_0011, .byteop16 true 2 false true .r1 .r4 .r6 .r3),
    (32, 0b1100_0100_0011_0110_1001_0011_0011_0011, .byteop2p true 2 false true .r1 .r4 .r6 .r3),
    (32, 0b1100_0100_0011_0111_1001_0011_0011_0011, .byteop3p true 2 false true .r1 .r4 .r6 .r3),
    (32, 0b1100_0100_0011_1000_1001_0011_0011_0011, .bytepack true 2 false true .r1 .r4 .r6 .r3)] = true := by decide +kernel

theorem test_words_flow : decodesTo [
    (16, 0b0010_1000_0000_0001, .jumpShort 0x801),
    (32, 0b1110_0010_1000_0001_0010_0011_0100_0101, .jumpLong 0x812345),
    (16, 0b0000_0000_0101_0110, .jumpPreg .sp),
    (16, 0b0000_0000_1000_0110, .jumpPcPreg .sp),
    (32, 0b1110_0011_1000_0001_0010_0011_0100_0101, .callOff 0x812345),
    (16, 0b0000_0000_0110_0110, .callPreg .sp),
    (16, 0b0000_0000_0111_0110, .callPcPreg .sp),
    (16, 0b0000_0000_0001_0000, .rts),
    (16, 0b0000_0000_0001_0001, .rti),
    (16, 0b0000_0000_0001_0010, .rtx),
    (16, 0b0000_0000_0001_0011, .rtn),
    (16, 0b0000_0000_0001_0100, .rte),
    (16, 0b0001_1010_0000_0101, .brcc 0x205),
    (16, 0b0001_0010_0000_0101, .brncc 0x205),
    (16, 0b0001_1110_0000_0101, .brccBp 0x205),
    (16, 0b0001_0110_0000_0101, .brnccBp 0x205),
    (32, 0b1110_0000_1011_1001_0101_0010_0000_0101, .lsetupPreg .l1 9 .p5 0x205),
    (32, 0b1110_0000_1001_1001_0000_0010_0000_0101, .lsetup .l1 9 0x205),
    (32, 0b1110_0000_1111_1001_0101_0010_0000_0101, .lsetupPregHalf .l1 9 .p5 0x205),
    (32, 0b1100_0100_0001_0010_1100_0000_0000_0000, .disalgnexcpt)] = true := by decide +kernel

theorem test_words_load_store_1 : decodesTo [
    (16, 0b1001_0000_1111_0011, .loadP .dec .p3 .sp),
    (16, 0b1001_0000_0011_0011, .loadD .inc .r3 .sp),
    (16, 0b1001_0100_0011_0011, .loadWZ .inc .r3 .sp),
    (16, 0b1001_0100_0111_0011, .loadWX .inc .r3 .sp),
    (16, 0b1001_1000_0011_0011, .loadBZ .inc .r3 .sp),
    (16, 0b1001_1000_0111_0011, .loadBX .inc .r3 .sp),
    (16, 0b1001_0010_1111_0011, .storeP .dec .sp .p3),
    (16, 0b1001_0011_0011_0011, .storeD .keep .sp .r3),
    (16, 0b1001_0111_0011_0011, .storeW .keep .sp .r3),
    (16, 0b1001_1011_0011_0011, .storeB .keep .sp .r3),
    (16, 0b1010_0010_0111_0011, .loadDOff .r3 .sp 9),
    (16, 0b1010_0110_0111_0011, .loadWZOff .r3 .sp 9),
    (16, 0b1010_1010_0111_0011, .loadWXOff .r3 .sp 9),
    (16, 0b1010_1110_0111_0011, .loadPOff .p3 .sp 9),
    (16, 0b1011_0010_0111_0011, .storeDOff .sp 9 .r3),
    (16, 0b1011_0110_0111_0011, .storeWOff .sp 9 .r3),
    (16, 0b1011_1110_0111_0011, .storePOff .sp 9 .p3),
    (16, 0b1011_1001_1110_1010, .loadFp (.p .p2) 0x1E),
    (16, 0b1011_1011_1110_0010, .storeFp 0x1E (.d .r2)),
    (32, 0b1110_0100_0011_0011_1000_0000_0000_0001, .loadDLong .r3 .sp 0x8001),
    (32, 0b1110_0101_0011_0011_1000_0000_0000_0001, .loadPLong .p3 .sp 0x8001),
    (32, 0b1110_0100_0111_0011_1000_0000_0000_0001, .loadWZLong .r3 .sp 0x8001),
    (32, 0b1110_0101_0111_0011_1000_0000_0000_0001, .loadWXLong .r3 .sp 0x8001),
    (32, 0b1110_0100_1011_0011_1000_0000_0000_0001, .loadBZLong .r3 .sp 0x8001),
    (32, 0b1110_0101_1011_0011_1000_0000_0000_0001, .loadBXLong .r3 .sp 0x8001),
    (32, 0b1110_0110_0011_0011_1000_0000_0000_0001, .storeDLong .sp 0x8001 .r3),
    (32, 0b1110_0111_0011_0011_1000_0000_0000_0001, .storePLong .sp 0x8001 .p3),
    (32, 0b1110_0110_0111_0011_1000_0000_0000_0001, .storeWLong .sp 0x8001 .r3),
    (32, 0b1110_0110_1011_0011_1000_0000_0000_0001, .storeBLong .sp 0x8001 .r3),
    (16, 0b1000_0000_1100_1110, .loadDIdx .r3 .sp .p1)] = true := by decide +kernel

theorem test_words_load_store_2 : decodesTo [
    (16, 0b1000_0010_1100_1110, .loadLoIdx .r3 .sp .p1),
    (16, 0b1000_0100_1100_1110, .loadHiIdx .r3 .sp .p1),
    (16, 0b1000_0110_1100_1110, .loadWZIdx .r3 .sp .p1),
    (16, 0b1000_1110_1100_1110, .loadWXIdx .r3 .sp .p1),
    (16, 0b1000_1000_1100_1110, .storeDIdx .sp .p1 .r3),
    (16, 0b1000_1010_1100_1110, .storeLoIdx .sp .p1 .r3),
    (16, 0b1000_1100_1100_1110, .storeHiIdx .sp .p1 .r3),
    (16, 0b1001_1100_1001_0011, .loadDI .dec .r3 .n2),
    (16, 0b1001_1100_1011_0011, .loadLoI .dec .r3 .n2),
    (16, 0b1001_1100_1101_0011, .loadHiI .dec .r3 .n2),
    (16, 0b1001_1110_1001_0011, .storeDI .dec .n2 .r3),
    (16, 0b1001_1110_1011_0011, .storeLoI .dec .n2 .r3),
    (16, 0b1001_1110_1101_0011, .storeHiI .dec .n2 .r3),
    (16, 0b1001_1101_1011_0011, .loadDIM .r3 .n2 .n1),
    (16, 0b1001_1111_1011_0011, .storeDIM .n2 .n1 .r3),
    (16, 0b1001_1110_0110_0110, .addIM .n2 .n1),
    (16, 0b1001_1110_0111_0110, .subIM .n2 .n1),
    (16, 0b1001_1110_1110_0110, .addIMBrev .n2 .n1),
    (16, 0b0100_0101_0101_0101, .addPregBrev .p5 .p2),
    (16, 0b1001_1111_0110_0010, .addI2 .n2),
    (16, 0b1001_1111_0110_0110, .subI2 .n2),
    (16, 0b1001_1111_0110_1010, .addI4 .n2),
    (16, 0b1001_1111_0110_1110, .subI4 .n2)] = true := by decide +kernel

theorem test_words_system : decodesTo [
    (16, 0b0000_0000_0000_0000, .nop),
    (32, 0b1100_0000_0000_0011_0001_1000_0000_0000, .mnop),
    (16, 0b0000_0000_0011_0101, .cli .r5),
    (16, 0b0000_0000_0100_0101, .sti .r5),
    (16, 0b0000_0000_1001_1110, .raiseInt 14),
    (16, 0b0000_0000_1010_1110, .excpt 14),
    (16, 0b0000_0000_0010_0101, .emuexcpt),
    (16, 0b0000_0000_0010_0000, .idle),
    (16, 0b0000_0000_0010_0011, .csync),
    (16, 0b0000_0000_0010_0100, .ssync),
    (16, 0b0000_0000_1011_0110, .testset .sp),
    (16, 0b0000_0010_0110_0110, .prefetch true .sp),
    (16, 0b0000_0010_0111_0110, .flush true .sp),
    (16, 0b0000_0010_0110_1110, .flushinv true .sp),
    (16, 0b0000_0010_0111_1110, .iflush true .sp),
    (16, 0b0000_0001_0110_0111, .pushReg .rets),
    (16, 0b0000_0001_0011_0100, .popReg (.lt .l1)),
    (16, 0b0000_0101_1110_1011, .pushMulti ⟨some .r5, some .p3⟩),
    (16, 0b0000_0100_1000_0011, .popMulti ⟨none, some .p3⟩),
    (32, 0b1110_1000_0000_0000_0000_0001_0000_0101, .link 0x0105),
    (32, 0b1110_1000_0000_0001_0000_0000_0000_0000, .unlink)] = true := by decide +kernel

/-- Words that the tables leave undefined: a REGMV from group 4 number 4, an LDST with mode 3, a CCflag with operator 6 on
pointers, a DSP shift row that no table lists (30_encoding.md R505, R522, R528, R540). -/
theorem test_words_undefined :
    [(16, 0x3904), (16, 0x9180), (16, 0x0B40), (32, 0xC68E0000)].all
      (fun x => decide (decodeTableWord x.1 x.2 = none)) = true := by
  decide +kernel

/-- Words that the encoding annex names and no instruction rule defines (30_encoding.md R504, R544, R545): a pair of halves
negated, LSHIFT of an accumulator, VIT_MAX, ALIGN8, a compare of the accumulators; and a bundle whose first unit is undefined
beside one that opens a longer word: undefined ranks above illegal (R505). -/
theorem test_words_not_defined :
    [[0xC609, 0x0208], [0xC60D, 0x0233], [0x0A80], [0x0B00], [0x0B80]].all
      (fun u => decide (decode (u.flatMap unitBytes) = .notDefined)) = true ∧
    [[0xC40F, 0xC210], [0xC603, 0x4030], [0x0A81], [0x0E80], [0xD800, 0x0000, 0xC000, 0x0000]].all
      (fun u => decide (decode (u.flatMap unitBytes) = .undefined)) = true := by
  decide +kernel

/-- 95_test_vectors.md P6: `A0 += R0.L * R1.L || R0.L = W [I0++] || R1.L = W [I1++]`, units C803 0801 9C20 9C29. -/
theorem test_bundle :
    decode ([0xC803, 0x0801, 0x9C20, 0x9C29].flatMap unitBytes) =
      .bundle (.macA0Add .fr ⟨.lo, .lo, .r0, .r1⟩) (.loadLoI .inc .r0 .n0) (.loadLoI .inc .r1 .n1) := by
  decide +kernel

/-! ## One instruction on one state (95_test_vectors.md) -/

/-- T-40-1, T-40-3, T-40-4, T-40-5. -/
theorem test_moves :
    gives (.moveReg (.d .r0) (.d .r1)) (regs [(.d .r1, 0xDEADBEEF)])
      (fun t => t.d .r0 == 0xDEADBEEF && t.cur.pc == 0xFFA00102) &&
    gives (.moveAccDreg .a0 .r1) (regs [(.d .r1, 0x80000000)]) (fun t => t.acc .a0 == 0xFF80000000) &&
    gives (.moveDregEvenA0 .fr .r2) (accs 0x0100000000 0 (regs []))
      (fun t => t.d .r2 == 0x7FFFFFFF && t.flag .v && t.flag .vs && !t.flag .az && !t.flag .an) &&
    gives (.moveDregOddA1 .fr false .r2) (accs 0 0xFF00000001 (regs []))
      (fun t => t.d .r3 == 0x80000000 && t.flag .v && t.flag .an) = true := by
  decide +kernel

/-- T-40-13 to T-40-19: the parts of accumulators, and the three roundings of an extraction. -/
theorem test_acc_parts :
    gives (.moveAccXDregLo .a0 .r0) (accs 0x0011112222 0 (regs [(.d .r0, 0xFF)])) (fun t => t.acc .a0 == 0xFF11112222) &&
    gives (.moveDregLoAccX .r0 .a0) (accs 0x8000000000 0 (regs [(.d .r0, 0x11112222)])) (fun t => t.d .r0 == 0x1111FF80) &&
    gives (.moveAccLDregLo .a0 .r1) (accs 0x123456789A 0 (regs [(.d .r1, 0xAAAABBBB)])) (fun t => t.acc .a0 == 0x123456BBBB) &&
    gives (.moveAccHDregHi .a0 .r1) (accs 0x123456BBBB 0 (regs [(.d .r1, 0xAAAABBBB)])) (fun t => t.acc .a0 == 0x12AAAABBBB) &&
    gives (.moveDregLoA0 .fr .r0) (accs 0x0012348000 0 (regs [])) (fun t => t.d .r0 == 0x1234 && !t.flag .v) &&
    gives (.moveDregLoA0 .fr .r0) (accs 0x0012348000 0 (regs [(.astat, 0x100)])) (fun t => t.d .r0 == 0x1235) &&
    gives (.moveDregLoA0 .fr .r3) (accs 0x008FFE0002 0 (regs [])) (fun t => t.d .r3 == 0x7FFF && t.flag .v) = true := by
  decide +kernel

/-- T-40-12, T-40-20 to T-40-24, T-40-26. -/
theorem test_constants :
    gives (.moveByteZ .r0 .r1) (regs [(.d .r1, 0x12345600)]) (fun t => t.d .r0 == 0 && t.flag .az) &&
    gives (.loadImm7P .p5 0x20) (regs []) (fun t => t.p .p5 == 0x20) &&
    gives (.loadImm7D .r0 0x7F) (regs []) (fun t => t.d .r0 == 0xFFFFFFFF) &&
    gives (.loadImm16Lo (.p .p0) 0x0104) (regs [(.p .p0, 0x12345678)]) (fun t => t.p .p0 == 0x12340104) &&
    gives (.loadImm16Hi (.p .p0) 0xFFC0) (regs [(.p .p0, 0x12340104)]) (fun t => t.p .p0 == 0xFFC00104) &&
    gives (.loadImm16X (.p .p1) 0xFFFE) (regs []) (fun t => t.p .p1 == 0xFFFFFFFE) &&
    gives (.ccFromDreg .r0) (regs [(.d .r0, 0x100)]) (fun t => t.flag .cc) &&
    gives (.dregFromCc .r0) (regs [(.astat, 0x20)]) (fun t => t.d .r0 == 1) &&
    gives (.flagCcSet .aq) (regs [(.astat, 0x20)]) (fun t => t.flag .aq && t.readReg .astat == 0x60) = true := by
  decide +kernel

/-- T-41-1, T-41-2, T-41-3, T-41-6, T-41-8, T-41-11. -/
theorem test_sums :
    gives (.addDregOpt false .r2 .r0 .r1) (regs [(.d .r0, 0x7FFFFFFF), (.d .r1, 1)])
      (fun t => t.d .r2 == 0x80000000 && t.flag .an && !t.flag .ac0 && t.flag .v && t.flag .vs) &&
    gives (.addDregOpt true .r2 .r0 .r1) (regs [(.d .r0, 0x7FFFFFFF), (.d .r1, 1)])
      (fun t => t.d .r2 == 0x7FFFFFFF && !t.flag .an && !t.flag .ac0 && t.flag .v) &&
    gives (.addDreg .r2 .r0 .r1) (regs [(.d .r0, 0xFFFFFFFF), (.d .r1, 1)])
      (fun t => t.d .r2 == 0 && t.flag .az && !t.flag .an && t.flag .ac0 && !t.flag .v) &&
    gives (.subDregOpt true .r2 .r0 .r1) (regs [(.d .r0, 0x80000000), (.d .r1, 1)])
      (fun t => t.d .r2 == 0x80000000 && t.flag .an && t.flag .ac0 && t.flag .v) &&
    gives (.subDreg .r2 .r0 .r1) (regs [(.d .r0, 3), (.d .r1, 5)])
      (fun t => t.d .r2 == 0xFFFFFFFE && t.flag .an && !t.flag .ac0 && !t.flag .v) &&
    gives (.negDregOpt true .r1 .r0) (regs [(.d .r0, 0x80000000)])
      (fun t => t.d .r1 == 0x7FFFFFFF && !t.flag .an && t.flag .v) = true := by
  decide +kernel

/-- T-41-13, T-41-15, T-41-16, T-41-18, T-41-20, T-41-21. -/
theorem test_packed_sums :
    gives (.addHalf false .hi .r3 .hi .lo .r1 .r2) (regs [(.d .r1, 0x7FFF0000), (.d .r2, 1), (.d .r3, 0x5555)])
      (fun t => t.d .r3 == 0x80005555 && t.flag .an && t.flag .v && !t.flag .ac0) &&
    gives (.vecAddAdd false false .r3 .r1 .r2) (regs [(.d .r1, 0x0001FFFF), (.d .r2, 0x00010001)])
      (fun t => t.d .r3 == 0x00020000 && t.flag .az && !t.flag .an && t.flag .ac0 && !t.flag .ac1) &&
    gives (.vecAddSub true false .r3 .r1 .r2) (regs [(.d .r1, 0x7FFF8000), (.d .r2, 0x00010001)])
      (fun t => t.d .r3 == 0x7FFF8000 && t.flag .v && t.flag .an && t.flag .ac0 && !t.flag .ac1) &&
    gives (.vecSubAdd false true .r3 .r1 .r2) (regs [(.d .r1, 0x00050003), (.d .r2, 0x00020004)])
      (fun t => t.d .r3 == 0x00070003 && t.flag .ac1 && !t.flag .ac0) &&
    gives (.quadAddSub .none false false .r3 .r2 .r0 .r1) (regs [(.d .r0, 0x00050003), (.d .r1, 0x00020004)])
      (fun t => t.d .r3 == 0x00070007 && t.d .r2 == 0x0003FFFF && t.flag .an && !t.flag .az) &&
    gives (.addSubDreg false .r3 .r4 .r1 .r2) (regs [(.d .r1, 7), (.d .r2, 3)])
      (fun t => t.d .r3 == 10 && t.d .r4 == 4 && !t.flag .ac0 && t.flag .ac1) = true := by
  decide +kernel

/-- T-41-22, T-41-24, T-41-25, T-41-26, T-41-28. -/
theorem test_acc_arithmetic :
    gives (.accAdd false) (accs 0x7FFFFFFFFF 1 (regs [])) (fun t => t.acc .a0 == 0x7FFFFFFFFF && t.flag .av0 && t.flag .av0s) &&
    gives (.accSub false) (accs 5 7 (regs [])) (fun t => t.acc .a0 == 0xFFFFFFFFFE && t.flag .an && !t.flag .ac0) &&
    gives (.dregAccAdd .r0) (accs 0x007FFFFFFF 1 (regs []))
      (fun t => t.acc .a0 == 0x0080000000 && t.d .r0 == 0x7FFFFFFF && !t.flag .av0 && t.flag .v && !t.flag .an) &&
    gives (.negAcc .a0 .a0) (accs 0x8000000000 0 (regs [])) (fun t => t.acc .a0 == 0x7FFFFFFFFF && t.flag .av0) &&
    gives (.satAcc .a0) (accs 0x0123456789 0 (regs [])) (fun t => t.acc .a0 == 0x007FFFFFFF && t.flag .av0s) = true := by
  decide +kernel

/-- T-41-30: 100 by 7, the first three steps. -/
theorem test_division :
    gives (.divs .r0 .r1) (regs [(.d .r0, 0xC8), (.d .r1, 7)]) (fun t => t.d .r0 == 0x190 && !t.flag .aq) &&
    gives (.divq .r0 .r1) (regs [(.d .r0, 0x190), (.d .r1, 7)]) (fun t => t.d .r0 == 0xFFF20320 && t.flag .aq) &&
    gives (.divq .r0 .r1) (regs [(.d .r0, 0xFFF20320), (.d .r1, 7), (.astat, 0x40)])
      (fun t => t.d .r0 == 0xFFF20640 && t.flag .aq) = true := by
  decide +kernel

/-- T-41-31 to T-41-42: MAX, ABS, the rounding forms, exponent detection. -/
theorem test_max_round_exponent :
    gives (.maxVec .r2 .r0 .r1) (regs [(.d .r0, 0x0001FFFF), (.d .r1, 0xFFFF0001)]) (fun t => t.d .r2 == 0x00010001) &&
    gives (.absDreg .r1 .r0) (regs [(.d .r0, 0x80000000)]) (fun t => t.d .r1 == 0x7FFFFFFF && t.flag .v && t.flag .vs) &&
    gives (.roundHalf .lo .r3 .r4) (regs [(.d .r4, 0x7FFF8000)]) (fun t => t.d .r3 == 0x7FFF && t.flag .v) &&
    gives (.addRnd12 .lo .r3 .r4 .r5) (regs [(.d .r4, 0x12800)]) (fun t => t.d .r3 == 0x13) &&
    gives (.addRnd20 .lo .r3 .r4 .r5) (regs [(.d .r4, 0x80000000), (.d .r5, 0x80000000)]) (fun t => t.d .r3 == 0xF000) &&
    gives (.signbitsDreg .r0 .r1) (regs [(.d .r1, 0x1234)]) (fun t => t.d .r0 == 18) &&
    gives (.signbitsAcc .r0 .a0) (accs 0x7FFFFFFFFF 0 (regs [])) (fun t => t.d .r0 == 0xFFF8) &&
    gives (.expadjVec .r0 .r1 .r2) (regs [(.d .r1, 0x0FFF00FF), (.d .r2, 15)]) (fun t => t.d .r0 == 3) &&
    gives (.expadj .hi .r0 .r1 .r2) (regs [(.d .r1, 0xF8000000), (.d .r2, 9)]) (fun t => t.d .r0 == 4) = true := by
  decide +kernel

/-- T-41-48 to T-41-50, T-41-54: compares, and the address forms. -/
theorem test_compares :
    gives (.cmpLtDreg .r0 (.reg .r1)) (regs [(.d .r0, 0xFFFFFFFF), (.d .r1, 1)]) (fun t => t.flag .cc) &&
    gives (.cmpLtuDreg .r0 (.reg .r1)) (regs [(.d .r0, 0xFFFFFFFF), (.d .r1, 1)]) (fun t => !t.flag .cc) &&
    gives (.cmpEqDreg .r0 (.imm 4)) (regs [(.d .r0, 0xFFFFFFFC)]) (fun t => t.flag .cc) &&
    gives (.cmpLeuDreg .r0 (.imm 7)) (regs [(.d .r0, 0xFFFFFFFC)]) (fun t => !t.flag .cc) &&
    gives (.cmpPreg .ltu .p0 (.imm 7)) (regs [(.p .p0, 5)]) (fun t => t.flag .cc) &&
    gives (.addShifted1Preg .p0 .p1 .p0) (regs [(.p .p1, 0x1000), (.p .p0, 3)]) (fun t => t.p .p0 == 0x1006) &&
    gives (.addShift2Preg .p0 .p1) (regs [(.p .p1, 0x1000), (.p .p0, 3)]) (fun t => t.p .p0 == 0x400C) = true := by
  decide +kernel

/-- The product of two low halves under an option, taken out as a half: T-42-2 to T-42-5, T-42-7, T-42-10, T-42-13 to
T-42-15. -/
theorem test_products :
    [(MMod.fr, 0x7FFF, 0x7FFF, 0x7FFE, false), (.fr, 0x8000, 0x8000, 0x7FFF, true), (.w32, 0x8000, 0x8000, 0x7FFF, true),
      (.fr, 0x8000, 0x7FFF, 0x8001, false), (.s2rnd, 0x4000, 0x4000, 0x4000, false), (.iu, 0xFFFF, 0xFFFF, 0xFFFF, true),
      (.fu, 0x8000, 0xFFFF, 0x8000, false), (.tfu, 0x8000, 0xFFFF, 0x7FFF, false), (.ih, 0x1234, 0x0100, 0x0012, false),
      (.iss2, 0x00C0, 0x0100, 0x7FFF, true)].all (fun x : MMod × Word × Word × Word × Bool =>
        gives (.mulLo x.1 .r3 ⟨.lo, .lo, .r1, .r2⟩) (regs [(.d .r1, x.2.1), (.d .r2, x.2.2.1)])
          (fun t => t.d .r3 == x.2.2.2.1 && t.flag .v == x.2.2.2.2)) = true := by
  decide +kernel

/-- T-42-17 to T-42-22, T-42-24. -/
theorem test_mac :
    gives (.mulEven .fr .r0 ⟨.lo, .lo, .r1, .r2⟩) (regs [(.d .r1, 0x8000), (.d .r2, 0x8000)])
      (fun t => t.d .r0 == 0x7FFFFFFF && t.flag .v && t.flag .vs) &&
    gives (.macA0Add .fr ⟨.lo, .lo, .r0, .r1⟩) (accs 0x7FFFFF0000 0 (regs [(.d .r0, 0x7FFF), (.d .r1, 0x7FFF)]))
      (fun t => t.acc .a0 == 0x7FFFFFFFFF && t.flag .av0 && t.flag .av0s) &&
    gives (.macA1Sub .fr false ⟨.hi, .hi, .r3, .r4⟩) (accs 0 0x0010000000 (regs [(.d .r3, 0x40000000), (.d .r4, 0x40000000)]))
      (fun t => t.acc .a1 == 0xFFF0000000 && !t.flag .av1) &&
    gives (.macA0AddLo .fr .r3 ⟨.lo, .lo, .r1, .r2⟩) (regs [(.d .r1, 0x2000), (.d .r2, 0x4000), (.d .r3, 0xAAAA0000)])
      (fun t => t.acc .a0 == 0x0010000000 && t.d .r3 == 0xAAAA1000) &&
    gives (.macDual .fr false false ⟨.add, false, ⟨.hi, .hi⟩⟩ ⟨.add, false, ⟨.lo, .lo⟩⟩ .r0 .r1 .r2)
      (regs [(.d .r1, 0x40002000), (.d .r2, 0x10004000)])
      (fun t => t.acc .a1 == 0x0008000000 && t.acc .a0 == 0x0010000000) &&
    gives (.mulDreg .r0 .r1) (regs [(.d .r0, 0xFFFFFFFF), (.d .r1, 3)]) (fun t => t.d .r0 == 0xFFFFFFFD) = true := by
  decide +kernel

/-- T-43-1, T-43-3, T-43-5, T-43-7, T-43-9, T-43-12, T-43-14. -/
theorem test_shifts :
    gives (.asrImmTo .r0 4) (regs [(.d .r0, 0x80000000)]) (fun t => t.d .r0 == 0xF8000000 && t.flag .an && !t.flag .v) &&
    gives (.lslImm .r1 .r0 1) (regs [(.d .r0, 0x40000000)]) (fun t => t.d .r1 == 0x80000000 && t.flag .v && t.flag .an) &&
    gives (.lslImmSat .r1 .r0 1) (regs [(.d .r0, 0x40000000)]) (fun t => t.d .r1 == 0x7FFFFFFF && t.flag .v) &&
    gives (.lslImmTo .r0 1) (regs [(.d .r0, 0x40000000)]) (fun t => t.d .r0 == 0x80000000 && !t.flag .v) &&
    gives (.lslImmVec .r1 .r0 1) (regs [(.d .r0, 0x80004000)]) (fun t => t.d .r1 == 0x00008000 && t.flag .v) &&
    gives (.lsrImmHalf .lo .r1 .lo .r0 0x3C) (regs [(.d .r0, 0xB6A3)]) (fun t => t.d .r1 == 0x0B6A) &&
    gives (.ashift .r1 .r0 .r2) (regs [(.d .r0, 0xB6A3), (.d .r2, 0x3C)]) (fun t => t.d .r1 == 0x0B6A) &&
    gives (.lshift .r1 .r0 .r2) (regs [(.d .r0, 3), (.d .r2, 31)]) (fun t => t.d .r1 == 0x80000000 && !t.flag .v) &&
    gives (.lslDregTo .r0 .r2) (regs [(.d .r0, 0xB6A3), (.d .r2, 0x20)]) (fun t => t.d .r0 == 0 && t.flag .az) = true := by
  decide +kernel

/-- T-43-15, T-43-17, T-43-18, T-43-20 to T-43-22. -/
theorem test_rotates_acc_shifts :
    gives (.rotImm .r1 .r0 0x3F) (regs [(.d .r0, 1), (.astat, 0x20)]) (fun t => t.d .r1 == 0x80000000 && t.flag .cc) &&
    gives (.rotImm .r1 .r0 0x3C) (regs [(.d .r0, 0xABCDEF12)]) (fun t => t.d .r1 == 0x4ABCDEF1 && !t.flag .cc) &&
    gives (.rotAccImm .a0 1) (accs 0x8000000001 0 (regs [(.astat, 0x20)])) (fun t => t.acc .a0 == 3 && t.flag .cc) &&
    gives (.lslAccImm .a0 1) (accs 0x4000000000 0 (regs [])) (fun t => t.acc .a0 == 0x8000000000 && t.flag .av0 && t.flag .an) &&
    gives (.lsrAccImm .a0 0x3C) (accs 0x8000000000 0 (regs [])) (fun t => t.acc .a0 == 0x0800000000 && !t.flag .av0) &&
    gives (.ashiftAcc .a0 .r2) (accs 0xFF00000000 0 (regs [(.d .r2, 0x20)])) (fun t => t.acc .a0 == 0xFFFFFFFFFF) = true := by
  decide +kernel

/-- T-43-27 to T-43-33. -/
theorem test_fields :
    gives (.deposit false .r2 .r0 .r1) (regs [(.d .r0, 0xFFFFFFFF), (.d .r1, 0x00AB0408)]) (fun t => t.d .r2 == 0xFFFFFABF) &&
    gives (.deposit true .r2 .r0 .r1) (regs [(.d .r1, 0x000A0804)]) (fun t => t.d .r2 == 0xFFFFFA00 && t.flag .an) &&
    gives (.extract false .r2 .r0 .r1) (regs [(.d .r0, 0x12345678), (.d .r1, 0x0808)]) (fun t => t.d .r2 == 0x56) &&
    gives (.extract true .r2 .r0 .r1) (regs [(.d .r0, 0x1234F678), (.d .r1, 0x0C04)]) (fun t => t.d .r2 == 0xFFFFFFFF) &&
    gives (.ones .r0 .r1) (regs [(.d .r1, 0x80000001)]) (fun t => t.d .r0 == 2) &&
    gives (.pack .r2 .lo .hi .r0 .r1) (regs [(.d .r0, 0x11112222), (.d .r1, 0x33334444)]) (fun t => t.d .r2 == 0x22223333) =
      true := by
  decide +kernel

/-- T-44-1, T-44-4, T-44-5, T-44-6, T-44-9, T-44-10. -/
theorem test_flow :
    gives (.jumpShort 0x800) (regs []) (fun t => t.cur.pc == 0xFF9FF100) &&
    gives (.jumpPreg .p3) ((regs [(.p .p3, 0xFFA02001)]).withIpend 0x8000)
      (fun t => t.cur.seqstat.excause == 0x2A && t.cur.retx == 0xFFA02001) &&
    gives (.jumpPcPreg .p1) (regs [(.p .p1, 0xFFFFFFF0)]) (fun t => t.cur.pc == 0xFFA000F0) &&
    gives (.callOff 0x10) (regs []) (fun t => t.cur.pc == 0xFFA00120 && t.cur.rets == 0xFFA00104) &&
    gives (.brncc 0x3FD) (regs [(.astat, 0x20)]) (fun t => t.cur.pc == 0xFFA00102) &&
    gives (.lsetupPreg .l0 2 .p5 4) (regs [(.p .p5, 2)]) (fun t =>
      t.readReg (.lt .l0) == 0xFFA00104 && t.readReg (.lb .l0) == 0xFFA00108 && t.readReg (.lc .l0) == 2) &&
    gives .nop (regs [(.lc .l0, 2), (.lt .l0, 0xFFA00080), (.lb .l0, 0xFFA00100)])
      (fun t => t.cur.pc == 0xFFA00080 && t.readReg (.lc .l0) == 1) = true := by
  decide +kernel

/-- T-44-16, T-44-17, T-44-15. -/
theorem test_returns :
    gives .rtx ((regs [(.retx, 0xFFA00200)]).withIpend 0x0408)
      (fun t => t.cur.ev.ipend == 0x0400 && t.cur.pc == 0xFFA00200 && !t.user) &&
    gives .rti ((regs [(.reti, 0xFFA00200)]).withIpend 0x8410) (fun t => t.cur.ev.ipend == 0x8000 && t.cur.pc == 0xFFA00200) &&
    gives .rti (userRegs []) (fun t => t.cur.seqstat.excause == 0x2E && t.cur.retx == 0xFFA00100 && t.cur.ev.ipend == 8) =
      true := by
  decide +kernel

/-- T-45-1 to T-45-6. -/
theorem test_loads_stores :
    gives (.loadD .inc .r0 .p0) (bytes 0xFF800000 data (regs [(.p .p0, 0xFF800000)]))
      (fun t => t.d .r0 == 0x84332211 && t.p .p0 == 0xFF800004) &&
    gives (.loadWXOff .r0 .p0 1) (bytes 0xFF800000 data (regs [(.p .p0, 0xFF800000)])) (fun t => t.d .r0 == 0xFFFF8433) &&
    gives (.loadBZLong .r0 .p0 3) (bytes 0xFF800000 data (regs [(.p .p0, 0xFF800000)])) (fun t => t.d .r0 == 0x84) &&
    gives (.storeW .keep .p0 .r0) (bytes 0xFF800000 data (regs [(.p .p0, 0xFF800000), (.d .r0, 0xAABBCCDD)]))
      (fun t => t.seen 0xFF800000 == some 0xDD && t.seen 0xFF800001 == some 0xCC &&
        t.seen 0xFF800002 == some 0x33) &&
    gives (.loadDOff .r0 .p0 1) ((regs [(.p .p0, 0xFF800002)]).withIpend 0x8000)
      (fun t => t.cur.seqstat.excause == 0x24 && t.cur.retx == 0xFFA00100 && t.d .r0 == 0) = true := by
  decide +kernel

/-- T-45-10, T-45-12, T-45-13, T-45-16, T-45-19, T-45-21. -/
theorem test_index :
    gives (.storeHiI .inc .n0 .r0) (regs [(.i .n0, 0xFF800000), (.d .r0, 0x12345678)])
      (fun t => t.seen 0xFF800000 == some 0x34 && t.seen 0xFF800001 == some 0x12 && t.i .n0 == 0xFF800002) &&
    gives (.loadDI .inc .r0 .n0) (regs [(.i .n0, 0xFF80000C), (.b .n0, 0xFF800000), (.l .n0, 0x10)])
      (fun t => t.i .n0 == 0xFF800000) &&
    gives (.addIM .n0 .n1) (regs [(.i .n0, 0xFF800004), (.b .n0, 0xFF800000), (.l .n0, 0x10), (.m .n1, 0xFFFFFFF8)])
      (fun t => t.i .n0 == 0xFF80000C) &&
    gives (.addIMBrev .n0 .n0) (regs [(.i .n0, 4), (.m .n0, 8)]) (fun t => t.i .n0 == 0xC) &&
    gives (.loadD .keep .r0 .p0) (userRegs [(.p .p0, 0xFFE02104)]) (fun t => t.cur.seqstat.excause == 0x23) &&
    gives (.loadD .keep .r0 .p0) ((regs [(.p .p0, 0xFF400000)]).withIpend 0x8000)
      (fun t => t.cur.seqstat.excause == 0x23) = true := by
  decide +kernel

/-- T-46-1, T-46-3, T-46-5, T-46-14. -/
theorem test_stack :
    gives (.pushReg (.d .r0)) (regs [(.p .sp, 0xFF904000), (.d .r0, 0x12345678)])
      (fun t => t.p .sp == 0xFF903FFC && t.word 0xFF903FFC == 0x12345678) &&
    gives (.pushMulti ⟨some .r5, some .p3⟩) (regs [(.p .sp, 0xFF904000), (.d .r5, 5), (.d .r7, 7), (.p .p3, 13), (.p .p5, 15)])
      (fun t => t.p .sp == 0xFF903FE8 && t.word 0xFF903FFC == 5 && t.word 0xFF903FF4 == 7 && t.word 0xFF903FF0 == 13 &&
        t.word 0xFF903FE8 == 15) &&
    gives (.link 4) (regs [(.p .sp, 0xFF904000), (.p .fp, 0xFF905000), (.rets, 0xFFA00010)])
      (fun t => t.word 0xFF903FFC == 0xFFA00010 && t.word 0xFF903FF8 == 0xFF905000 && t.p .fp == 0xFF903FF8 &&
        t.p .sp == 0xFF903FE8) &&
    gives (.pushReg .reti) ((regs [(.p .sp, 0xFF904000)]).withIpend 0x0410) (fun t => t.cur.ev.ipend == 0x0400) = true := by
  decide +kernel

/-- T-46-7 to T-46-13. -/
theorem test_system :
    gives (.cli .r0) (regs []) (fun t => t.d .r0 == 0x1F && t.cur.ev.imask == 0x1F) &&
    gives (.sti .r0) (regs [(.d .r0, 0xC01F)]) (fun t => t.cur.ev.imask == 0xC01F) &&
    gives (.cli .r0) (userRegs []) (fun t => t.cur.seqstat.excause == 0x2E) &&
    gives (.raiseInt 10) (regs []) (fun t => t.cur.ev.ilat == 0x0400) &&
    gives (.excpt 5) (userRegs []) (fun t => t.cur.seqstat.excause == 5 && t.cur.retx == 0xFFA00102 && t.cur.ev.ipend == 8) &&
    gives (.excpt 5) ((regs []).withIpend 8) (fun t => t.cur.seqstat.excause == 0x25 && t.cur.retx == 0xFFA00100) &&
    gives (.testset .p0) (bytes 0xFEB00000 [0x05, 0] (regs [(.p .p0, 0xFEB00000)]))
      (fun t => !t.flag .cc && t.mem.read 0xFEB00000 == some 0x85) &&
    (match exec (.testset .p0) (bytes 0xFF800000 [0, 0] (regs [(.p .p0, 0xFF800000)])) with
      | .refused r => r == .testsetTarget
      | _ => false) = true := by
  decide +kernel

/-! ## The step -/

/-- `R0 += 1` fetched and run as the first instruction after reset; a word that is no instruction raises 0x21 inside the
reset routine, which is a double fault (60_exceptions.md R1727). -/
theorem test_step_first :
    (match step (State.reset.withFetchWord 16 0x6408) with
      | .next t => t.d .r0 == 1 && t.cur.pc == 0x20000002
      | _ => false) = true := by
  decide +kernel

/-- Until something is placed in memory, the fetch of the first instruction finds no byte and the step faults
(log entry 12). -/
theorem test_step_reset : (match step State.reset with | .fault _ => true | _ => false) = true := by
  decide +kernel

/-! ## Witnesses: states and operands that meet the hypotheses of the statements -/

/-- Supervisor mode, at level 15, no exception in service. -/
def sup (l : List (AllReg × Word)) : State := (regs l).withIpend 0x8000

/-- The same with the bytes of a code at the pc, in L1 instruction SRAM. -/
def code (l : List Byte) : State := stores 0xFFA00100 l.length (l.foldr (fun b n => b.toNat + 256 * n) 0) (sup [])

/-- The part of an instruction stream that a slot of a bundle is. -/
def inSlot (s : State) : State := { s with issue := { s.issue with slot := .slot1 } }

/-- The same registers one way into a loop whose bottom is at the pc. -/
def loops (lc1 lc0 : Word) (at1 at0 : Bool) : State :=
  sup [(.lc .l1, lc1), (.lt .l1, 0xFFA00040), (.lb .l1, if at1 then 0xFFA00100 else 0xFFA00200),
    (.lc .l0, lc0), (.lt .l0, 0xFFA00080), (.lb .l0, if at0 then 0xFFA00100 else 0xFFA00200)]

theorem witness_DecodeEncode : (Instr.addDreg .r2 .r0 .r1).spelled = true ∧ (Instr.addDreg .r2 .r0 .r1).wf = true ∧
    (Instr.asrImmVec .r1 .r2 0x30).spelled = true := by
  decide +kernel

theorem witness_DecodedWellFormed :
    decode (encodeBytes (.addDreg .r2 .r0 .r1)) = .single (.addDreg .r2 .r0 .r1) 2 ∧
    decode ([0xC803, 0x0801, 0x9C20, 0x9C29].flatMap unitBytes) =
      .bundle (.macA0Add .fr ⟨.lo, .lo, .r0, .r1⟩) (.loadLoI .inc .r0 .n0) (.loadLoI .inc .r1 .n1) := by
  decide +kernel

theorem witness_BundleDecodes :
    let i0 : Instr := .macA0Add .fr ⟨.lo, .lo, .r0, .r1⟩
    let i1 : Instr := .loadLoI .inc .r0 .n0
    let i2 : Instr := .loadLoI .inc .r1 .n1
    i0.spelled = true ∧ i1.spelled = true ∧ i2.spelled = true ∧ encode i0 = [0xC003, 0x0801] ∧ 0xC000 ≤ 0xC003 ∧ 0xC003 < 0xC800 ∧
      encode i1 = [0x9C20] ∧ encode i2 = [0x9C29] ∧ i1.slot1Ok = true ∧ i2.slot2Ok = true ∧
      ¬ (i1.isStore16 = true ∧ i2.isStore16 = true) := by
  decide +kernel

/-- `R0 += 1` (6408) at the pc; the clause on a refused instruction: EMUEXCPT (0025); a branch (1802) whose two paths meet no
instruction. -/
theorem witness_StepRunsDecoded :
    (code [0x08, 0x64]).quietCore ∧ decode [0x08, 0x64] = .single (.addDregImm7 .r0 1) 2 ∧
    (code [0x08, 0x64]).codeAt [0x08, 0x64] ∧ (code [0x08, 0x64]).cur.synced = false ∧
    (code [0x08, 0x64]).otherPath (.single (.addDregImm7 .r0 1) 2) = none ∧
    gives (.addDregImm7 .r0 1) (code [0x08, 0x64])
      (fun t => t.issue == .idle && !t.cur.perf.ctl.getLsbD 0 && !t.cur.syscfg.ssstep) = true ∧
    (code [0x25, 0x00]).quietCore ∧ decode [0x25, 0x00] = .single .emuexcpt 2 ∧
    (code [0x25, 0x00]).codeAt [0x25, 0x00] ∧ (code [0x25, 0x00]).otherPath (.single .emuexcpt 2) = none ∧
    (match exec .emuexcpt (code [0x25, 0x00]) with | .refused r => r == .emulation | _ => false) = true ∧
    (code [0x02, 0x18]).codeAt [0x02, 0x18] ∧ decode [0x02, 0x18] = .single (.brcc 2) 2 ∧
    (code [0x02, 0x18]).otherPath (.single (.brcc 2) 2) = some 0xFFA00104 ∧
    pathGhosts 8 ((code [0x02, 0x18]).setPc 0xFFA00104) = [] ∧ (code [0x08, 0x64]).aheads = [] := by
  unfold State.quietCore State.codeAt State.perfOff State.traceOff
  decide +kernel

/-- `R0 = [P0]; R1 = [P1]` (9100, 9109): the second load may be made ahead of the first. -/
theorem witness_StepRunsDecoded_ahead :
    let s := code [0x00, 0x91, 0x09, 0x91]
    let t := (s.writeReg (.p .p0) 0xFF800000).writeReg (.p .p1) 0xFF800010
    t.quietCore ∧ decode [0x00, 0x91] = .single (.loadD .keep .r0 .p0) 2 ∧ t.codeAt [0x00, 0x91] ∧ t.cur.synced = false ∧
    t.otherPath (.single (.loadD .keep .r0 .p0) 2) = none ∧
    t.aheads = [⟨[0xFFA00100, 0xFFA00102], 0xFF800010, 4, 0⟩] := by
  unfold State.quietCore State.codeAt State.perfOff State.traceOff
  decide +kernel

/-- The undefined unit 3904. -/
theorem witness_UndefinedTraps :
    (code [0x04, 0x39]).quietCore ∧ (code [0x04, 0x39]).canTrap ∧ decode [0x04, 0x39] = .undefined ∧
    2 = unitLen (unitOf 0x04 0x39) ∧ (code [0x04, 0x39]).codeAt [0x04, 0x39] ∧
    (code [0x04, 0x39]).cur.synced = false := by
  unfold State.quietCore State.codeAt State.perfOff State.traceOff State.canTrap
  decide +kernel

/-- The first clause, off the bottom of every loop and at a bottom whose count has run out. -/
theorem witness_HardwareLoop_sequential : (sup []).issue.slot = .single ∧ (loops 2 2 false false).noLoopEnd ∧
    (loops 0 0 true true).noLoopEnd := by
  unfold State.noLoopEnd Core.atBottom
  decide +kernel

/-- A witness for each of the other clauses, at counts of 2, 1 and 0. -/
theorem witness_HardwareLoop :
    let w (s : State) (at1 : Bool) (lc1 : Word) (at0 : Bool) (lc0 : Word) : Prop := s.issue.slot = .single ∧
      decide (s.cur.pc = s.cur.loop1.lb) = at1 ∧ s.cur.loop1.lc = lc1 ∧ decide (s.cur.pc = s.cur.loop0.lb) = at0 ∧
      s.cur.loop0.lc = lc0
    w (loops 2 2 true true) true 2 true 2 ∧ w (loops 1 2 true true) true 1 true 2 ∧
    w (loops 1 1 true true) true 1 true 1 ∧ w (loops 0 2 true true) true 0 true 2 ∧
    w (loops 2 2 false true) false 2 true 2 ∧ w (loops 1 0 true true) true 1 true 0 ∧
    w (loops 2 2 false false) false 2 false 2 := by
  decide +kernel

theorem witness_SequencerFrame : (inSlot (sup [])).issue.slot ≠ .single ∧ (sup []).perfOff := by
  unfold State.perfOff
  decide +kernel

/-- Between data registers in User mode; to a Supervisor register in Supervisor mode. -/
theorem witness_MoveRegister :
    moveLegal (.d .r0) (.d .r1) = true ∧ supervisorDest (.d .r0) = false ∧ supervisorReg (.d .r1) = false ∧
    (userRegs []).user = true ∧ moveLegal .reti (.p .p1) = true ∧ (sup []).user = false := by
  decide +kernel

/-- An even register, for the forms with a register pair (ExtractWord, Multiply, MultiplyAccumulate, DualMac). -/
theorem witness_ExtractWord : DReg.even .r2 = true := by decide

theorem witness_Multiply : (true = false ∨ DReg.even .r2 = true) ∧ (false = false ∨ DReg.even .r1 = true) := by decide

theorem witness_MultiplyAccumulate : DReg.even .r6 = true := by decide

/-- The pair form with a write needs an even register; without a write, or with halves, any will do. -/
theorem witness_DualMac :
    let u : MacUnit := ⟨.add, true, ⟨.lo, .hi⟩⟩
    let n : MacUnit := ⟨.sub, false, ⟨.lo, .hi⟩⟩
    (true = false ∨ (u.write || n.write) = false ∨ DReg.even .r2 = true) ∧
    (true = false ∨ (n.write || n.write) = false ∨ DReg.even .r1 = true) ∧
    (false = false ∨ (u.write || n.write) = false ∨ DReg.even .r1 = true) := by
  decide

/-- Two different destinations (PackedSums), two different registers (FieldsAndPacking). -/
theorem witness_PackedSums : DReg.r3 ≠ DReg.r2 := by decide

theorem witness_FieldsAndPacking : DReg.r0 ≠ DReg.r1 := by decide

/-- The conditions that the moves of CC name: CC 1 and CC 0. -/
theorem witness_MoveConditionalAndParts : (sup [(.astat, 0x20)]).flag .cc = true ∧ (sup []).flag .cc = false := by
  decide +kernel

theorem witness_JumpsAndCalls :
    (sup []).traceOff ∧ (sup []).cur.pc.getLsbD 0 = false ∧ (sup []).issue.slot = .single ∧
    ((sup [(.p .p3, 0xFFA02000)]).p .p3).getLsbD 0 = false ∧
    ((sup [(.p .p1, 0x10)]).cur.pc + (sup [(.p .p1, 0x10)]).p .p1).getLsbD 0 = false ∧
    (sup [(.rets, 0xFFA00104)]).cur.rets.getLsbD 0 = false := by
  unfold State.traceOff
  decide +kernel

/-- The last line: in the lowest interrupt, in an exception and in the NMI, with nothing else in service. -/
theorem witness_OddTargets :
    let s := sup [(.p .p3, 0xFFA02001), (.rets, 0xFFA00105), (.reti, 0xFFA00201), (.retx, 0xFFA00203), (.retn, 0xFFA00205)]
    s.canTrap ∧ (s.p .p3).getLsbD 0 = true ∧ (s.cur.pc + s.p .p3).getLsbD 0 = true ∧ s.cur.rets.getLsbD 0 = true ∧
    s.issue.slot = .single ∧ s.cur.reti.getLsbD 0 = true ∧ s.cur.retx.getLsbD 0 = true ∧ s.cur.retn.getLsbD 0 = true ∧
    s.serves 15 ∧ (s.withIpend 8).serves 3 ∧ (s.withIpend 4).serves 2 ∧
    s.cur.ev.ipend &&& ~~~ BitVec.ofNat 16 (2 ^ 15) &&& 0xF = 0 ∧ (8 : HWord) &&& ~~~ BitVec.ofNat 16 (2 ^ 3) &&& 0xF = 0 ∧
    (4 : HWord) &&& ~~~ BitVec.ofNat 16 (2 ^ 2) &&& 0xF = 0 := by
  unfold State.canTrap State.serves
  decide +kernel

/-- In the exception of T-44-16, and in the lowest and the highest interrupt. -/
theorem witness_EventReturns :
    let s := (regs []).withIpend 0x0408
    s.traceOff ∧ s.serves 3 ∧ s.cur.reti.getLsbD 0 = false ∧ s.cur.retx.getLsbD 0 = false ∧
    s.cur.retn.getLsbD 0 = false ∧ (sup []).serves 15 ∧ ((regs []).withIpend 0x0012).serves 1 := by
  unfold State.traceOff State.serves
  decide +kernel

theorem witness_BranchesAndLoopSetup : (sup []).traceOff ∧ (sup []).perfOff ∧ (sup []).cur.pc.getLsbD 0 = false := by
  unfold State.traceOff State.perfOff
  decide +kernel

theorem witness_SupervisorTraps :
    let s := userRegs [(.p .p0, 0xFFE02104), (.p .p1, 0xFFC00000)]
    s.canTrap ∧ s.user = true ∧ moveLegal (.d .r2) .syscfg = true ∧ supervisorReg .syscfg = true ∧
    moveLegal .cycles (.d .r2) = true ∧ supervisorDest .cycles = true ∧
    s.access (.storeD .inc .p0 .r1) = some (0xFFE02104, 4, true) ∧ 0xFFE02104 % 4 = 0 ∧ 0xFFC00000 ≤ 0xFFE02104 ∧
    s.access (.loadWZ .keep .r1 .p1) = some (0xFFC00000, 2, false) ∧ 0xFFC00000 % 2 = 0 ∧
    s.cur.dmem.endcplb = false := by
  unfold State.canTrap
  decide +kernel

theorem witness_IllegalCombinations : (sup []).canTrap ∧ moveLegal .syscfg (.i .n0) = false ∧ DReg.even .r1 = false ∧
    (true || false) = true := by
  unfold State.canTrap
  decide +kernel

/-- A page of 1 KB at 0xFF800000 that allows everything but what `bits` leaves out of its low bits, with the CPLBs on:
entry 0 for data and, at 0xFFA00000, for instructions; `twice`: entry 15 too. -/
def paged (bits : Word) (twice : Bool) (s : State) : State :=
  let v (a : Word) : Vector Cplb 16 :=
    let one := vset (Vector.replicate 16 ⟨0, 0⟩) 0 ⟨a, bits⟩
    if twice then vset one 15 ⟨a, bits⟩ else one
  s.setCur { s.cur with dmem := { s.cur.dmem with cplb := v 0xFF800000, endcplb := true }
                        imem := { s.cur.imem with cplb := v 0xFFA00000, enicplb := true } }

/-- Data accesses: two entries that match; one that forbids a read in User mode, a write in User mode, in Supervisor mode,
and to a clean write-back page; none; one that allows the access; and the scratchpad, which needs none. -/
theorem witness_CplbChecks :
    let rs : List (AllReg × Word) := [(.p .p0, 0xFF8003FC), (.p .p1, 0xFF800400), (.p .p2, 0xFFB00000)]
    let hit (s : State) : List Cplb := cplbHits s.cur.dmem.cplb 0xFF8003FC
    let two := paged 0x1D true (sup rs)
    let no := paged 0x01 false (userRegs rs)
    let yes := paged 0x1D false (sup rs)
    two.canTrap ∧ two.access (.loadD .inc .r0 .p0) = some (0xFF8003FC, 4, false) ∧ two.cur.dmem.endcplb = true ∧
    2 ≤ (hit two).length ∧ 0xFF8003FC % 4 = 0 ∧ two.cur.region 0xFF8003FC = .dataSram ∧
    no.canTrap ∧ no.user = true ∧ hit no = [⟨0xFF800000, 0x01⟩] ∧ (0x01 : Word).getLsbD 2 = false ∧
    (0x01 : Word).getLsbD 3 = false ∧ (0x01 : Word).getLsbD 4 = false ∧
    hit (paged 0x01 false (sup rs)) = [⟨0xFF800000, 0x01⟩] ∧ (0x101D : Word).getLsbD 12 = true ∧
    (0x101D : Word).getLsbD 14 = false ∧ (0x101D : Word).getLsbD 7 = false ∧
    hit (paged 0x101D false (sup rs)) = [⟨0xFF800000, 0x101D⟩] ∧
    yes.access (.storeD .keep .p1 .r0) = some (0xFF800400, 4, true) ∧ cplbHits yes.cur.dmem.cplb 0xFF800400 = [] ∧
    yes.cur.region 0xFF800400 = .dataSram ∧
    hit yes = [⟨0xFF800000, 0x1D⟩] ∧ (0x1D : Word).getLsbD 12 = false ∧ (0x1D : Word).getLsbD 2 = true ∧
    (0x1D : Word).getLsbD 3 = true ∧ (0x1D : Word).getLsbD 4 = true ∧ yes.p .p0 = 0xFF8003FC ∧
    cplbHits yes.cur.dmem.cplb (yes.p .p2) = [] ∧ yes.cur.region (yes.p .p2).toNat = .scratchpad ∧
    yes.cur.wp.iactl.getLsbD 0 = false ∧ yes.issue.clash = none ∧ yes.cur.earlyRead 0xFF8003FC 4 = none := by
  unfold State.canTrap
  decide +kernel

/-- One entry for the page of 1 KB at `one`, two for the page at `two`. -/
def twoPages (one two : Word) (s : State) : State :=
  let v : Vector Cplb 16 := vset (vset (vset (Vector.replicate 16 ⟨0, 0⟩) 0 ⟨one, 0x1D⟩) 14 ⟨two, 0x1D⟩) 15 ⟨two, 0x1D⟩
  s.setCur { s.cur with dmem := { s.cur.dmem with cplb := v, endcplb := true } }

/-- LINK and a push multiple whose second word lies in the page with two entries; a pop multiple and UNLINK whose second
does. -/
theorem witness_CplbChecks_second :
    let down := twoPages 0xFF800400 0xFF800000 (sup [(.p .sp, 0xFF800404)])
    let up := twoPages 0xFF800000 0xFF800400 (sup [(.p .sp, 0xFF8003FC), (.p .fp, 0xFF8003FC)])
    let first (s : State) (x : Word) : Prop := s.canTrap ∧ s.cur.dmem.endcplb = true ∧ s.cur.wp.iactl.getLsbD 0 = false ∧
      s.issue.clash = none ∧ x.toNat % 4 = 0 ∧ s.cur.region x.toNat = .dataSram ∧ s.cur.earlyRead x.toNat 4 = none ∧
      (∃ e, cplbHits s.cur.dmem.cplb x = [e] ∧ e.data = 0x1D)
    first down (down.p .sp - 4) ∧ 2 ≤ (cplbHits down.cur.dmem.cplb (down.p .sp - 8)).length ∧
    2 ≤ (2 : BitVec 16).toNat ∧ multiList ⟨some .r6, none⟩ = [.d .r6, .d .r7] ∧
    first up (up.p .sp) ∧ 2 ≤ (cplbHits up.cur.dmem.cplb (up.p .sp + 4)).length ∧
    first up (up.p .fp) ∧ 2 ≤ (cplbHits up.cur.dmem.cplb (up.p .fp + 4)).length := by
  unfold State.canTrap
  refine ⟨⟨?_, ?_, ?_, ?_, ?_, ?_, ?_, ⟨⟨0xFF800400, 0x1D⟩, ?_, ?_⟩⟩, ?_, ?_, ?_,
    ⟨?_, ?_, ?_, ?_, ?_, ?_, ?_, ⟨⟨0xFF800000, 0x1D⟩, ?_, ?_⟩⟩, ?_,
    ⟨?_, ?_, ?_, ?_, ?_, ?_, ?_, ⟨⟨0xFF800000, 0x1D⟩, ?_, ?_⟩⟩, ?_⟩ <;> decide +kernel

/-- Fetches: two entries that match, data memory, none, and one that forbids User mode. -/
theorem witness_CplbChecks_fetch :
    let at_ (pc : Word) (s : State) : State := s.setPc pc
    let two := at_ 0xFFA00100 (paged 0x1D true (sup []))
    let data := at_ 0xFF800000 (paged 0x1D false (sup []))
    let none_ := at_ 0xFFA00400 (paged 0x1D false (sup []))
    let no := at_ 0xFFA003FE (paged 0x01 false (userRegs []))
    (∀ s ∈ [two, data, none_, no], s.quietCore ∧ s.canTrap ∧ s.cur.imem.enicplb = true ∧ s.cur.pc.getLsbD 0 = false) ∧
    2 ≤ (cplbHits two.cur.imem.cplb two.cur.pc).length ∧ data.cur.region data.cur.pc.toNat = .dataSram ∧
    cplbHits none_.cur.imem.cplb none_.cur.pc = [] ∧ none_.cur.region none_.cur.pc.toNat = .instSram ∧
    cplbHits no.cur.imem.cplb no.cur.pc = [⟨0xFFA00000, 0x01⟩] ∧ no.user = true ∧
    no.cur.region no.cur.pc.toNat = .instSram := by
  unfold State.canTrap State.quietCore State.perfOff State.traceOff
  decide +kernel

/-- The scratchpad and L1 data SRAM, first and last words. -/
theorem witness_LoadsPostModified :
    let s := sup [(.p .p0, 0xFFB00000), (.p .p1, 0xFF800000), (.p .p2, 0xFF907FFC)]
    s.plain (s.p .p0) 4 ∧ s.plain (s.p .p1) 4 ∧ s.plain (s.p .p2) 4 ∧ s.plain (s.p .p2) 2 ∧ s.plain (s.p .p2) 1 ∧
    (PReg.p3 ≠ .p0 ∨ PostMod.inc = .keep) ∧ (PReg.p0 ≠ .p0 ∨ PostMod.keep = .keep) := by
  unfold State.plain
  decide +kernel

theorem witness_LoadsOffset :
    let s := sup [(.p .p0, 0xFF800000), (.p .fp, 0xFF800080)]
    s.plain (s.p .p0 + BitVec.ofNat 32 (4 * 15)) 4 ∧ s.plain (s.p .p0 + BitVec.ofNat 32 (2 * 15)) 2 ∧
    s.plain (s.p .p0 + BitVec.ofInt 32 (4 * 0x3F)) 4 ∧ s.plain (s.p .p0 + BitVec.ofInt 32 (2 * 0x7F)) 2 ∧
    s.plain (s.p .p0 + BitVec.ofInt 32 0x7FF) 1 ∧ s.plain (s.p .fp - BitVec.ofNat 32 (4 * (32 - 0))) 4 ∧
    s.plain (s.p .fp - BitVec.ofNat 32 (4 * (32 - 31))) 4 := by
  unfold State.plain
  decide +kernel

theorem witness_LoadsIndexed :
    let s := sup [(.p .p0, 0xFF800000), (.p .p1, 8), (.i .n0, 0xFF80000C)]
    s.plain (s.p .p0) 4 ∧ PReg.p0 ≠ .p1 ∧ s.plain (s.p .p0) 2 ∧ s.plain (s.i .n0) 2 ∧
    s.plain (if s.issue.noAlign then s.i .n0 &&& 0xFFFFFFFC else s.i .n0) 4 ∧
    (let t := { sup [(.i .n0, 0xFF80000E)] with issue := { s.issue with noAlign := true } }
     t.plain (if t.issue.noAlign then t.i .n0 &&& 0xFFFFFFFC else t.i .n0) 4) := by
  unfold State.plain
  decide +kernel

theorem witness_Stores :
    let s := sup [(.p .p0, 0xFF800000), (.p .p1, 8), (.i .n0, 0xFF80000C), (.p .fp, 0xFF800080)]
    PReg.p0 ≠ .p1 ∧ ∀ x ∈ [(s.p .p0, 4), (s.p .p0, 2), (s.p .p0, 1), (s.p .p0 + BitVec.ofNat 32 (4 * 15), 4),
      (s.p .p0 + BitVec.ofNat 32 (2 * 15), 2), (s.p .p0 + BitVec.ofInt 32 (4 * 0x3F), 4),
      (s.p .p0 + BitVec.ofInt 32 (2 * 0x7F), 2), (s.p .p0 + BitVec.ofInt 32 0x7FF, 1),
      (s.p .fp - BitVec.ofNat 32 (4 * (32 - 31)), 4), (s.i .n0, 4), (s.i .n0, 2)], s.plain x.1 x.2 := by
  unfold State.plain
  decide +kernel

theorem witness_MisalignedTraps :
    let s := sup [(.p .p0, 0xFF800001), (.p .p1, 0xFF800002), (.i .n0, 0xFF800003), (.p .sp, 0xFF904002)]
    s.canTrap ∧ s.cur.dmem.endcplb = false ∧ s.access (.loadP .dec .p2 .p1) = some (0xFF800002, 4, false) ∧
    s.access (.storeWLong .p0 0x7FFF .r1) = some (0xFF80FFFF, 2, true) ∧
    s.access (.loadDIM .r0 .n0 .n1) = some (0xFF800003, 4, false) ∧
    s.access (.pushReg .reti) = some (0xFF903FFE, 4, true) ∧ s.access (.popReg .astat) = some (0xFF904002, 4, false) ∧
    0xFF800002 % 4 ≠ 0 ∧ 0xFF80FFFF % 2 ≠ 0 ∧ 0xFF800003 % 4 ≠ 0 ∧ 0xFF903FFE % 4 ≠ 0 ∧ 0xFF904002 % 4 ≠ 0 := by
  unfold State.canTrap
  decide +kernel

/-- Two index registers, one of them kept, at neighbouring words; a store and a load that touch; a misaligned load. -/
theorem witness_BundleExecutes :
    let s := sup [(.p .p0, 0xFF800008), (.i .n0, 0xFF800000), (.i .n1, 0xFF800004), (.i .n2, 0xFF800002)]
    s.issue.slot = .single ∧ s.issue.noAlign = false ∧ DagN.n0 ≠ .n1 ∧ (DagN.n0 ≠ .n0 ∨ PostMod.keep = .keep) ∧
    DReg.r0 ≠ .r1 ∧ DReg.r0 ≠ .r2 ∧ DReg.r1 ≠ .r2 ∧ PostMod.inc ≠ .keep ∧ s.canTrap ∧
    s.plain (s.i .n0) 4 ∧ s.plain (s.i .n1) 4 ∧ s.plain (s.i .n2) 2 ∧ s.plain (s.p .p0) 4 ∧
    (s.i .n1).toNat + 4 ≤ (s.p .p0).toNat ∧ (s.i .n2).toNat % 4 ≠ 0 := by
  unfold State.plain State.canTrap
  decide +kernel

/-- The state with the asynchronous bank 0 as the accesses need it: enabled, with a setup and a read time, without ARDY. -/
def bank (s : State) : State := s.setEbiu { s.sys.ebiu with amgctl := 0x00FF, ambctl0 := 0x11101110 }

/-- A word in L2 and one in asynchronous bank 0; two pending stores that do not overlap, of which either may go first, and
two that do; the last bytes of L2. -/
theorem witness_PendingStores :
    let s := bank (sup [(.p .p0, 0xFEB00000), (.p .p1, 0x20000000), (.p .p2, 0xFEB1FFFF)])
    s.behind (s.p .p0) 4 ∧ s.behind (s.p .p1) 4 ∧ s.behind (s.p .p1) 2 ∧ s.behind (s.p .p2) 1 ∧ s.cur.progress = [] ∧
    s.cur.region (s.p .p1).toNat = .external ∧ s.board = [] ∧ s.inputs = [] ∧ s.bankReady (s.p .p1).toNat 0 ∧
    drainable [⟨0xFEB00000, 4, 0⟩, ⟨0xFEB00004, 4, 0⟩, ⟨0xFEB00006, 2, 0⟩] = [0, 1] ∧
    drainable [⟨0xFFC00400, 2, 0⟩, ⟨0xFFE02104, 4, 0⟩, ⟨0xFFC00404, 2, 0⟩, ⟨0xFF800000, 1, 0⟩] = [0, 3] ∧
    s.cur.region 0xFEB1FFFC = .l2 ∧ 0xFEB1FFFC + 4 ≤ 2 ^ 32 ∧ s.cur.region 0xFF800000 = .dataSram ∧
    s.cur.region 0xFFB00FFF = .scratchpad ∧ 0xFFB00FFF + 1 ≤ 2 ^ 32 := by
  unfold State.behind State.bankReady
  decide +kernel

/-- A load that has been made ahead, of a word that was 7 then, by the instruction at the pc. -/
theorem witness_PendingStores_ahead :
    let s := sup [(.p .p0, 0xFEB00000)]
    let t := s.setCur { s.cur with early := [⟨[0xFFA00100], 0xFEB00000, 4, 7⟩] }
    (t.p .p0).toNat % 4 = 0 ∧ t.cur.dmem.endcplb = false ∧ t.cur.wp.iactl.getLsbD 0 = false ∧ t.issue.clash = none ∧
    t.cur.region (t.p .p0).toNat = .l2 ∧
    t.cur.earlyRead (t.p .p0).toNat 4 = some ⟨[0xFFA00100], 0xFEB00000, 4, 7⟩ ∧
    gives (.loadD .keep .r0 .p0) t (fun u => u.d .r0 == 7) = true := by
  decide +kernel

/-- For each clause: no length; up, one short of the end and at the end; down, at the base and one below it; and the
largest step that may stay in the buffer. -/
theorem witness_IndexArithmetic :
    let b : Word := 0xFF800000
    let l : Word := 0x10
    let t (i : Word) (m : Int) : Int := i.toNat + m
    l ≠ 0 ∧ t 0xFF80000C 3 < b.toNat + l.toNat ∧ (b.toNat : Int) + l.toNat ≤ t 0xFF80000C 4 ∧
    (b.toNat : Int) ≤ t 0xFF800004 (-4) ∧ t 0xFF800004 (-5) < b.toNat ∧
    b ≤ (0xFF80000F : Word) ∧ (0xFF80000F : Word).toNat < b.toNat + l.toNat ∧ b.toNat + l.toNat ≤ 2 ^ 32 ∧
    (16 : Int).natAbs ≤ l.toNat := by
  decide +kernel

/-- The state with a line fill of the data cache under way, over which a store has been made or not. -/
def fills (ps : List PendStore) (s : State) : State :=
  s.setCur { s.cur with dfill := some ⟨0xFEB00000, 0, false, [], ps, false⟩ }

/-- The cases that wait: a pending store to a core MMR or to L1 memory; pending stores to L2 and to a system MMR, for
which CSYNC does not wait; a line fill, for which CSYNC waits where a store has been made to the line. -/
theorem witness_SystemInstructions : (sup []).perfOff ∧ (sup []).user = false ∧ (sup []).cur.stores = [] ∧
    (sup []).cur.dfill = none ∧ (sup []).cur.ifill = none ∧
    (match (fills [] (sup [])).cur.dfill with | some f => f.stores == [] | none => false) = true ∧
    (match (fills [⟨0xFEB00004, 4, 0⟩] (sup [])).cur.dfill with | some f => f.stores != [] | none => false) = true ∧
    (sup []).staleLine (sup []).cur.id = false ∧
    ((sup []).pend 0xFFE02104 4 0).cur.stores = [⟨0xFFE02104, 4, 0⟩] ∧
    ((sup []).pend 0xFF907FFF 1 0).cur.stores = [⟨0xFF907FFF, 1, 0⟩] ∧
    (∀ q ∈ (((sup []).pend 0xFEB00000 4 0).pend 0xFFC00400 2 0).cur.stores,
      ¬((0xFF400000 ≤ q.addr ∧ q.addr < 0xFFC00000) ∨ 0xFFE00000 ≤ q.addr)) ∧
    ((2 : BitVec 4) = 2 ∨ 6 ≤ (2 : BitVec 4).toNat) ∧ ((15 : BitVec 4) = 2 ∨ 6 ≤ (15 : BitVec 4).toNat) := by
  unfold State.perfOff
  decide +kernel

theorem witness_EventEntry : (userRegs []).canTrap ∧ (2 = 2 ∨ (5 ≤ 2 ∧ 2 < 16)) ∧ (15 = 2 ∨ (5 ≤ 15 ∧ 15 < 16)) ∧
    (5 = 2 ∨ (5 ≤ 5 ∧ 5 < 16)) := by
  unfold State.canTrap
  decide +kernel

/-- An idle core at level 15 with interrupt 7 latched by RAISE and enabled; the NMI; an interrupt that IPEND[4] holds off. -/
def latched (x : HWord) (idle : Bool) : State :=
  let s := sup []
  s.setCur { s.cur with idle := idle, ev := { s.cur.ev with ilat := x, raised := x, imask := 0xFFFF } }

theorem witness_EventChoice :
    let s := latched 0x8080 true
    s.turns = [.current] ∧ s.cur.idle = true ∧ s.cur.takeable = some 7 ∧ (7 = 2 ∨ 5 ≤ 7) ∧ s.cur.waiting = none ∧
    s.cur.syscfg.ccen = false ∧ s.perfOff ∧ s.traceOff ∧ s.issue = .idle ∧
    (latched 0x0084 true).cur.takeable = some 2 ∧ (latched 0x0084 true).turns = [.current] ∧
    (latched 0x8000 false).cur.takeable = none ∧ ((latched 0x0080 false).withIpend 0x8010).cur.takeable = none ∧
    (latched 0x0080 false).cur.takeable = some 7 ∧ (latched 0x0080 false).cur.ev.raised.getLsbD 7 = true := by
  unfold State.perfOff State.traceOff
  decide +kernel

theorem witness_DoubleFault :
    let s := (regs [(.p .p0, 0xFF800002)]).withIpend 0x0008
    s.issue.slot = .single ∧ s.cur.inException = true ∧ s.sys.ctl.dfEnabled s.cur.id = false ∧
    s.access (.loadD .inc .r0 .p0) = some (0xFF800002, 4, false) ∧ 0xFF800002 % 4 ≠ 0 ∧ s.cur.dmem.endcplb = false ∧
    s.perfOff := by
  unfold State.perfOff
  decide +kernel

/-- In L2, in asynchronous bank 0, and in SDRAM bank 0 with the timing fields of a device. -/
theorem witness_TestsetAndCacheControl :
    let s := bank (sup [(.p .p0, 0xFEB1FFFE), (.p .p1, 0x20000000), (.p .p2, 0xFF800000), (.p .p3, 0)])
    let t := s.setEbiu { s.sys.ebiu with powered := true, sdbctl := 1, sdgctl := 0x0091998D }
    (∀ p ∈ [PReg.p0, .p1, .p3], (s.p p).getLsbD 0 = false ∧ s.cur.pendingIn (s.p p).toNat 1 = false) ∧
    s.cur.dmem.endcplb = false ∧ s.cur.wp.iactl.getLsbD 0 = false ∧ s.cur.region (s.p .p0).toNat = .l2 ∧
    s.cur.region (s.p .p1).toNat = .external ∧ s.extMap (s.p .p1).toNat = (.ram, (s.p .p1).toNat) ∧
    s.bankReady (s.p .p1).toNat 0 ∧
    t.cur.region (t.p .p3).toNat = .external ∧ t.extMap (t.p .p3).toNat = (.ram, (t.p .p3).toNat) ∧
    t.sys.ebiu.extClass (t.p .p3).toNat = .sdram 0 ∧ t.sys.ebiu.timingOk = true ∧ t.sys.ebiu.granted = false ∧
    t.sys.ebiu.busy = none ∧
    s.cur.region (s.p .p2).toNat = .dataSram ∧ s.cur.filling (s.p .p2).toNat = none ∧
    s.cur.dmem.hitWay (s.p .p2).toNat = none ∧ s.cur.imem.hitWay (s.p .p2).toNat = none ∧ s.cur.ifill = none := by
  unfold State.bankReady
  decide +kernel

/-- The state in which both caches hold the line of an address, the data cache's dirty. -/
def held (a : Nat) (s : State) : State :=
  s.setCur { s.cur with
    dmem := { s.cur.dmem with lines := [(s.cur.dmem.key a 0, ⟨true, true, false, dataTag a, 5, 0, false⟩)] }
    imem := { s.cur.imem with lines := [(instKey a 3, ⟨true, false, false, instTag a, 0, 0, false⟩)] } }

/-- A line that the caches hold, in L2; a FLUSH leaves the whole line pending at its own address. -/
theorem witness_TestsetAndCacheControl_held :
    let s := held 0xFEB07C64 (sup [(.p .p0, 0xFEB07C64)])
    s.cur.dmem.endcplb = false ∧ s.cur.region (s.p .p0).toNat = .l2 ∧ s.cur.filling (s.p .p0).toNat = none ∧
    s.cur.dmem.hitWay (s.p .p0).toNat = some 0 ∧ s.cur.ifill = none ∧ s.cur.imem.hitWay (s.p .p0).toNat = some 3 ∧
    gives (.flush true .p0) s (fun t => t.cur.stores == [⟨0xFEB07C60, 32, 5⟩] && t.p .p0 == 0xFEB07C84 &&
      t.cur.dmem.hitWay 0xFEB07C64 == some 0) = true ∧
    gives (.flushinv false .p0) s (fun t => t.cur.dmem.hitWay 0xFEB07C64 == none) = true := by
  decide +kernel

theorem witness_PushPopRegister_push :
    let s := sup [(.p .sp, 0xFF904000)]
    let u := userRegs [(.p .sp, 0xFF904000)]
    AllReg.reti ≠ .emudat ∧ s.user = false ∧ s.plain (s.p .sp - 4) 4 ∧ u.user = true ∧
    supervisorReg (.d .r0) = false ∧ u.plain (u.p .sp - 4) 4 := by
  unfold State.plain
  decide +kernel

theorem witness_PushPopRegister :
    let s := sup [(.p .sp, 0xFF904000)]
    let u := userRegs [(.p .sp, 0xFF904000)]
    AllReg.reti ≠ .emudat ∧ AllReg.reti ≠ .p .sp ∧ s.user = false ∧ s.plain (s.p .sp) 4 ∧ u.user = true ∧
    supervisorDest (.d .r0) = false ∧ u.plain (u.p .sp) 4 := by
  unfold State.plain
  decide +kernel

/-- All fourteen registers, pushed below and popped above SP; the frames of LINK and UNLINK. -/
theorem witness_StackFrames :
    let s := sup [(.p .sp, 0xFF904000), (.p .fp, 0xFF904000)]
    let m : MultiRegs := ⟨some .r0, some .p0⟩
    m.p.all PReg.inRange = true ∧ (multiList m).length = 14 ∧ PReg.p5.num ≤ 5 ∧ PReg.p0.num ≤ 5 ∧
    (∀ k, k < 14 → s.plain (s.p .sp - BitVec.ofNat 32 (4 * (k + 1))) 4) ∧
    (∀ k, k < 14 → s.plain (s.p .sp + BitVec.ofNat 32 (4 * k)) 4) ∧
    2 ≤ (2 : BitVec 16).toNat ∧ s.plain (s.p .sp - 8) 4 ∧ s.plain (s.p .fp) 4 ∧ s.plain (s.p .fp + 4) 4 := by
  unfold State.plain
  decide +kernel

/-- EVT0, EVT15, IMASK, IPEND and ILAT; a load of a register that a pending store writes; each store about to be
performed. -/
theorem witness_EventRegisters :
    let s := sup [(.p .p0, 0xFFE02000), (.p .p1, 0xFFE0203C), (.p .p2, 0xFFE02104), (.p .p3, 0xFFE02108),
      (.p .p4, 0xFFE0210C)]
    s.user = false ∧ s.issue.slot = .single ∧ s.issue.clash = none ∧ s.cur.dmem.endcplb = false ∧
    s.cur.wp.iactl.getLsbD 0 = false ∧ (s.p .p0).toNat = 0xFFE02000 + 4 * 0 ∧ (s.p .p1).toNat = 0xFFE02000 + 4 * 15 ∧
    (s.p .p2).toNat = 0xFFE02104 ∧ (s.p .p3).toNat = 0xFFE02108 ∧ (s.p .p4).toNat = 0xFFE0210C ∧
    (∀ p ∈ [PReg.p0, .p1, .p2, .p3, .p4], s.cur.earlyRead (s.p p).toNat 4 = none ∧
      ∀ k, k < 4 → pendByte s.cur.stores ((s.p p).toNat + k) = none) ∧
    covered (s.pend 0xFFE02104 4 7).cur.stores 0xFFE02104 4 = true ∧
    overlay (s.pend 0xFFE02104 4 7).cur.stores 0xFFE02104 4 0 = 7 ∧
    (s.pend 0xFFE0203C 4 7).cur.stores = [⟨0xFFE02000 + 4 * 15, 4, (7 : Word).toNat⟩] ∧
    (s.pend 0xFFE0210C 4 0xFFFFFFFF).cur.stores = [⟨0xFFE0210C, 4, (0xFFFFFFFF : Word).toNat⟩] := by
  decide +kernel

theorem witness_Stops :
    let s := sup [(.p .p0, 0xFF800000), (.p .p1, 0xFEB00001), (.p .p2, 0xFFC00510)]
    let t := code [0x80, 0x0A]
    t.quietCore ∧ decode [0x80, 0x0A] = .notDefined ∧ 2 = unitLen (unitOf 0x80 0x0A) ∧ t.codeAt [0x80, 0x0A] ∧
    t.cur.synced = false ∧ (1 : BitVec 16).toNat < 2 ∧ s.issue.slot = .single ∧ s.cur.region (s.p .p2).toNat = .sysMmr ∧
    moveLegal (.p .p5) .emudat = true ∧ moveLegal .emudat (.d .r0) = true ∧
    s.user = false ∧ (userRegs []).user = true ∧ PostMod.inc ≠ .keep ∧ s.cur.dmem.endcplb = false ∧
    s.cur.region (s.p .p0).toNat = .dataSram ∧ (s.p .p1).toNat % 2 = 1 ∧ s.cur.region (s.p .p1).toNat = .l2 ∧
    32 ≤ (0x20 : BitVec 6).toInt.natAbs ∧ 16 ≤ (0x10 : BitVec 6).toInt.natAbs ∧ 16 ≤ (0x30 : BitVec 6).toInt.natAbs := by
  unfold State.quietCore State.codeAt State.perfOff State.traceOff
  decide +kernel

/-- The least and the greatest counts in range. -/
theorem witness_ShiftsImmediate : (0x21 : BitVec 6).toInt.natAbs < 32 ∧ (0x1F : BitVec 6).toInt.natAbs < 32 ∧
    (0x31 : BitVec 6).toInt.natAbs < 16 ∧ (0x0F : BitVec 6).toInt.natAbs < 16 := by
  decide

theorem witness_RotatesAccumulatorShifts : (0x21 : BitVec 6).toInt.natAbs < 32 := by decide

/-- A store to IMASK waits in the core's buffer; when it is performed, IMASK has taken it (95_test_vectors.md has the word
that STI writes, T-46-3). -/
theorem test_pending_imask :
    gives (.storeD .keep .p0 .r0) (sup [(.p .p0, 0xFFE02104), (.d .r0, 0xC01F)])
      (fun t => t.cur.ev.imask == 0x001F && t.cur.stores == [⟨0xFFE02104, 4, 0xC01F⟩]) &&
    (match ((sup []).pend 0xFFE02104 4 0xC01F).drain with
      | .next t => t.cur.ev.imask == 0xC01F && t.cur.stores.isEmpty
      | _ => false) = true := by
  decide +kernel

/-- A store to L1 memory waits in the core's buffer, where the core sees it, and is in memory once it has been performed (R341:
the store buffer lies between the core and L1). -/
theorem test_pending_l1 :
    gives (.storeB .keep .p0 .r0) (sup [(.p .p0, 0xFFB00FFF), (.d .r0, 0x1234)]) (fun t =>
      t.mem.read 0xFFB00FFF == none && t.seen 0xFFB00FFF == some 0x34 &&
      (match t.drain with
        | .next u => u.mem.read 0xFFB00FFF == some 0x34 && u.cur.stores.isEmpty
        | _ => false)) = true := by
  decide +kernel

/-- The state that an instruction is fetched in: the invariants hold there, and the step answers a next state. -/
theorem witness_StepKeeps :
    (code [0x08, 0x64]).coresInv ∧ (code [0x08, 0x64]).memInv ∧
    (match step (code [0x08, 0x64]) with | .next t => t.d .r0 == 1 | _ => false) = true := by
  unfold State.coresInv State.memInv Core.maskInv
  decide +kernel

theorem witness_UserModeConfined :
    let s := userRegs [(.p .p0, 0xFF800000)]
    s.user = true ∧ s.issue.slot = .single ∧ gives (.storeD .inc .p0 .r0) s (fun t => t.user) = true := by
  decide +kernel

end

end Sys2Proof.Tests
end

section
/-!
What User mode may not name or run (10_state.md R63; 46_system.md R1002 to R1004, R1021; 20_memory.md R335): the Supervisor
instructions, the Supervisor registers, MMR space.
-/

namespace Sys2Proof.Proofs

open Machine Laws

section

variable {s : State}

/-! ## MMR space in User mode (R301, R335) -/

/-- The bounds of a range of addresses. -/
theorem inRange_iff {lo n a : Nat} : inRange lo n a = true ↔ lo ≤ a ∧ a < lo + n := by
  rw [inRange, Bool.and_eq_true, decide_eq_true_eq, decide_eq_true_eq]

/-- Everything from 0xFFC00000 up is MMR space, of the system or of the core (R301). -/
theorem region_mmr (c : Core) {a : Nat} (ha : 0xFFC00000 ≤ a) : c.region a = .coreMmr ∨ c.region a = .sysMmr := by
  have l2 : ¬ inRange Config.l2Base 0x20000 a = true := by
    rw [inRange_iff, Config.l2Base]
    omega
  rw [Core.region, if_neg (show ¬ a < 0xEF000000 by omega), if_neg (show ¬ a < 0xEF000800 by omega), if_neg l2,
    if_neg (show ¬ a < 0xFF400000 by omega)]
  by_cases hc : 0xFFE00000 ≤ a
  · exact .inl (if_pos hc)
  · exact .inr (by rw [if_neg hc, if_pos ha])

/-- User mode may not touch MMR space, whatever the CPLBs say (R335 item 3a). -/
theorem fixedViolation_user_mmr {c : Core} (hu : c.user = true) {a : Word} (ha : 0xFFC00000 ≤ a.toNat) (write dag1 : Bool) :
    c.fixedViolation a write dag1 = some false := by
  rcases region_mmr c ha with hr | hr <;> simp [Core.fixedViolation, hr, hu]

/-- With the DCPLBs off, an aligned access of User mode to MMR space is a protection violation (R335). -/
theorem dataCheck_user_mmr {c : Core} (hu : c.user = true) (hoff : c.dmem.endcplb = false) {a : Word} {n : Nat}
    (hal : a.toNat % n = 0) (ha : 0xFFC00000 ≤ a.toNat) (write dag1 : Bool) (st : Word) :
    c.dataCheck a n write dag1 st = some (c.dataExc 0x23 13 a write dag1 false) := by
  simp [Core.dataCheck, hoff, hal, fixedViolation_user_mmr hu ha]

/-- Every instruction whose access touches MMR space raises 0x23 in User mode. -/
theorem access_user_mmr_traps (h : s.canTrap) (hu : s.user = true) {i : Instr} {x : Word} {n : Nat} {w : Bool}
    (hi : s.access i = some (x, n, w)) (hal : x.toNat % n = 0) (hx : 0xFFC00000 ≤ x.toNat)
    (hoff : s.cur.dmem.endcplb = false) : Traps i s 0x23 := by
  have hcheck := dataCheck_user_mmr hu hoff hal hx w false (Config.freeWord s.free)
  obtain ⟨m, hm⟩ := access_stopped h.1 hi hcheck
  exact (raise_reported h _ m hm).1

/-! ## Supervisor instructions and registers in User mode (R63, R1703) -/

/-- An instruction whose meaning is guarded by the mode raises 0x2E in User mode. -/
theorem supervisor_traps (h : s.canTrap) (hu : s.user = true) {i : Instr} {k : Outcome} (e : exec i s = supervisor s k) :
    Traps i s 0x2E :=
  raise_traps h (e.trans (supervisor_user hu k))

/-- A move that names a Supervisor register (R63). -/
theorem exec_moveReg_supervisor (hu : s.user = true) {d r : AllReg} (hl : moveLegal d r = true)
    (hr : supervisorDest d = true ∨ supervisorReg r = true) :
    exec (.moveReg d r) s = raise .illegalSupervisorUse s := by
  have guard : (s.user && (supervisorDest d || supervisorReg r)) = true := by simpa [hu] using hr
  change legal (moveLegal d r) s _ = _
  rw [hl, legal_ok, if_pos guard]

/-- A push of a Supervisor register (R63, R1021). -/
theorem exec_pushReg_supervisor (hu : s.user = true) {r : AllReg} (hr : supervisorReg r = true) :
    exec (.pushReg r) s = raise .illegalSupervisorUse s :=
  if_pos (by rw [hu, hr]; rfl)

/-- A pop into a register that User mode may not write (R63, R1021). -/
theorem exec_popReg_supervisor (hu : s.user = true) {r : AllReg} (hr : supervisorDest r = true) :
    exec (.popReg r) s = raise .illegalSupervisorUse s :=
  if_pos (by rw [hu, hr]; rfl)

end

/-- Settles O37: each instruction raises its exception before anything else of it is done, and the entry of an exception
changes what `Entered` names. -/
theorem supervisorTraps : Obligations.SupervisorTraps := by
  intro s h
  refine ⟨raise_traps h rfl, fun hu => ⟨?cli, ?sti, ?raiseInt, ?rti, ?rtx, ?rtn, ?move, ?push, ?pop, ?mmr⟩⟩
  case cli => exact fun _ => supervisor_traps h hu rfl
  case sti => exact fun _ => supervisor_traps h hu rfl
  case raiseInt => exact fun _ => supervisor_traps h hu rfl
  case rti => exact supervisor_traps h hu rfl
  case rtx => exact supervisor_traps h hu rfl
  case rtn => exact supervisor_traps h hu rfl
  case move => exact fun _ _ hl hr => raise_traps h (exec_moveReg_supervisor hu hl hr)
  case push => exact fun _ hr => raise_traps h (exec_pushReg_supervisor hu hr)
  case pop => exact fun _ hr => raise_traps h (exec_popReg_supervisor hu hr)
  case mmr => exact fun _ _ _ _ hi hal hx hoff => access_user_mmr_traps h hu hi hal hx hoff

end Sys2Proof.Proofs
end

section
/-!
Misaligned accesses (20_memory.md R335; 60_exceptions.md R1720): the alignment is checked before anything else of an access.
-/

namespace Sys2Proof.Proofs

open Machine Laws

/-- With the DCPLBs off, a misaligned access is stopped before any other rule is asked (R335). -/
theorem dataCheck_misaligned {c : Core} (hoff : c.dmem.endcplb = false) {a : Word} {n : Nat} (hal : a.toNat % n ≠ 0)
    (write : Bool) (st : Word) : c.dataCheck a n write false st = some ⟨0x24, 12, .data a st⟩ := by
  simp [Core.dataCheck, hoff, hal]

/-- Settles O44: the alignment check stops the access, and its exception reports the address. -/
theorem misalignedTraps : Obligations.MisalignedTraps := by
  intro i s x n w h hoff hi hal
  obtain ⟨m, hm⟩ := access_stopped h.1 hi (dataCheck_misaligned hoff hal w (Config.freeWord s.free))
  obtain ⟨htraps, hreport⟩ := raise_reported h _ m hm
  refine ⟨htraps, fun t ht => ?_⟩
  rw [(hreport t ht).1]
  rfl

end Sys2Proof.Proofs
end

section
/-!
Pending stores (20_memory.md R331, R340, R341): accesses to the memory behind L1 past the caches, what a load sees of the
stores that are still pending, and how a pending store is performed.
-/

namespace Sys2Proof.Proofs

open Machine Laws

section

variable {s t : State} {a : Word} {n : Nat}

/-! ## Accesses that no check stops -/

/-- An aligned access to memory that instructions store to, with the DCPLBs off, which the watchpoint unit does not see and
no other part of a bundle makes. -/
def unhindered (s : State) (a : Word) (n : Nat) : Prop :=
  a.toNat % n = 0 ∧ s.cur.dmem.endcplb = false ∧ s.cur.wp.iactl.getLsbD 0 = false ∧ s.issue.clash = none ∧
    s.cur.region a.toNat ∈ [Region.external, .l2, .dataSram, .scratchpad]

theorem unhindered_of_behind (h : s.behind a n) : unhindered s a n := by
  obtain ⟨hal, hoff, hwatch, hclash, -, hreg⟩ := h
  refine ⟨hal, hoff, hwatch, hclash, ?_⟩
  rcases hreg with hreg | hreg <;> simp [hreg]

theorem checkData_unhindered (h : unhindered s a n) (dag1 write : Bool) : s.checkData dag1 a n write = none := by
  obtain ⟨hal, hoff, -, -, hreg⟩ := h
  have free : s.cur.fixedViolation a write dag1 = none := by
    simp only [List.mem_cons, List.not_mem_nil, or_false] at hreg
    rcases hreg with hreg | hreg | hreg | hreg <;> simp [Core.fixedViolation, hreg]
  simp [State.checkData, Core.dataCheck, hal, hoff, free]

theorem watched_unhindered (h : unhindered s a n) (write dag1 : Bool) : s.watched a n write dag1 = s := by
  obtain ⟨-, -, hwatch, -, -⟩ := h
  rw [State.watched, State.dataWatch, hwatch, if_neg Bool.false_ne_true, ite_self]

/-- A load that no check stops and no store of the same bundle meets answers what the access gives. -/
theorem load_unhindered (h : unhindered s a n) {v : Nat} (ht : t.issue.clash = none)
    (e : s.takeLoad a n s.dag1 = .ok v t) : s.load a n = .ok v t := by
  have apart : t.issue.clashes a.toNat n = false := by simp [Issue.clashes, ht]
  simp [State.load, State.loadAt, checkData_unhindered h, watched_unhindered h, e, Res.bind, apart]

theorem loading_unhindered (h : unhindered s a n) {v : Nat} (ht : t.issue.clash = none)
    (e : s.takeLoad a n s.dag1 = .ok v t) (len : Nat) (f : Nat → State → State) :
    s.loading len a n f = .next ((f v t).finish len) := by
  rw [State.loading, load_unhindered h ht e]
  rfl

/-- With the DCPLBs off no page makes an access cached or refused. -/
theorem noPage_of_off {c : Core} (hoff : c.dmem.endcplb = false) (a : Word) : c.badPage a = false ∧ c.dataPage a = none := by
  simp [Core.badPage, Core.dataPage, hoff]

/-! ## Stores join the pending ones -/

/-- A store behind L1 past the caches is complete when it has joined the pending stores (R331, R341). -/
theorem store_behind (h : s.behind a n) (v : Nat) : s.store a n v = .ok () (s.pend a.toNat n v) := by
  have hu := unhindered_of_behind h
  obtain ⟨-, hoff, -, -, -, hreg⟩ := h
  have noPage := noPage_of_off hoff a
  rcases hreg with hreg | hreg <;>
    simp [State.store, State.storeAt, checkData_unhindered hu, watched_unhindered hu, State.performStore, noPage, hreg]

theorem frame_postP {v : State} {rs : List AllReg} {fs : List FlagName} {st : Nat → Prop} {m : PostMod} {p : PReg}
    (h : Frame v t rs fs st) (hp : ∀ r ∈ ifPost m (.p p), r ∈ rs) (n : Nat) : Frame v (t.postP m p n) rs fs st := by
  cases m
  case keep => exact h
  all_goals exact Frame.setP h (hp _ (by simp [ifPost])) _

theorem setP_p_same (s : State) (p : PReg) (v : Word) : (s.setP p v).p p = v :=
  (PRegs.get_set s.cur.p s.user p p v).trans (if_pos rfl)

theorem postP_p (s : State) (m : PostMod) (p : PReg) (n : Nat) : (s.postP m p n).p p = postValue m (s.p p) n := by
  cases m
  case keep => rfl
  all_goals exact setP_p_same _ _ _

theorem postP_d (s : State) (m : PostMod) (p : PReg) (n : Nat) (r : DReg) : (s.postP m p n).d r = s.d r := by
  cases m <;> rfl

theorem setD_d_same (s : State) (r : DReg) (v : Word) : (s.setD r v).d r = v :=
  (DRegs.get_set s.cur.r r r v).trans (if_pos rfl)

theorem postP_issue (s : State) (m : PostMod) (p : PReg) (n : Nat) : (s.postP m p n).issue = s.issue := by
  cases m <;> rfl

/-- A store through a pointer register, behind L1 past the caches. -/
theorem storing_behind {m : PostMod} {p : PReg} {i : Instr} {w : Word} {n : Nat} (h : s.behind (s.p p) n)
    (e : exec i s = s.storing 2 (s.p p) n w fun s => s.postP m p n) :
    CompletesVia i s (s.pend (s.p p).toNat n (w.toNat % 2 ^ (8 * n))) 2 (ifPost m (.p p)) [] noBytes
      fun u => u.p p = postValue m (s.p p) n := by
  refine ⟨_, ?_, ?_, frame_postP (Frame.refl _ _ _ _) (fun _ hr => hr) n, postP_p _ m p n⟩
  · rw [e, State.storing, store_behind h]
    rfl
  · rw [postP_issue]
    rfl

/-! ## Loads see the pending stores over memory -/

/-- The bytes of a word as the core sees it (R330). -/
theorem word_byte (s : State) (x : Nat) {k : Nat} (hk : k < 4) : (s.word x).extractLsb' (8 * k) 8 = s.byte (x + k) := by
  have cases4 : k = 0 ∨ k = 1 ∨ k = 2 ∨ k = 3 := by omega
  apply BitVec.eq_of_getLsbD_eq
  intro i hi
  rcases cases4 with rfl | rfl | rfl | rfl
  all_goals
    simp only [State.word, BitVec.getLsbD_extractLsb', BitVec.getLsbD_append, hi, decide_true, Bool.true_and]
    grind

/-- Where pending stores cover every byte of the access it does not matter what memory holds (R342). -/
theorem overlay_covered {ps : List PendStore} {a n : Nat} (h : covered ps a n = true) (v w : Nat) :
    overlay ps a n v = overlay ps a n w := by
  induction n generalizing a v w with
  | zero => rfl
  | succ n ih =>
    have hall : ∀ k < n + 1, (pendByte ps (a + k)).isSome = true := by simpa [covered] using h
    have hrest : covered ps (a + 1) n = true := by
      simp only [covered, List.all_eq_true, List.mem_range]
      intro k hk
      rw [Nat.add_assoc, Nat.add_comm 1 k]
      exact hall (k + 1) (by omega)
    obtain ⟨b, hb⟩ := Option.isSome_iff_exists.1 (hall 0 (by omega))
    rw [Nat.add_zero] at hb
    rw [overlay, overlay, ih hrest (v / 256) (w / 256), hb]
    rfl

/-- An idle EBIU serves an access that ARDY does not extend at once (R1636), and is idle again. -/
theorem serve_idle (hbus : s.sys.ebiu.granted = false) (hfree : s.sys.ebiu.busy = none) (u : BusUser) (x : Nat) :
    s.serve u x false = .ok () s := by
  have same : s.setEbiu { s.sys.ebiu with busy := none } = s := by
    rw [← hfree]
    rfl
  unfold State.serve
  dsimp only
  split
  next hgranted => exact absurd (hbus.symm.trans hgranted) Bool.false_ne_true
  · split
    · exact congrArg (BusRes.ok ()) same
    next hbusy => exact nomatch hfree.symm.trans hbusy

/-- The asynchronous bank answers at once, and the EBIU is as it was (R1626, R1636). -/
theorem extAccess_ready {x k : Nat} (h : s.bankReady x k) (u : BusUser) :
    s.extAccess u x = .ok (if s.sys.ebiu.packed k then 2 else 4) s := by
  obtain ⟨hclass, hread, hsetup, hardy, hbus, hfree⟩ := h
  have hrat : ((s.sys.ebiu.bankCtl k).extractLsb' 8 4).toNat ≠ 0 := fun e => hread (BitVec.eq_of_toNat_eq e)
  have ok : s.sys.ebiu.bankOk k = true := by
    unfold Ebiu.bankOk
    dsimp only
    rw [hardy, decide_eq_false hrat, beq_eq_false_iff_ne.2 hsetup]
    rfl
  unfold State.extAccess
  simp only [hclass, ok, hardy, serve_idle hbus hfree]
  rfl

/-- RAM on a board that is all RAM gives its bytes. -/
theorem extRead_ready {x k : Nat} (h : s.bankReady x k) (hb : s.board = []) (hi : s.inputs = []) (u : BusUser) (n : Nat) :
    s.extRead u x n = .ok (s.mem.loadN x n) s := by
  have ram : s.extMap x = (.ram, x) := by simp [State.extMap, hb]
  have whole : s.halvesShow x = false := by simp [State.halvesShow, ram, hi]
  simp [State.extRead, extAccess_ready h, whole, State.boardRead, ram]

/-- The memory behind L1 answers a read at once: L2 always does, the asynchronous bank where it is ready. -/
theorem behindRead_ready {x : Nat} (hreg : s.cur.region x = .l2 ∨ s.cur.region x = .external)
    (hext : s.cur.region x = .external → s.board = [] ∧ s.inputs = [] ∧ ∃ k, s.bankReady x k) (u : BusUser) (n : Nat) :
    s.behindRead u x n = .ok (s.mem.loadN x n) s := by
  rcases hreg with hreg | hreg
  · simp [State.behindRead, hreg]
  · obtain ⟨hboard, hinputs, k, hready⟩ := hext hreg
    simp [State.behindRead, hreg, extRead_ready hready hboard hinputs]

/-- A load behind L1 sees the pending stores over memory; of the state only what the step has read is noted anew. -/
theorem takeLoad_behind (h : s.behind a n) (hp : s.cur.progress = [])
    (hext : s.cur.region a.toNat = .external → s.board = [] ∧ s.inputs = [] ∧ ∃ k, s.bankReady a.toNat k) (dag1 : Bool) :
    ∃ q k, s.takeLoad a n dag1 = .ok (overlay s.cur.stores a.toNat n (s.mem.loadN a.toNat n))
      { s with cur := { s.cur with progress := q }, issue := { s.issue with reads := k } } := by
  obtain ⟨-, hoff, -, -, hearly, hreg⟩ := h
  have noPage := noPage_of_off hoff a
  have uncached : s.takeLoad a n dag1 = s.uncachedLoad a.toNat n := by
    rcases hreg with hreg | hreg <;> simp [State.takeLoad, hearly, State.performLoad, noPage, hreg]
  rw [uncached, State.uncachedLoad]
  split
  next hcov => exact ⟨[], s.issue.reads, by rw [overlay_covered hcov 0 (s.mem.loadN a.toNat n), ← hp]⟩
  · have read := behindRead_ready (s := { s with issue := { s.issue with reads := s.issue.reads + 1 } }) hreg hext
      (.load s.cur.id) n
    refine ⟨s.cur.progress.take s.issue.reads ++ [(a.toNat, s.mem.loadN a.toNat n)], s.issue.reads + 1, ?_⟩
    simp only [State.busLoad, State.tracked, hp, List.getElem?_nil, Option.filter_none, read, Res.bind]
    rfl

/-- A word load through a pointer register, whatever its access answers. -/
theorem loadD_unhindered {m : PostMod} {d : DReg} {p : PReg} {v : Nat} (h : unhindered s (s.p p) 4)
    (e : s.takeLoad (s.p p) 4 s.dag1 = .ok v t) (hp : t.p p = s.p p) (hissue : t.issue.slot = s.issue.slot)
    (hclash : t.issue.clash = none) {u : State} (hf : ∀ rs fs st, Frame u t rs fs st) :
    CompletesVia (.loadD m d p) s u 2 ([.d d] ++ ifPost m (.p p)) [] noBytes fun w =>
      w.d d = loadZ v ∧ w.p p = postValue m (s.p p) 4 := by
  refine ⟨_, loading_unhindered h hclash e 2 _, ?_, ?_, ?_, ?_⟩
  · rw [postP_issue]
    exact hissue
  · exact frame_postP (Frame.setD (hf _ _ _) (by simp) _) (fun r hr => by simp [hr]) 4
  · rw [postP_d, setD_d_same]
  · rw [postP_p, ← hp]
    rfl

/-! ## Pending stores are performed -/

/-- The order of two pending stores, spelled out (R150, R340). -/
theorem before_eq_false {q r : PendStore} (h : q.before r = false) :
    (q.addr + q.size ≤ r.addr ∨ r.addr + r.size ≤ q.addr) ∧
      (0xFFC00000 ≤ q.addr → 0xFFC00000 ≤ r.addr → q.addr < 0xFFE00000 ∧ r.addr < 0xFFE00000) := by
  simp only [PendStore.before, mmrOrder, Bool.or_eq_false_iff, Bool.and_eq_false_iff, decide_eq_false_iff_not] at h
  omega

/-- The addresses of the memories in the core (R301). -/
theorem region_l1_range {c : Core} {x : Nat} (h : c.region x = .dataSram ∨ c.region x = .scratchpad) :
    0xFF400000 ≤ x ∧ x < 0xFFC00000 := by
  unfold Core.region at h
  split_ifs at h <;> simp at h <;> omega

/-- The addresses of L2 (R301). -/
theorem region_l2_range {c : Core} {x : Nat} (h : c.region x = .l2) : x < 0xFF400000 := by
  have hr : inRange Config.l2Base 0x20000 x = true := by
    unfold Core.region at h
    split_ifs at h
    assumption
  rw [inRange_iff, Config.l2Base] at hr
  omega

/-- A store to L1 memory is performed on the memory alone. -/
theorem performPending_l1 {q : PendStore} (h : s.cur.region q.addr = .dataSram ∨ s.cur.region q.addr = .scratchpad)
    (t : State) : s.performPending t q = .next { t with mem := t.mem.storeN q.addr q.size q.val } := by
  have hrange := region_l1_range h
  unfold State.performPending
  rw [if_neg (by omega), if_neg (by omega), if_pos (by omega)]

/-- A store to L2 is performed behind L1. -/
theorem performPending_l2 {q : PendStore} (h : s.cur.region q.addr = .l2) (t : State) :
    s.performPending t q = .next ((s.memStore q.addr q.size q.val).setCur
      { (s.memStore q.addr q.size q.val).cur with stores := t.cur.stores }) := by
  have hrange := region_l2_range h
  unfold State.performPending
  rw [if_neg (by omega), if_neg (by omega), if_neg (by omega), State.behindWrite, h]

/-- A store to L1 memory or to L2 that is performed is in memory, and is all that changes but what the cores may still
fetch. -/
theorem performPending_onChip {q : PendStore} (hreg : s.cur.region q.addr ∈ [Region.l2, .dataSram, .scratchpad])
    (ps : List PendStore) :
    ∃ u, s.performPending (s.setCur { s.cur with stores := ps }) q = .next u ∧
      u.mem = s.mem.storeN q.addr q.size q.val ∧ u.cur.stores = ps ∧ u.cur.r = s.cur.r ∧ u.cur.p = s.cur.p ∧
      u.cur.ev = s.cur.ev ∧ u.sys = s.sys := by
  simp only [List.mem_cons, List.not_mem_nil, or_false] at hreg
  rcases hreg with hl2 | hl1
  · exact ⟨_, performPending_l2 hl2 _, rfl, rfl, rfl, rfl, rfl, rfl⟩
  · exact ⟨_, performPending_l1 hl1 _, rfl, rfl, rfl, rfl, rfl, rfl⟩

/-- A pending store that is the only one is the one that is performed. -/
theorem drain_single {q : PendStore} (hs : s.cur.stores = [q]) (hreg : s.cur.region q.addr ≠ .external) :
    s.drain = s.performPending (s.setCur { s.cur with stores := [] }) q := by
  have first : drainable [q] = [0] := rfl
  simp [State.drain, hs, first, hreg]

end

/-- Settles O46: a store joins the list of pending stores, a load overlays them on what memory gives or takes the value of
the read made ahead, and the order of the list decides which store may be performed. -/
theorem pendingStores : Obligations.PendingStores := by
  refine ⟨fun ps q y => ⟨rfl, pendByte_append ps q y⟩, ?stores, ?loads, ?early, ?order, ?performed⟩
  case stores =>
    intro a r p s
    refine ⟨fun h => ?_, fun h => storing_behind h rfl, fun h => storing_behind h rfl⟩
    have whole := storing_behind (i := .storeD a p r) (m := a) (w := s.d r) h rfl
    rwa [Nat.mod_eq_of_lt (s.d r).isLt] at whole
  case loads =>
    intro a d p s x sees h hp hext
    obtain ⟨q, k, e⟩ := takeLoad_behind h hp hext s.dag1
    have ⟨_, _, _, hclash, _, _⟩ := h
    obtain ⟨u, hexec, hslot, hframe, hd, hpost⟩ := loadD_unhindered (m := a) (d := d) (unhindered_of_behind h) e rfl rfl
      hclash (fun rs fs st => Frame.of_same (Frame.refl (s.setCur { s.cur with progress := q }) rs fs st)
        rfl rfl rfl rfl rfl rfl rfl)
    refine ⟨q, u, hexec, hslot, hframe, fun j hj => ?_, hpost⟩
    rw [hd, loadZ_word, word_byte s _ hj]
    rfl
  case early =>
    intro a d p s e x hal hoff hwatch hclash hreg he
    have taken : s.takeLoad x 4 s.dag1 = .ok e.val s := by rw [State.takeLoad, he]
    exact loadD_unhindered ⟨hal, hoff, hwatch, hclash, hreg⟩ taken rfl rfl hclash fun rs fs st => Frame.refl s rs fs st
  case order =>
    exact fun ps j k q r hk hj hq hr => before_eq_false (drainable_before hk hj hq hr)
  case performed =>
    intro s q hs hsize hreg
    have hne : s.cur.region q.addr ≠ .external := by
      intro e
      simp [e] at hreg
    obtain ⟨t, ht, hmem, hstores, hr, hp, hev, hsys⟩ := performPending_onChip hreg []
    refine ⟨t, (drain_single hs hne).trans ht, hstores, fun k hk => ?_, fun y hy => ?_, hr, hp, hev, hsys⟩
    · rw [hmem, Mem.read_storeN, if_pos (by omega), Nat.add_sub_cancel_left]
    · rw [hmem, Mem.read_storeN, if_neg (by omega), Mem.load_storeN_other _ _ _ _ _ (by omega)]
      exact ⟨rfl, rfl⟩

end Sys2Proof.Proofs
end

section
/-!
Memory keeps its canonical form over every step (20_memory.md R330): one lemma for each operation of the model, in the
order of the model. An operation that writes no byte leaves `State.mem` as it was (`…_mem`); one that writes bytes keeps
the form (`…_memInv`), since stores and scrubs do.
-/

namespace Sys2Proof.Proofs

open Machine Laws

section

variable {s t : State}

/-! ## What the answers of the model's operations leave -/

/-- The state that an outcome leaves has its memory in the canonical form. -/
def outcomeMemInv : Outcome → Prop
  | .next t => t.memInv
  | .fault _ | .refused _ => True

/-- The same of an access to a memory-mapped register. -/
def mmrMemInv : MmrRes → Prop
  | .ok _ t => t.memInv
  | .error | .refused _ => True

/-- The same of an access behind L1. -/
def busMemInv {α : Type} : BusRes α → Prop
  | .ok _ t | .error t | .wait t => t.memInv
  | .refused _ => True

/-- The same of an access of a core. -/
def resMemInv {α : Type} : Res α → Prop
  | .ok _ t | .exc _ t | .stall t => t.memInv
  | .refused _ | .fault _ => True

theorem memInv_of_mem (h : s.memInv) (e : t.mem = s.mem) : t.memInv := by
  rw [State.memInv, e]
  exact h

theorem bind_memInv {α β : Type} {x : Res α} {f : α → State → Res β} (hx : resMemInv x)
    (hf : ∀ a t, t.memInv → resMemInv (f a t)) : resMemInv (x.bind f) := by
  cases x with
  | ok a t => exact hf a t hx
  | exc e t => exact hx
  | stall t => exact hx
  | refused r => trivial
  | fault f => trivial

theorem mmrOk_memInv {x : MmrRes} {w : Word} (e : x = .ok w t) (hx : mmrMemInv x) : t.memInv := by
  rw [e] at hx
  exact hx

/-! What holds on both branches holds of the choice. -/

theorem memInv_ite {c : Prop} [Decidable c] (hs : s.memInv) (ht : t.memInv) : (if c then s else t).memInv :=
  iteInduction (motive := State.memInv) (fun _ => hs) fun _ => ht

theorem mmrMemInv_ite {c : Prop} [Decidable c] {x y : MmrRes} (hx : mmrMemInv x) (hy : mmrMemInv y) :
    mmrMemInv (if c then x else y) :=
  iteInduction (motive := mmrMemInv) (fun _ => hx) fun _ => hy

theorem outcomeMemInv_ite {c : Prop} [Decidable c] {x y : Outcome} (hx : outcomeMemInv x) (hy : outcomeMemInv y) :
    outcomeMemInv (if c then x else y) :=
  iteInduction (motive := outcomeMemInv) (fun _ => hx) fun _ => hy

theorem resMemInv_ite {α : Type} {c : Prop} [Decidable c] {x y : Res α} (hx : resMemInv x) (hy : resMemInv y) :
    resMemInv (if c then x else y) :=
  iteInduction (motive := resMemInv) (fun _ => hx) fun _ => hy

theorem mem_ite {c : Prop} [Decidable c] {m : Mem} (hs : s.mem = m) (ht : t.mem = m) : (if c then s else t).mem = m :=
  iteInduction (motive := fun u : State => u.mem = m) (fun _ => hs) fun _ => ht

theorem busMemInv_ite {α : Type} {c : Prop} [Decidable c] {x y : BusRes α} (hx : busMemInv x) (hy : busMemInv y) :
    busMemInv (if c then x else y) :=
  iteInduction (motive := busMemInv) (fun _ => hx) fun _ => hy

theorem pair_ite_mem {α : Type} {c : Prop} [Decidable c] {x y : α × State} {m : Mem} (hx : x.2.mem = m)
    (hy : y.2.mem = m) : (if c then x else y).2.mem = m :=
  iteInduction (motive := fun z : α × State => z.2.mem = m) (fun _ => hx) fun _ => hy

/-- Steps that leave memory as it is, one after the other. -/
theorem foldl_mem {α : Type} {f : State → α → State} (hf : ∀ t x, (f t x).mem = t.mem) (l : List α) (s : State) :
    (l.foldl f s).mem = s.mem := by
  induction l generalizing s with
  | nil => rfl
  | cons x l ih => exact (ih _).trans (hf s x)

/-! ## Free values and resets -/

theorem scrub_memInv (h : s.memInv) (lo hi : Nat) : (s.scrub lo hi).memInv := Mem.wf_scrub _ _ _ _ h

theorem scrubCaches_memInv (h : s.memInv) (c : Core) : (s.scrubCaches c).memInv := by
  have bank : ∀ (on : Bool) (base : Nat) (t : State), t.memInv →
      (if on then t.scrub (base - c.id.l1Shift) (base - c.id.l1Shift + 0x4000) else t).memInv := by
    exact fun _ _ _ ht => memInv_ite (scrub_memInv ht _ _) ht
  exact bank _ _ _ (bank _ _ _ (bank _ _ _ h))

theorem resetCores_memInv (h : s.memInv) (again : Bool) : (s.resetCores again).memInv :=
  scrubCaches_memInv (scrubCaches_memInv h s.cur) s.oth

theorem loseSdram_memInv (h : s.memInv) : s.loseSdram.memInv := by
  unfold State.loseSdram
  split
  · exact h
  · exact scrub_memInv h _ _

@[simp] theorem setSpi_mem (s : State) (p : Spi) : (s.setSpi p).mem = s.mem := by
  rw [State.setSpi, apply_ite State.mem]
  exact ite_self _

@[simp] theorem endBreak_mem (s : State) : s.endBreak.mem = s.mem := by
  rw [State.endBreak, apply_ite State.mem]
  exact ite_self _

theorem hardwareReset_memInv (h : s.memInv) (bm : BitVec 2) (pin : Bool) : (s.hardwareReset bm pin).memInv := by
  refine resetCores_memInv (memInv_of_mem (loseSdram_memInv h) ?_) false
  exact (setSpi_mem _ _).trans (endBreak_mem _)

theorem resetPeripherals_memInv (h : s.memInv) : s.resetPeripherals.memInv := by
  have e : (s.loseSdram.endBreak.setSpi .reset).mem = s.loseSdram.mem := by rw [setSpi_mem, endBreak_mem]
  exact memInv_of_mem (loseSdram_memInv h) e

theorem softReset_memInv (h : s.memInv) (bit : BitVec 5) : (s.softReset bit).memInv := by
  refine resetCores_memInv ?_ true
  exact memInv_of_mem (resetPeripherals_memInv h) rfl

theorem coreOnlyReset_memInv (h : s.memInv) : s.coreOnlyReset.memInv := by
  refine resetCores_memInv ?_ true
  exact h

theorem systemSoftwareReset_memInv (h : s.memInv) : s.systemSoftwareReset.memInv :=
  memInv_of_mem (resetPeripherals_memInv h) rfl

/-! ## The operations that every instruction shares -/

@[simp] theorem count_mem (s : State) (e : Byte) : (s.count e).mem = s.mem := (count_counted s e).mem

@[simp] theorem recordFlow_mem (s : State) (ip : HWord) (a b : Word) : (s.recordFlow ip a b).mem = s.mem := by
  obtain ⟨es, full, e⟩ := recordFlow_only s ip a b
  rw [e]
  rfl

@[simp] theorem countBranch_mem (s : State) : s.countBranch.mem = s.mem := by
  unfold State.countBranch
  split
  · exact count_mem s 0x09
  · rfl

@[simp] theorem flow_mem (s : State) (a : Word) : (s.flow a).mem = s.mem := by
  rw [State.flow, recordFlow_mem, countBranch_mem]

@[simp] theorem loopStep_mem (s : State) (len : Nat) : (s.loopStep len).1.mem = s.mem := by
  unfold State.loopStep
  dsimp only
  split
  · simp
  · split <;> split <;> simp [apply_ite State.mem]

@[simp] theorem finish_mem (s : State) (len : Nat) : (s.finish len).mem = s.mem := by
  unfold State.finish
  split
  · exact loopStep_mem s len
  · rfl

@[simp] theorem enterEvent_mem (s : State) (n : Nat) (src ret : Word) : (s.enterEvent n src ret).mem = s.mem :=
  recordFlow_mem _ _ _ _

theorem done_memInv (h : s.memInv) (len : Nat) : outcomeMemInv (done len s) := memInv_of_mem h (finish_mem s len)

theorem doubleFault_memInv (h : s.memInv) : s.doubleFault.memInv := by
  unfold State.doubleFault
  split
  · exact softReset_memInv h _
  · exact h

theorem takeException_memInv (h : s.memInv) (e : Exc) (ret : Word) : (s.takeException e ret).memInv := by
  unfold State.takeException
  split
  · exact doubleFault_memInv h
  · refine memInv_of_mem h ((enterEvent_mem _ _ _ _).trans ?_)
    dsimp only [setCur_mem]
    split
    · exact count_mem s 0x0F
    · rfl

theorem raise_memInv (h : s.memInv) (e : Exc) : outcomeMemInv (raise e s) := by
  unfold raise
  split
  · exact takeException_memInv h e _
  · exact h

theorem raiseService_memInv (h : s.memInv) (e : Exc) (len : Nat) : outcomeMemInv (raiseService e len s) := by
  unfold raiseService
  split
  · exact doubleFault_memInv h
  · refine memInv_of_mem h ((enterEvent_mem _ _ _ _).trans ?_)
    rw [setCur_mem, finish_mem, count_mem]

theorem supervisor_memInv (h : s.memInv) {k : Outcome} (hk : outcomeMemInv k) : outcomeMemInv (supervisor s k) := by
  unfold supervisor
  split
  · exact raise_memInv h _
  · exact hk

theorem legal_memInv (h : s.memInv) (ok : Bool) {k : Outcome} (hk : outcomeMemInv k) : outcomeMemInv (legal ok s k) := by
  cases ok
  · exact raise_memInv h _
  · exact hk

theorem goTo_memInv (h : s.memInv) (a : Word) : outcomeMemInv (goTo a s) := by
  unfold goTo
  dsimp only
  split
  · refine takeException_memInv (memInv_of_mem h ?_) _ a
    exact count_mem _ _
  · exact h

theorem transfer_memInv (h : s.memInv) (a : Word) : outcomeMemInv (transfer a s) :=
  goTo_memInv (memInv_of_mem h (flow_mem s a)) a

theorem returnTo_memInv (h : s.memInv) (a : Word) (enable : Bool) : outcomeMemInv (returnTo a enable s) := by
  refine goTo_memInv (memInv_of_mem (memInv_of_mem h (flow_mem s a)) ?_) a
  exact setCur_mem _ _

theorem run_memInv {α : Type} {x : Res α} {f : α → State → Outcome} (hx : resMemInv x)
    (hf : ∀ a t, t.memInv → outcomeMemInv (f a t)) : outcomeMemInv (x.run f) := by
  cases x with
  | ok a t => exact hf a t hx
  | exc e t => exact raise_memInv hx e
  | stall t => exact hx
  | refused r => trivial
  | fault f => trivial

/-! ## The external bus -/

@[simp] theorem setEbiu_mem (s : State) (e : Ebiu) : (s.setEbiu e).mem = s.mem := rfl

theorem memStore_memInv (h : s.memInv) (a n v : Nat) : (s.memStore a n v).memInv := Mem.wf_storeN _ _ _ _ h

@[simp] theorem boardRead_mem (s : State) (loc a n : Nat) : (s.boardRead loc a n).2.mem = s.mem := by
  unfold State.boardRead
  split <;> rfl

theorem boardWrite_memInv (h : s.memInv) (loc a n v : Nat) : (s.boardWrite loc a n v).memInv := by
  unfold State.boardWrite
  split
  · exact memStore_memInv h _ _ _
  · exact h
  · exact h
  · exact h

theorem masterWrite_memInv (h : s.memInv) (a : Word) (b : Byte) : (s.masterWrite a b).memInv := by
  unfold State.masterWrite
  split
  · split
    · exact memStore_memInv h _ _ _
    · exact h
  · exact h

theorem masterWrites_memInv (ws : List (Word × Byte)) (h : s.memInv) :
    (ws.foldl (fun s w => s.masterWrite w.1 w.2) s).memInv := by
  induction ws generalizing s with
  | nil => exact h
  | cons w ws ih => exact ih (masterWrite_memInv h w.1 w.2)

theorem betweenHalves_memInv (h : s.memInv) : s.betweenHalves.memInv := by
  unfold State.betweenHalves
  split
  · split
    · exact h
    · dsimp only [State.drawBit]
      split
      · refine masterWrites_memInv _ ?_
        exact h
      · exact h
  · exact h

theorem twoHalves_memInv (h : s.memInv) (a : Nat) {f : Nat → State → Nat × State}
    (hf : ∀ x t, t.memInv → (f x t).2.memInv) : (s.twoHalves a f).2.memInv := by
  unfold State.twoHalves
  dsimp only [State.drawBit]
  split <;> refine hf _ _ (betweenHalves_memInv (hf _ _ ?_)) <;> exact h

theorem serve_memInv (h : s.memInv) (u : BusUser) (a : Nat) (rdyen : Bool) : busMemInv (s.serve u a rdyen) := by
  have fresh : busMemInv (if rdyen then
      (if s.drawBit.1 then .ok () (s.drawBit.2.setEbiu { s.sys.ebiu with busy := none })
        else .wait (s.drawBit.2.setEbiu { s.sys.ebiu with busy := some ⟨u, a, false⟩ }))
      else (.ok () (s.setEbiu { s.sys.ebiu with busy := none }) : BusRes Unit)) := by
    split
    · split <;> exact h
    · exact h
  unfold State.serve
  dsimp only
  split
  · exact h
  · split
    · exact fresh
    · split
      · exact h
      · split
        · exact fresh
        · exact h

theorem extAccess_memInv (h : s.memInv) (u : BusUser) (a : Nat) : busMemInv (s.extAccess u a) := by
  have served : ∀ (rdyen : Bool) (loc : Nat) (f : State → State), (∀ t : State, t.memInv → (f t).memInv) →
      busMemInv (match s.serve u a rdyen with
        | .ok _ s => .ok loc (f s)
        | .error s => .error s
        | .wait s => .wait s
        | .refused r => .refused r : BusRes Nat) := by
    intro rdyen loc f hf
    have hs := serve_memInv h u a rdyen
    cases hr : s.serve u a rdyen <;> rw [hr] at hs
    · exact hf _ hs
    · exact hs
    · exact hs
    · trivial
  unfold State.extAccess
  dsimp only
  split
  · dsimp only [busMemInv]
    split <;> exact h
  · split
    · trivial
    · exact served _ _ id fun _ ht => ht
  · split
    · trivial
    · exact served _ _ _ fun _ ht => ht
  · split
    · trivial
    · exact served _ _ _ fun _ ht => ht

theorem extRead_memInv (h : s.memInv) (u : BusUser) (a n : Nat) : busMemInv (s.extRead u a n) := by
  have ha := extAccess_memInv h u a
  unfold State.extRead
  cases hr : s.extAccess u a <;> rw [hr] at ha
  case ok loc t =>
    dsimp only [busMemInv] at ha ⊢
    split
    · exact twoHalves_memInv ha a fun x t ht => memInv_of_mem ht (boardRead_mem _ _ _ _)
    · exact memInv_of_mem ha (boardRead_mem _ _ _ _)
  case refused => trivial
  all_goals exact ha

theorem extWrite_memInv (h : s.memInv) (u : BusUser) (a n v : Nat) : busMemInv (s.extWrite u a n v) := by
  have ha := extAccess_memInv h u a
  unfold State.extWrite
  cases hr : s.extAccess u a <;> rw [hr] at ha
  case ok loc t =>
    dsimp only [busMemInv] at ha ⊢
    split
    · exact twoHalves_memInv ha a fun x t ht => boardWrite_memInv ht _ _ _ _
    · exact boardWrite_memInv ha _ _ _ _
  case refused => trivial
  all_goals exact ha

theorem enterSelfRefresh_memInv (h : s.memInv) : s.enterSelfRefresh.memInv := by
  unfold State.enterSelfRefresh
  dsimp only
  split
  · refine scrub_memInv ?_ _ _
    exact h
  · exact h

/-- A bit that is drawn, or known. -/
theorem drawBitIf_mem (c : Prop) [Decidable c] (b : Bool) (s : State) :
    (if c then s.drawBit else (b, s)).2.mem = s.mem := by split <;> rfl

@[simp] theorem sdstat_mem (s : State) : s.sdstat.2.mem = s.mem := by
  exact (drawBitIf_mem _ _ _).trans (drawBitIf_mem _ _ _)

theorem ebiuRead_memInv (h : s.memInv) (off n : Nat) : mmrMemInv (ebiuRead off n s) := by
  unfold ebiuRead
  split
  case h_7 => exact memInv_of_mem h (sdstat_mem s)
  case h_8 => trivial
  all_goals exact h

theorem sdgctlWrite_memInv (h : s.memInv) (v : Word) : mmrMemInv (sdgctlWrite v s) := by
  unfold sdgctlWrite
  dsimp only
  split
  · trivial
  split
  · trivial
  split
  · trivial
  split
  · trivial
  dsimp only [mmrMemInv]
  split
  · refine scrub_memInv ?_ _ _
    exact h
  · exact h

theorem ebiuWrite_memInv (h : s.memInv) (off n : Nat) (v : Word) : mmrMemInv (ebiuWrite off n v s) := by
  have amc : ∀ (e : Ebiu) (ks : List Nat), mmrMemInv
      (if s.amcBusy || !e.banksOk ks then .refused .unitSetting else .ok 0 (s.setEbiu e)) := by
    intro e ks
    split
    · trivial
    · exact h
  unfold ebiuWrite
  dsimp only
  split
  · exact amc _ _
  · exact amc _ _
  · exact amc _ _
  · exact sdgctlWrite_memInv h v
  · split
    · trivial
    · exact h
  · split
    · trivial
    · exact h
  · dsimp only [mmrMemInv]
    split <;> exact h
  · trivial

/-! ## The caches and the memory behind L1 -/

theorem behindRead_memInv (h : s.memInv) (u : BusUser) (a n : Nat) : busMemInv (s.behindRead u a n) := by
  unfold State.behindRead
  split
  · exact extRead_memInv h u a n
  · exact h
  · exact h
  · exact h

theorem behindWrite_memInv (h : s.memInv) (u : BusUser) (a n v : Nat) : busMemInv (s.behindWrite u a n v) := by
  unfold State.behindWrite
  split
  · exact extWrite_memInv h u a n v
  · exact memStore_memInv h a n v
  · exact h

theorem tracked_memInv (h : s.memInv) (a : Nat) {f : State → Res Nat} (hf : ∀ t, t.memInv → resMemInv (f t)) :
    resMemInv (s.tracked a f) := by
  unfold State.tracked
  dsimp only
  split
  · exact h
  · refine bind_memInv (hf _ ?_) fun v t ht => ?_
    · exact h
    · exact ht

theorem busLoad_memInv (h : s.memInv) (a n : Nat) : resMemInv (s.busLoad a n) := by
  refine tracked_memInv h a fun t ht => ?_
  have hr := behindRead_memInv ht (.load t.cur.id) a n
  cases hb : t.behindRead (.load t.cur.id) a n <;> rw [hb] at hr
  case refused => trivial
  all_goals exact hr

theorem uncachedLoad_memInv (h : s.memInv) (a n : Nat) : resMemInv (s.uncachedLoad a n) := by
  unfold State.uncachedLoad
  split
  · exact h
  · exact bind_memInv (busLoad_memInv h a n) fun _ _ ht => ht

@[simp] theorem countCache_mem (s : State) (victim bank : Bool) : (s.countCache victim bank).mem = s.mem := count_mem _ _

@[simp] theorem writeBack_mem (s : State) (k : LineKey) : (s.writeBack k).mem = s.mem := by
  unfold State.writeBack
  dsimp only
  split <;> rfl

@[simp] theorem lruOf_mem (s : State) (k : LineKey) : (s.lruOf k).2.mem = s.mem := by
  unfold State.lruOf
  split <;> rfl

@[simp] theorem voidLines_mem (s : State) (holes : Bool) (keep : LineKey → Bool) (ls : List (LineKey × Line)) :
    (s.voidLines holes keep ls).2.mem = s.mem := by
  induction ls generalizing s with
  | nil => rfl
  | cons x ls ih =>
    unfold State.voidLines
    split
    · exact ih s
    · exact ih _

@[simp] theorem startFill_mem (s : State) (a : Nat) : (s.startFill a).mem = s.mem := by
  unfold State.startFill
  split <;> rfl

@[simp] theorem fillWay_mem (s : State) (a : Nat) : (s.fillWay a).2.mem = s.mem := by
  unfold State.fillWay
  dsimp only
  split
  · rfl
  split
  · rfl
  · exact lruOf_mem _ _

@[simp] theorem installData_mem (s : State) (f : Fill) : (s.installData f).mem = s.mem := by
  unfold State.installData
  dsimp only
  split
  · rw [countCache_mem, writeBack_mem, fillWay_mem]
  split
  · exact fillWay_mem _ _
  · exact (countCache_mem _ _ _).trans (fillWay_mem _ _)

theorem cachedLoad_memInv (h : s.memInv) (a n : Nat) : resMemInv (s.cachedLoad a n) := by
  unfold State.cachedLoad
  split
  · exact h
  · split
    · exact h
    · exact memInv_of_mem h (startFill_mem s a)

theorem cachedStore_memInv (h : s.memInv) (page : Cplb) (a n v : Nat) : resMemInv (s.cachedStore page a n v) := by
  have through : (if page.writeThrough then s.pend a n v else s).mem = s.mem := by split <;> rfl
  unfold State.cachedStore
  dsimp only
  split
  · dsimp only [resMemInv]
    split <;> exact h
  split
  · exact memInv_of_mem h through
  split
  · exact h
  split
  · exact h
  · exact memInv_of_mem h ((startFill_mem _ a).trans through)

@[simp] theorem flushLine_mem (s : State) (a : Word) (inv : Bool) : (s.flushLine a inv).mem = s.mem := by
  unfold State.flushLine
  split
  · rfl
  · dsimp only
    split <;> split <;> exact writeBack_mem _ _

@[simp] theorem installInst_mem (s : State) (f : Fill) : (s.installInst f).mem = s.mem := by
  unfold State.installInst
  dsimp only
  split
  · rfl
  · split <;> rfl

theorem fillWord_memInv (h : s.memInv) (inst : Bool) (f : Fill) : busMemInv (s.fillWord inst f) := by
  have hr := behindRead_memInv h (if inst then .instFill s.cur.id else .dataFill s.cur.id) (f.base + 4 * f.next) 4
  unfold State.fillWord
  dsimp only
  split <;> rename_i hb <;> rw [hb] at hr
  · exact hr
  · exact hr
  · exact hr
  · trivial

theorem fillWords_memInv (h : s.memInv) (inst : Bool) (f : Fill) (n : Nat) : busMemInv (s.fillWords inst f n) := by
  induction n generalizing s f with
  | zero => exact h
  | succ n ih =>
    have hr := fillWord_memInv h inst f
    unfold State.fillWords
    split <;> rename_i hb <;> rw [hb] at hr
    · exact ih hr _
    · exact hr
    · exact hr
    · trivial

theorem fillStep_memInv (h : s.memInv) (inst : Bool) : outcomeMemInv (s.fillStep inst) := by
  unfold State.fillStep
  split
  · exact h
  rename_i f _
  split
  · have hr := fillWords_memInv h inst f (if s.cur.region f.base == .external then 1 else 8 - f.got.length)
    split <;> rename_i hb <;> rw [hb] at hr
    · exact hr
    · exact hr
    · exact hr
    · trivial
  · dsimp only [outcomeMemInv]
    split
    · exact memInv_of_mem h (installInst_mem s f)
    · exact memInv_of_mem h (installData_mem s f)

/-! ## Instruction fetch -/

theorem fetchOld_memInv (h : s.memInv) (x : OldHalf) : resMemInv (x.fetch s) := by
  unfold OldHalf.fetch
  split
  · exact h
  · trivial

theorem pickHalf_memInv (h : s.memInv) (x : OldHalf) (others : List OldHalf) : resMemInv (s.pickHalf x others) := by
  unfold State.pickHalf
  split
  · exact fetchOld_memInv h x
  · refine fetchOld_memInv ?_ _
    exact h

theorem fetchDirect_memInv (h : s.memInv) (a : Nat) : resMemInv (s.fetchDirect a) := by
  unfold State.fetchDirect
  split
  · have hr := extAccess_memInv h (.fetch s.cur.id) a
    split <;> rename_i hb <;> rw [hb] at hr
    · split
      · exact pickHalf_memInv hr _ _
      · exact pickHalf_memInv hr _ _
      · trivial
    · trivial
    · exact hr
    · trivial
  · exact pickHalf_memInv h _ _
  · exact pickHalf_memInv h _ _
  · trivial

theorem fetchMiss_memInv (h : s.memInv) (page : Cplb) (a : Nat) : resMemInv (s.fetchMiss page a) := by
  unfold State.fetchMiss
  dsimp only
  split
  · exact pickHalf_memInv h _ _
  · exact h

theorem fetchCached_memInv (h : s.memInv) (page : Cplb) (a : Nat) : resMemInv (s.fetchCached page a) := by
  unfold State.fetchCached
  split
  · dsimp only
    split
    · exact fetchOld_memInv h _
    · exact pickHalf_memInv h _ _
  · refine tracked_memInv h a fun t ht => ?_
    split
    · exact fetchDirect_memInv ht a
    · exact fetchMiss_memInv ht page a

theorem fetchHalf_memInv (h : s.memInv) (a : Word) : resMemInv (s.fetchHalf a) := by
  unfold State.fetchHalf
  split
  · exact h
  dsimp only
  split
  · trivial
  split
  · exact pickHalf_memInv h _ _
  split
  · exact tracked_memInv h _ fun t ht => fetchDirect_memInv ht _
  · exact fetchCached_memInv h _ _

@[simp] theorem outdateLine_mem (s : State) (k : LineKey) (l : Line) : (s.outdateLine k l).mem = s.mem := by
  unfold State.outdateLine
  split <;> rfl

@[simp] theorem iflushLine_mem (s : State) (a : Nat) : (s.iflushLine a).mem = s.mem := by
  unfold State.iflushLine
  split
  · rfl
  · exact outdateLine_mem _ _ _

/-! ## The core MMRs -/

@[simp] theorem instTest_mem (s : State) (k : LineKey) : (s.instTest k).2.mem = s.mem := by
  unfold State.instTest
  dsimp only
  split <;> rfl

@[simp] theorem dataTest_mem (s : State) (k : LineKey) : (s.dataTest k).2.mem = s.mem := by
  unfold State.dataTest
  dsimp only
  split <;> rfl

@[simp] theorem itestData_mem (s : State) (v : Nat) : (s.itestData v).mem = s.mem := rfl

@[simp] theorem setImem_mem (s : State) (m : IMem) : (s.setImem m).mem = s.mem := rfl

@[simp] theorem placeInst_mem (s : State) (k : LineKey) (l : Line) : (s.placeInst k l).mem = s.mem := rfl

theorem itest_memInv (h : s.memInv) (c : Word) : (itest c s).memInv := by
  unfold itest
  dsimp only
  refine memInv_ite (memInv_ite (memInv_ite ?_ (memStore_memInv (memInv_of_mem h (setImem_mem _ _)) _ _ _))
    (memInv_ite ?_ ?_)) (memInv_ite ?_ ?_)
  all_goals
    refine memInv_of_mem h ?_
    simp only [itestData_mem, placeInst_mem, instTest_mem, setImem_mem]

@[simp] theorem dtestData_mem (s : State) (v : Nat) : (s.dtestData v).mem = s.mem := rfl

@[simp] theorem setDmem_mem (s : State) (d : DMem) : (s.setDmem d).mem = s.mem := rfl

@[simp] theorem placeData_mem (s : State) (k : LineKey) (l : Line) : (s.placeData k l).mem = s.mem := rfl

@[simp] theorem drawWord_mem (s : State) : s.drawWord.2.mem = s.mem := rfl

theorem dtest_memInv (h : s.memInv) (c : Word) : (dtest c s).memInv := by
  have sram : ∀ (d : DMem) (write : Bool) (a v : Nat), (if write then (s.setDmem d).memStore a 8 v
      else (s.setDmem d).dtestData ((s.setDmem d).mem.loadN a 8)).memInv := by
    intro d write a v
    have hd : (s.setDmem d).memInv := memInv_of_mem h (setDmem_mem s d)
    exact memInv_ite (memStore_memInv hd _ _ _) (memInv_of_mem hd (dtestData_mem _ _))
  unfold dtest
  dsimp only
  refine memInv_ite (memInv_ite ?_ ?_) (memInv_ite (sram _ _ _ _) (memInv_ite (memInv_ite (sram _ _ _ _)
    (memInv_ite ?_ ?_)) (memInv_ite ?_ ?_)))
  all_goals
    refine memInv_of_mem h ?_
    simp only [setDmem_mem, placeData_mem, dtestData_mem, dataTest_mem, lruOf_mem, drawWord_mem]

theorem tbufRead_memInv (h : s.memInv) : mmrMemInv (tbufRead s) := by
  unfold tbufRead
  dsimp only
  split
  · exact h
  · split <;> exact h

theorem coreMmrRead_memInv (h : s.memInv) (off : Nat) : mmrMemInv (coreMmrRead off s) := by
  have arr : ∀ (l : List Word) (base : Nat),
      mmrMemInv (match nth l base off with | some w => .ok w s | none => .error) := by
    intro l base
    split
    · exact h
    · trivial
  unfold coreMmrRead
  dsimp only
  split
  case h_31 =>
    iterate 8
      split
      · exact arr _ _
    exact arr _ _
  case h_24 => exact tbufRead_memInv h
  all_goals exact h

theorem imemControl_memInv (h : s.memInv) (v : Word) : (imemControl v s).memInv := by
  have outdated : ∀ (ls : List (LineKey × Line)) (t : State),
      (ls.foldl (fun s x => s.outdateLine x.1 x.2) t).mem = t.mem := foldl_mem fun t x => outdateLine_mem t x.1 x.2
  unfold imemControl
  dsimp only
  split
  · refine scrub_memInv (memInv_of_mem h ?_) _ _
    split
    · exact voidLines_mem _ _ _ _
    · exact (voidLines_mem _ _ _ _).trans (outdated _ _)
  · refine memInv_of_mem h ?_
    split
    · exact voidLines_mem _ _ _ _
    · exact (voidLines_mem _ _ _ _).trans (outdated _ _)

theorem dmemControl_memInv (h : s.memInv) (v : Word) : mmrMemInv (dmemControl v s) := by
  have scrubbed : ∀ (t : State) (c : Bool) (lo hi : Nat), t.memInv → (if c then t.scrub lo hi else t).memInv := by
    exact fun _ _ _ _ ht => memInv_ite (scrub_memInv ht _ _) ht
  unfold dmemControl
  dsimp only
  split
  · trivial
  · refine scrubbed _ _ _ _ (scrubbed _ _ _ _ (memInv_of_mem h ?_))
    exact voidLines_mem _ _ _ _

theorem tcntl_memInv (h : s.memInv) (v : Word) : mmrMemInv (tcntl v s) := by
  unfold tcntl
  dsimp only
  split
  · trivial
  · exact h

theorem wpStore_memInv (h : s.memInv) (w : WatchUnit) : mmrMemInv (wpStore w s) := by
  unfold wpStore
  split
  · trivial
  · exact h

theorem coreMmrWrite_memInv (h : s.memInv) (off : Nat) (v : Word) : mmrMemInv (coreMmrWrite off v s) := by
  unfold coreMmrWrite
  dsimp only
  split
  case h_1 => exact dmemControl_memInv h v
  case h_4 => exact dtest_memInv h v
  case h_7 => exact imemControl_memInv h v
  case h_10 => exact itest_memInv h v
  case h_17 => exact tcntl_memInv h v
  case h_25 => exact wpStore_memInv h _
  case h_26 => exact wpStore_memInv h _
  case h_27 => exact wpStore_memInv h _
  case h_31 =>
    have cplb : ∀ (c : Bool) (t : State), t.memInv →
        mmrMemInv (if c then .refused .coreMmrSetting else .ok 0 t) := by
      intro c t ht
      exact mmrMemInv_ite trivial ht
    have watch : ∀ w : WatchUnit, mmrMemInv (wpStore w s) := wpStore_memInv h
    refine mmrMemInv_ite trivial (mmrMemInv_ite (cplb _ _ ?_) (mmrMemInv_ite (cplb _ _ ?_)
      (mmrMemInv_ite (cplb _ _ ?_) (mmrMemInv_ite (cplb _ _ ?_) (mmrMemInv_ite ?_ (mmrMemInv_ite (watch _)
      (mmrMemInv_ite (watch _) (mmrMemInv_ite (watch _) (mmrMemInv_ite (watch _) trivial)))))))))
    all_goals exact h
  all_goals exact h

/-! ## The system interrupt controllers and the reset registers -/

@[simp] theorem setSic_mem (s : State) (id : CoreId) (c : Sic) : (s.setSic id c).mem = s.mem := by cases id <;> rfl

theorem sicWrite_memInv (h : s.memInv) (id : CoreId) (off : Nat) (v : Word) : mmrMemInv (sicWrite id off v s) := by
  have set : ∀ k : Sic, (s.setSic id k).memInv := fun k => memInv_of_mem h (setSic_mem s id k)
  unfold sicWrite
  dsimp only
  split
  case h_3 => exact h
  case h_4 => exact h
  case h_7 => exact mmrMemInv_ite (mmrMemInv_ite (set _) trivial) trivial
  all_goals exact set _

theorem swrstWrite_memInv (h : s.memInv) (v : Word) : mmrMemInv (swrstWrite v s) := by
  refine memInv_ite (systemSoftwareReset_memInv ?_) ?_ <;> exact h

theorem syscrWrite_memInv (h : s.memInv) (v : Word) : mmrMemInv (syscrWrite v s) := by
  refine mmrMemInv_ite trivial (memInv_ite ?_ ?_) <;> exact h

theorem syscrBWrite_memInv (h : s.memInv) (v : Word) : mmrMemInv (syscrBWrite v s) := by
  refine mmrMemInv_ite trivial ?_
  exact h

/-! ## Clocks and the PLL -/

@[simp] theorem setPower_mem (s : State) (p : Power) : (s.setPower p).mem = s.mem := rfl

@[simp] theorem pllStat_mem (s : State) : s.pllStat.2.mem = s.mem := by
  unfold State.pllStat
  dsimp only [setPower_mem]
  split <;> split <;> rfl

theorem powerRead_memInv (h : s.memInv) (off n : Nat) : mmrMemInv (powerRead off n s) := by
  unfold powerRead
  dsimp only
  split
  case h_4 => exact memInv_of_mem h (pllStat_mem s)
  case h_6 => trivial
  all_goals exact h

theorem powerWrite_memInv (h : s.memInv) (off n : Nat) (v : Word) : mmrMemInv (powerWrite off n v s) := by
  unfold powerWrite
  dsimp only
  split
  · exact h
  · refine mmrMemInv_ite trivial ?_
    exact h
  · refine mmrMemInv_ite trivial ?_
    exact h
  · exact h
  · exact h
  · trivial

@[simp] theorem pllWake_mem (s : State) : s.pllWake.mem = s.mem := rfl

@[simp] theorem leaveIdle_mem (s : State) : s.leaveIdle.mem = s.mem := (setSic_mem _ _ _).trans (setPower_mem _ _)

theorem sdramDecay_memInv (h : s.memInv) : s.sdramDecay.memInv := memInv_ite h (scrub_memInv h _ _)

theorem enterHibernate_memInv (h : s.memInv) : s.enterHibernate.memInv := by
  refine scrub_memInv (scrub_memInv (sdramDecay_memInv ?_) _ _) _ _
  exact h

theorem pllApply_memInv (h : s.memInv) : outcomeMemInv s.pllApply := by
  unfold State.pllApply
  dsimp only
  refine outcomeMemInv_ite trivial (outcomeMemInv_ite trivial (outcomeMemInv_ite (enterHibernate_memInv h) ?_))
  split
  · refine sdramDecay_memInv ?_
    exact h
  · exact h
  · refine memInv_ite ?_ ?_ <;> exact h

/-! ## The timers -/

theorem timerRead_memInv (h : s.memInv) (first count shared off n : Nat) :
    mmrMemInv (timerRead first count shared off n s) := by
  unfold timerRead
  dsimp only
  refine mmrMemInv_ite ?_ (mmrMemInv_ite (mmrMemInv_ite h (mmrMemInv_ite h trivial)) trivial)
  split
  case h_5 => trivial
  all_goals exact h

theorem timerStore_memInv (h : s.memInv) (x off n : Nat) (v : Word) : mmrMemInv (timerStore x off n v s) := by
  unfold timerStore
  dsimp only
  split
  · refine mmrMemInv_ite trivial ?_
    exact h
  · exact h
  · refine mmrMemInv_ite h ?_
    exact h
  · refine mmrMemInv_ite h ?_
    exact h
  · trivial

theorem timerWrite_memInv (h : s.memInv) (first count shared off n : Nat) (v : Word) :
    mmrMemInv (timerWrite first count shared off n v s) := by
  unfold timerWrite
  dsimp only
  refine mmrMemInv_ite (timerStore_memInv h _ _ _ _) (mmrMemInv_ite (mmrMemInv_ite (mmrMemInv_ite trivial ?_)
    (mmrMemInv_ite ?_ (mmrMemInv_ite ?_ trivial))) trivial) <;> exact h

/-! ## The parallel ports -/

@[simp] theorem setPpi_mem (s : State) (x : Nat) (p : Ppi) : (s.setPpi x p).mem = s.mem := rfl

@[simp] theorem ppiSample_mem (s : State) (x : Nat) (d : HWord) : (s.ppiSample x d).2.mem = s.mem := by
  unfold State.ppiSample
  dsimp only
  split
  · split
    · rfl
    · exact mem_ite rfl rfl
  · rfl

@[simp] theorem ppiShows_mem (s : State) (x : Nat) (p : Ppi) : (s.ppiShows x p).mem = s.mem := by
  unfold State.ppiShows
  dsimp only
  split <;> rfl

@[simp] theorem ppiClk_mem (s : State) (x : Nat) (d : HWord) (fs1 fs2 fs3 : Bool) :
    (s.ppiClk x d fs1 fs2 fs3).mem = s.mem := by
  unfold State.ppiClk
  dsimp only
  refine mem_ite ?_ rfl
  rw [ppiShows_mem, setPpi_mem, ppiSample_mem]
  rfl

theorem ppiRead_memInv (h : s.memInv) (x off n : Nat) : mmrMemInv (ppiRead x off n s) := by
  unfold ppiRead
  dsimp only
  split
  case h_6 => trivial
  all_goals exact h

theorem ppiControl_memInv (h : s.memInv) (x : Nat) (v : HWord) : mmrMemInv (ppiControl x v s) := by
  refine mmrMemInv_ite (mmrMemInv_ite ?_ (mmrMemInv_ite h trivial)) (mmrMemInv_ite trivial ?_) <;> exact h

theorem ppiWrite_memInv (h : s.memInv) (x off n : Nat) (v : Word) : mmrMemInv (ppiWrite x off n v s) := by
  have set : ∀ q : Ppi, mmrMemInv (if (s.sys.ppi x).en then .refused .unitSetting else .ok 0 (s.setPpi x q)) :=
    fun _ => mmrMemInv_ite trivial h
  unfold ppiWrite
  dsimp only
  split
  · exact ppiControl_memInv h x _
  · exact h
  · exact set _
  · exact set _
  · exact set _
  · trivial

/-! ## The SPI -/

@[simp] theorem spiShows_mem (s : State) (w : HWord) : (s.spiShows w).mem = s.mem := mem_ite rfl rfl

@[simp] theorem spiBegin_mem (s : State) : s.spiBegin.mem = s.mem := by
  unfold State.spiBegin
  dsimp only
  rw [spiShows_mem, setSpi_mem]
  exact pair_ite_mem rfl rfl

@[simp] theorem spiEnd_mem (s : State) (w : HWord) : (s.spiEnd w).mem = s.mem := by
  unfold State.spiEnd
  dsimp only
  rw [setSpi_mem]
  exact pair_ite_mem rfl rfl

@[simp] theorem spiMasterEnd_mem (s : State) : s.spiMasterEnd.mem = s.mem := spiEnd_mem _ _

@[simp] theorem spiPut_mem (s : State) (v : HWord) : (s.spiPut v).mem = s.mem := by
  unfold State.spiPut
  dsimp only
  split
  · split
    · exact (spiShows_mem _ _).trans (setSpi_mem _ _)
    · exact setSpi_mem _ _
  · split
    · exact (spiShows_mem _ _).trans (setSpi_mem _ _)
    · exact setSpi_mem _ _

@[simp] theorem spiTxMove_mem (s : State) : s.spiTxMove.mem = s.mem :=
  mem_ite (setSpi_mem _ _) ((spiPut_mem _ _).trans (setSpi_mem _ _))

theorem setSpi_memInv (h : s.memInv) (p : Spi) : (s.setSpi p).memInv := memInv_of_mem h (setSpi_mem s p)

theorem spiRdbr_memInv (h : s.memInv) : mmrMemInv (spiRdbr s) := by
  unfold spiRdbr
  exact setSpi_memInv (memInv_of_mem h (pair_ite_mem (pair_ite_mem rfl rfl) rfl)) _

theorem spiRead_memInv (h : s.memInv) (off n : Nat) : mmrMemInv (spiRead off n s) := by
  unfold spiRead
  dsimp only
  split
  case h_5 => exact spiRdbr_memInv h
  case h_8 => trivial
  all_goals exact h

theorem spiCtl_memInv (h : s.memInv) (v : HWord) : mmrMemInv (spiCtl v s) :=
  mmrMemInv_ite trivial (setSpi_memInv h _)

theorem spiWrite_memInv (h : s.memInv) (off n : Nat) (v : Word) : mmrMemInv (spiWrite off n v s) := by
  unfold spiWrite
  dsimp only
  split
  · exact spiCtl_memInv h _
  · exact setSpi_memInv h _
  · exact setSpi_memInv h _
  · exact memInv_of_mem h (spiPut_mem _ _)
  · exact h
  · exact setSpi_memInv h _
  · exact h
  · trivial

/-! ## The SPORTs -/

@[simp] theorem frameSync_mem (s : State) (x : Nat) : (s.frameSync x).mem = s.mem :=
  mem_ite rfl (mem_ite rfl (mem_ite rfl rfl))

@[simp] theorem sportBits_mem (s : State) (x : Nat) (a b : Word) : (s.sportBits x a b).mem = s.mem :=
  mem_ite rfl (mem_ite (mem_ite rfl rfl) rfl)

@[simp] theorem sportFreeBits_mem (s : State) (x : Nat) : (s.sportFreeBits x).mem = s.mem := sportBits_mem _ _ _ _

theorem sportMove_mem {x : Nat} {m : SportMove} (e : s.sportMove x m = some t) : t.mem = s.mem := by
  cases m
  case load =>
    obtain ⟨p, -, rfl⟩ := Option.map_eq_some_iff.1 e
    rfl
  case txStart =>
    change (if _ then some _ else some _) = some t at e
    split at e <;> cases e <;> rfl
  case txEnd => cases e; exact mem_ite rfl rfl
  case rxStart => cases e; rfl
  case rxEnd => cases e; exact sportFreeBits_mem s x
  case rxMove => cases e; rfl
  case frame => cases e; exact frameSync_mem s x
  case slotStart => cases e; exact mem_ite rfl rfl
  case slotEnd => cases e; exact sportFreeBits_mem s x

@[simp] theorem sportTfsIn_mem (s : State) (x : Nat) : (s.sportTfsIn x).mem = s.mem :=
  mem_ite rfl (mem_ite rfl (mem_ite rfl rfl))

@[simp] theorem sportRfsIn_mem (s : State) (x : Nat) : (s.sportRfsIn x).mem = s.mem :=
  mem_ite rfl (mem_ite rfl (mem_ite rfl (mem_ite (frameSync_mem s x) rfl)))

theorem sportTcr1_memInv (h : s.memInv) (x : Nat) (v : HWord) : mmrMemInv (sportTcr1 x v s) := by
  refine mmrMemInv_ite (mmrMemInv_ite h (mmrMemInv_ite trivial ?_)) (mmrMemInv_ite (memInv_ite ?_ ?_) ?_) <;> exact h

theorem sportRcr1_memInv (h : s.memInv) (x : Nat) (v : HWord) : mmrMemInv (sportRcr1 x v s) := by
  refine mmrMemInv_ite (mmrMemInv_ite h (mmrMemInv_ite trivial ?_)) (mmrMemInv_ite (mmrMemInv_ite trivial ?_) ?_) <;>
    exact h

theorem sportChnl_memInv (h : s.memInv) (x : Nat) : mmrMemInv (sportChnl x s) := by
  refine mmrMemInv_ite h (mmrMemInv_ite ?_ ?_) <;> exact h

theorem sportRx_memInv (h : s.memInv) (x : Nat) (wide : Bool) : mmrMemInv (sportRx x wide s) := by
  unfold sportRx
  split
  · exact h
  · trivial

theorem sportRead_memInv (h : s.memInv) (x off n : Nat) : mmrMemInv (sportRead x off n s) := by
  unfold sportRead
  dsimp only
  split
  case h_5 => exact sportRx_memInv h x false
  case h_6 => exact sportRx_memInv h x true
  case h_12 => exact sportChnl_memInv h x
  case h_15 => exact mmrMemInv_ite h trivial
  case h_16 => trivial
  all_goals exact h

theorem sportSelect_memInv (h : s.memInv) (x off : Nat) (v : Word) : mmrMemInv (sportSelect x off v s) := by
  refine mmrMemInv_ite trivial (mmrMemInv_ite (mmrMemInv_ite trivial ?_)
    (mmrMemInv_ite (mmrMemInv_ite trivial ?_) trivial)) <;> exact h

theorem sportWrite_memInv (h : s.memInv) (x off n : Nat) (v : Word) : mmrMemInv (sportWrite x off n v s) := by
  have set : ∀ (c : Bool) (q : Sport), mmrMemInv (if c then .ok 0 s else .ok 0 (s.setSport x q)) :=
    fun _ _ => mmrMemInv_ite h h
  unfold sportWrite
  dsimp only
  split
  case h_1 => exact sportTcr1_memInv h x _
  case h_2 => exact set _ _
  case h_4 => exact set _ _
  case h_7 => exact sportRcr1_memInv h x _
  case h_8 => exact set _ _
  case h_10 => exact set _ _
  case h_12 => exact set _ _
  case h_13 => exact set _ _
  case h_14 => exact sportSelect_memInv h x off v
  case h_15 => trivial
  all_goals exact h

/-! ## The UART -/

@[simp] theorem uartSent_mem (s : State) : s.uartSent.mem = s.mem := mem_ite (mem_ite rfl rfl) rfl

theorem uartRead_memInv (h : s.memInv) (off n : Nat) : mmrMemInv (uartRead off n s) := by
  unfold uartRead
  dsimp only
  split
  case h_1 => exact mmrMemInv_ite h h
  case h_9 => trivial
  all_goals exact h

theorem uartWrite_memInv (h : s.memInv) (off n : Nat) (v : Word) : mmrMemInv (uartWrite off n v s) := by
  unfold uartWrite
  dsimp only
  split
  case h_4 => refine memInv_ite ?_ ?_ <;> exact h
  case h_9 => trivial
  all_goals exact h

/-! ## The DMA controllers -/

@[simp] theorem setChan_mem (s : State) (i : Nat) (c : DmaChan) : (s.setChan i c).mem = s.mem := rfl

@[simp] theorem dmaError_mem (s : State) (i : Nat) : (s.dmaError i).mem = s.mem := rfl

theorem dmaError_memInv (h : s.memInv) (i : Nat) : (s.dmaError i).memInv := memInv_of_mem h (dmaError_mem s i)

theorem setChan_memInv (h : s.memInv) (i : Nat) (c : DmaChan) : (s.setChan i c).memInv :=
  memInv_of_mem h (setChan_mem s i c)

theorem dmaReach_memInv {α : Type} (h : s.memInv) (i : Nat) (a : Word) (write : Bool) {ext int : BusRes α}
    (he : busMemInv ext) (hi : busMemInv int) : busMemInv (s.dmaReach i a write ext int) :=
  busMemInv_ite (busMemInv_ite h he) (busMemInv_ite h (busMemInv_ite trivial hi))

theorem dmaLoad_memInv (h : s.memInv) (i : Nat) (a : Word) (n : Nat) : busMemInv (s.dmaLoad i a n) :=
  dmaReach_memInv h i a false (extRead_memInv h _ _ _) h

theorem dmaPut_memInv (h : s.memInv) (i : Nat) (a : Word) (n v : Nat) : busMemInv (s.dmaPut i a n v) :=
  dmaReach_memInv h i a true (extWrite_memInv h _ _ _ _) (memStore_memInv h _ _ _)

theorem dmaBegin_memInv (h : s.memInv) (i : Nat) : outcomeMemInv (s.dmaBegin i) :=
  outcomeMemInv_ite (dmaError_memInv h i) (outcomeMemInv_ite (outcomeMemInv_ite trivial h) (outcomeMemInv_ite trivial h))

theorem dmaUnit_memInv (h : s.memInv) (i : Nat) (first : Bool) : outcomeMemInv (s.dmaUnit i first) :=
  outcomeMemInv_ite (outcomeMemInv_ite h (dmaBegin_memInv h i)) h

theorem dmaFetch_memInv (h : s.memInv) (i f n k : Nat) : outcomeMemInv (s.dmaFetch i f n k) := by
  have hl := dmaLoad_memInv h i (s.sys.chan i).currDesc 2
  unfold State.dmaFetch
  dsimp only
  refine outcomeMemInv_ite (dmaError_memInv h i) ?_
  split <;> rename_i hb <;> rw [hb] at hl
  · exact outcomeMemInv_ite (setChan_memInv hl _ _) (dmaBegin_memInv (setChan_memInv hl _ _) i)
  · exact dmaError_memInv hl i
  · exact hl
  · trivial

theorem dmaIssue_memInv (h : s.memInv) (i : Nat) : outcomeMemInv (s.dmaIssue i) := by
  refine outcomeMemInv_ite trivial (setChan_memInv (memInv_ite ?_ h) _ _)
  exact setChan_memInv h _ _

theorem dmaAccess_memInv (h : s.memInv) (i : Nat) : outcomeMemInv (s.dmaAccess i) := by
  unfold State.dmaAccess
  dsimp only
  split
  · exact h
  next a rest _ =>
    refine outcomeMemInv_ite (dmaError_memInv h i) (outcomeMemInv_ite ?_ ?_)
    · have hp := dmaPut_memInv h i a.addr a.size a.data.toNat
      split <;> rename_i hb <;> rw [hb] at hp
      · exact setChan_memInv hp _ _
      · exact dmaError_memInv hp i
      · exact hp
      · trivial
    · have hl := dmaLoad_memInv h i a.addr a.size
      split <;> rename_i hb <;> rw [hb] at hl
      · exact setChan_memInv hl _ _
      · exact dmaError_memInv hl i
      · exact hl
      · trivial

theorem takeFrom_mem {c : DmaChan} {p : Periph} {r : Word × State} (e : s.takeFrom c p = some r) : r.2.mem = s.mem := by
  unfold State.takeFrom at e
  split at e
  · split at e
    · cases e
    · obtain ⟨q, -, rfl⟩ := Option.map_eq_some_iff.1 e
      rfl
  · split at e
    · cases e
    · obtain ⟨q, -, rfl⟩ := Option.map_eq_some_iff.1 e
      rfl
  · split at e
    · obtain ⟨q, -, rfl⟩ := Option.map_eq_some_iff.1 e
      exact setSpi_mem _ _
    · cases e
  · split at e
    · cases e
      rfl
    · cases e
  · cases e

theorem giveTo_mem {c : DmaChan} {w : Word} {n : Nat} {p : Periph} (e : s.giveTo c w n p = some t) : t.mem = s.mem := by
  unfold State.giveTo at e
  split at e
  · split at e
    · cases e
    · obtain ⟨q, -, rfl⟩ := Option.map_eq_some_iff.1 e
      rfl
  · split at e
    · cases e
    · cases e
      rfl
  · split at e
    · obtain ⟨q, -, rfl⟩ := Option.map_eq_some_iff.1 e
      exact setSpi_mem _ _
    · cases e
  · split at e
    · cases e
      rfl
    · cases e
  · cases e

theorem dmaGrant_memInv (h : s.memInv) (i : Nat) : outcomeMemInv (s.dmaGrant i) := by
  unfold State.dmaGrant
  dsimp only
  split
  · exact h
  · refine outcomeMemInv_ite ?_ ?_
    · split
      next e => exact setChan_memInv (memInv_of_mem h (takeFrom_mem e)) _ _
      · trivial
    · split
      next e => exact setChan_memInv (memInv_of_mem h (giveTo_mem e)) _ _
      · trivial

theorem dmaStep_memInv (h : s.memInv) (i : Nat) (m : DmaMove) : outcomeMemInv (s.dmaStep i m) := by
  cases m
  case fetch =>
    unfold State.dmaStep
    dsimp only
    split
    · exact dmaFetch_memInv h _ _ _ _
    · exact h
  case issue => exact dmaIssue_memInv h i
  case access => exact dmaAccess_memInv h i
  case next => exact dmaUnit_memInv h i false
  case grant => exact dmaGrant_memInv h i

theorem toMmr_memInv {o : Outcome} (ho : outcomeMemInv o) : mmrMemInv (toMmr o) := by
  cases o with
  | next s => exact ho
  | refused r => trivial
  | fault f => trivial

theorem dmaConfig_memInv (h : s.memInv) (i : Nat) (v : HWord) : mmrMemInv (dmaConfig i v s) :=
  mmrMemInv_ite (dmaError_memInv h i) (mmrMemInv_ite (mmrMemInv_ite trivial (setChan_memInv h _ _))
    (mmrMemInv_ite (dmaError_memInv (setChan_memInv h _ _) i)
      (mmrMemInv_ite trivial (toMmr_memInv (dmaUnit_memInv (setChan_memInv h _ _) i true)))))

theorem dmaRead_memInv (h : s.memInv) (i off n : Nat) : mmrMemInv (dmaRead i off n s) := by
  unfold dmaRead
  dsimp only
  refine mmrMemInv_ite ?_ trivial
  split
  case h_14 => trivial
  all_goals exact h

theorem dmaWrite_memInv (h : s.memInv) (i off n : Nat) (v : Word) : mmrMemInv (dmaWrite i off n v s) := by
  unfold dmaWrite
  dsimp only
  refine mmrMemInv_ite (mmrMemInv_ite (dmaConfig_memInv h i _) (mmrMemInv_ite (setChan_memInv h _ _) ?_)) trivial
  split
  · trivial
  · exact memInv_ite (dmaError_memInv h i) (setChan_memInv h _ _)

theorem trafficRead_memInv (h : s.memInv) (per : HWord) (off n : Nat) : mmrMemInv (trafficRead per off n s) := by
  unfold trafficRead
  split
  · exact h
  · exact h
  · trivial

theorem trafficWrite_memInv (h : s.memInv) (dma2 : Bool) (off n : Nat) (v : Word) :
    mmrMemInv (trafficWrite dma2 off n v s) := by
  unfold trafficWrite
  dsimp only
  split
  · exact h
  · exact h
  · trivial

/-! ## The programmable flags -/

@[simp] theorem setFlags_mem (s : State) (n : Nat) (f : FlagBlock) : (s.setFlags n f).mem = s.mem := rfl

/-- What the world is shown of a level that changed. -/
theorem shown_mem (t : State) (old new : Option Bool) (o : Bool → Output) :
    (match new with | some v => if old == new then t else t.emit (o v) | none => t).mem = t.mem := by
  cases new with
  | none => rfl
  | some v => exact mem_ite rfl rfl

@[simp] theorem showPins_mem (t s : State) : (t.showPins s).mem = t.mem := by
  unfold State.showPins
  exact (foldl_mem (fun _ _ => shown_mem _ _ _ _) _ _).trans (foldl_mem (fun _ _ => shown_mem _ _ _ _) _ _)

theorem flagRead_memInv (h : s.memInv) (n off size : Nat) : mmrMemInv (flagRead n off size s) := by
  unfold flagRead
  dsimp only
  refine mmrMemInv_ite ?_ trivial
  split
  case h_9 => trivial
  all_goals exact h

theorem flagWrite_memInv (h : s.memInv) (n off size : Nat) (w : Word) : mmrMemInv (flagWrite n off size w s) := by
  unfold flagWrite
  dsimp only
  refine mmrMemInv_ite ?_ trivial
  split
  case h_9 => trivial
  all_goals exact h

/-! ## The watchdogs -/

@[simp] theorem setWdog_mem (s : State) (id : CoreId) (w : Watchdog) : (s.setWdog id w).mem = s.mem := by
  cases id <;> rfl

@[simp] theorem latchEvent_mem (s : State) (id : CoreId) (n : Nat) : (s.latchEvent id n).mem = s.mem := rfl

theorem setWdog_memInv (h : s.memInv) (id : CoreId) (w : Watchdog) : (s.setWdog id w).memInv :=
  memInv_of_mem h (setWdog_mem s id w)

theorem watchdogExpire_memInv (h : s.memInv) (id : CoreId) : (s.watchdogExpire id).memInv := by
  unfold State.watchdogExpire
  dsimp only
  split
  · exact setWdog_memInv (softReset_memInv h _) _ _
  · exact memInv_of_mem (setWdog_memInv h id _) (latchEvent_mem _ _ _)
  · exact setWdog_memInv h _ _
  · exact setWdog_memInv h _ _

theorem watchdogStep_memInv (h : s.memInv) (id : CoreId) : (s.watchdogStep id).memInv :=
  memInv_ite (watchdogExpire_memInv (setWdog_memInv h _ _) id) (setWdog_memInv h _ _)

theorem wdogRead_memInv (h : s.memInv) (id : CoreId) (off n : Nat) : mmrMemInv (wdogRead id off n s) := by
  unfold wdogRead
  dsimp only
  split
  case h_4 => trivial
  all_goals exact h

theorem wdogWrite_memInv (h : s.memInv) (id : CoreId) (off n : Nat) (v : Word) : mmrMemInv (wdogWrite id off n v s) := by
  unfold wdogWrite
  dsimp only
  split
  · exact memInv_ite (watchdogExpire_memInv (setWdog_memInv h _ _) id) (setWdog_memInv h _ _)
  · exact memInv_ite h (setWdog_memInv h _ _)
  · exact setWdog_memInv h _ _
  · trivial

/-! ## The outside world -/

theorem resetPin_memInv (h : s.memInv) (bm : BitVec 2) (bypass : Bool) : (s.resetPin bm bypass).memInv :=
  memInv_ite h (hardwareReset_memInv h bm bypass)

@[simp] theorem pinInput_mem (s : State) (i : Nat) (level : Bool) : (s.pinInput i level).mem = s.mem :=
  mem_ite rfl rfl

@[simp] theorem timerInput_mem (s : State) (x : Nat) (rising : Bool) : (s.timerInput x rising).mem = s.mem :=
  mem_ite rfl rfl

@[simp] theorem busGrant_mem (s : State) (granted : Bool) : (s.busGrant granted).mem = s.mem := mem_ite rfl rfl

theorem masterStore_memInv (h : s.memInv) (a : Word) (b : Byte) : (s.masterStore a b).memInv :=
  memInv_ite (masterWrite_memInv h a b) h

theorem clockedInput_memInv (h : s.memInv) (i : Input) : (s.clockedInput i).memInv := by
  cases i with
  | nmi id => exact h
  | timerPin x rising => exact memInv_of_mem h (timerInput_mem s x rising)
  | ppiClk x d fs1 fs2 fs3 => exact memInv_of_mem h (ppiClk_mem s x d fs1 fs2 fs3)
  | spiBegin => exact memInv_ite (memInv_of_mem h (spiBegin_mem s)) h
  | spiEnd w => exact memInv_ite (memInv_of_mem h (spiEnd_mem s w)) h
  | uartRecv d p f b => exact memInv_ite h h
  | sportTfs x => exact memInv_of_mem h (sportTfsIn_mem s x)
  | sportRfs x => exact memInv_of_mem h (sportRfsIn_mem s x)
  | pin i level => exact memInv_of_mem h (pinInput_mem s i level)
  | busGrant g => exact memInv_of_mem h (busGrant_mem s g)
  | masterStore a b => exact masterStore_memInv h a b
  | sportRxBits x p q => exact memInv_of_mem h (sportBits_mem s x p q)
  | spiReceived w => exact memInv_ite (memInv_of_mem h (spiEnd_mem s w)) h
  | hardwareReset bm bypass => exact h

theorem input_memInv (h : s.memInv) (i : Input) : (s.input i).memInv := by
  unfold State.input
  split
  · exact resetPin_memInv h _ _
  · exact memInv_ite (clockedInput_memInv h _) h

theorem takeInput_memInv (h : s.memInv) : s.takeInput.memInv := by
  unfold State.takeInput
  split
  · exact h
  next i rest _ =>
    refine input_memInv ?_ i
    exact h

@[simp] theorem sample_mem (s : State) (id : CoreId) : (s.sample id).mem = s.mem := by
  have drawn : ∀ c : Prop, [Decidable c] → (if c then (0, s) else s.drawNat).2.mem = s.mem :=
    fun c _ => pair_ite_mem rfl rfl
  unfold State.sample
  dsimp only
  split
  · exact drawn _
  · exact (setSic_mem _ _ _).trans (drawn _)

/-! ## The map of the system MMRs -/

theorem sicBlockRead_memInv (h : s.memInv) (id : CoreId) (off n : Nat) : mmrMemInv (sicBlockRead id off n s) := by
  unfold sicBlockRead
  refine mmrMemInv_ite (mmrMemInv_ite h trivial) (mmrMemInv_ite (mmrMemInv_ite h trivial) (mmrMemInv_ite ?_ trivial))
  split
  · exact h
  · trivial

theorem sicBlockWrite_memInv (h : s.memInv) (id : CoreId) (off n : Nat) (v : Word) :
    mmrMemInv (sicBlockWrite id off n v s) := by
  unfold sicBlockWrite
  refine mmrMemInv_ite (mmrMemInv_ite (swrstWrite_memInv h v) trivial) (mmrMemInv_ite (mmrMemInv_ite ?_ trivial)
    (mmrMemInv_ite (sicWrite_memInv h id off v) trivial))
  cases id
  · exact syscrWrite_memInv h v
  · exact syscrBWrite_memInv h v

theorem sysMmrRead_memInv (h : s.memInv) (off n : Nat) : mmrMemInv (sysMmrRead off n s) := by
  unfold sysMmrRead
  dsimp only
  refine mmrMemInv_ite trivial ?_
  split
  · exact powerRead_memInv h _ _
  · exact sicBlockRead_memInv h _ _ _
  · exact wdogRead_memInv h _ _ _
  · exact uartRead_memInv h _ _
  · exact spiRead_memInv h _ _
  · exact timerRead_memInv h _ _ _ _ _
  · exact flagRead_memInv h _ _ _
  · exact sportRead_memInv h _ _ _
  · exact sportRead_memInv h _ _ _
  · exact ebiuRead_memInv h _ _
  · exact trafficRead_memInv h _ _ _
  · exact ppiRead_memInv h _ _ _
  · exact sicBlockRead_memInv h _ _ _
  · exact wdogRead_memInv h _ _ _
  · exact ppiRead_memInv h _ _ _
  · exact flagRead_memInv h _ _ _
  · exact timerRead_memInv h _ _ _ _ _
  · exact flagRead_memInv h _ _ _
  · exact trafficRead_memInv h _ _ _
  · split
    · exact dmaRead_memInv h _ _ _
    · trivial

theorem unitWrite_memInv (h : s.memInv) (off n : Nat) (v : Word) : mmrMemInv (unitWrite off n v s) := by
  unfold unitWrite
  dsimp only
  refine mmrMemInv_ite trivial ?_
  split
  · exact powerWrite_memInv h _ _ _
  · exact sicBlockWrite_memInv h _ _ _ _
  · exact wdogWrite_memInv h _ _ _ _
  · exact uartWrite_memInv h _ _ _
  · exact spiWrite_memInv h _ _ _
  · exact timerWrite_memInv h _ _ _ _ _ _
  · exact flagWrite_memInv h _ _ _ _
  · exact sportWrite_memInv h _ _ _ _
  · exact sportWrite_memInv h _ _ _ _
  · exact ebiuWrite_memInv h _ _ _
  · exact trafficWrite_memInv h _ _ _ _
  · exact ppiWrite_memInv h _ _ _ _
  · exact sicBlockWrite_memInv h _ _ _ _
  · exact wdogWrite_memInv h _ _ _ _
  · exact ppiWrite_memInv h _ _ _ _
  · exact flagWrite_memInv h _ _ _ _
  · exact timerWrite_memInv h _ _ _ _ _ _
  · exact flagWrite_memInv h _ _ _ _
  · exact trafficWrite_memInv h _ _ _ _
  · split
    · exact dmaWrite_memInv h _ _ _ _
    · trivial

theorem sysMmrWrite_memInv (h : s.memInv) (off n : Nat) (v : Word) : mmrMemInv (sysMmrWrite off n v s) := by
  have hu := unitWrite_memInv h off n v
  unfold sysMmrWrite
  cases hr : unitWrite off n v s <;> rw [hr] at hu
  case ok w t => exact memInv_of_mem hu (showPins_mem t s)
  all_goals trivial

/-! ## Loads and stores of a core -/

@[simp] theorem dataWatchOne_mem (s : State) (n : Nat) (a : Word) (write dag1 : Bool) :
    (s.dataWatchOne n a write dag1).mem = s.mem := mem_ite (mem_ite rfl rfl) rfl

@[simp] theorem dataWatch_mem (s : State) (a : Word) (write dag1 : Bool) : (s.dataWatch a write dag1).mem = s.mem :=
  mem_ite ((dataWatchOne_mem _ _ _ _ _).trans (dataWatchOne_mem _ _ _ _ _)) rfl

theorem dataWatch_memInv (h : s.memInv) (a : Word) (write dag1 : Bool) : (s.dataWatch a write dag1).memInv :=
  memInv_of_mem h (dataWatch_mem s a write dag1)

@[simp] theorem watched_mem (s : State) (a : Word) (n : Nat) (write dag1 : Bool) :
    (s.watched a n write dag1).mem = s.mem :=
  mem_ite rfl (dataWatch_mem _ _ _ _)

theorem checkData_mem {dag1 write : Bool} {a : Word} {n : Nat} {r : Exc × State}
    (e : s.checkData dag1 a n write = some r) : r.2.mem = s.mem := by
  unfold State.checkData at e
  split at e
  · cases e
  · cases e
    exact mem_ite rfl rfl

theorem mmrLoad_memInv (h : s.memInv) (x n : Nat) (e : Exc) : resMemInv (s.mmrLoad x n e) := by
  unfold State.mmrLoad
  refine resMemInv_ite (resMemInv_ite ?_ h) ?_
  · generalize x - 0xFFE00000 = off
    split
    next hr => exact mmrOk_memInv hr (coreMmrRead_memInv h _)
    · exact h
    · trivial
  · split
    next hr => exact mmrOk_memInv hr (sysMmrRead_memInv h _ _)
    · exact h
    · trivial

theorem mmrSeen_memInv (h : s.memInv) (x n : Nat) (e : Exc) : resMemInv (s.mmrSeen x n e) :=
  resMemInv_ite h (bind_memInv (mmrLoad_memInv h x n e) fun _ _ ht => ht)

theorem performLoad_memInv (h : s.memInv) (a : Word) (n : Nat) (dag1 : Bool) : resMemInv (s.performLoad a n dag1) := by
  unfold State.performLoad
  dsimp only
  refine resMemInv_ite trivial ?_
  split
  · exact h
  · exact h
  · exact mmrSeen_memInv h _ _ _
  · exact mmrSeen_memInv h _ _ _
  · exact uncachedLoad_memInv h _ _
  · exact resMemInv_ite (cachedLoad_memInv h _ _) (uncachedLoad_memInv h _ _)

theorem takeLoad_memInv (h : s.memInv) (a : Word) (n : Nat) (dag1 : Bool) : resMemInv (s.takeLoad a n dag1) := by
  unfold State.takeLoad
  split
  · exact h
  · exact performLoad_memInv h a n dag1

theorem performStore_memInv (h : s.memInv) (a : Word) (n v : Nat) (dag1 : Bool) :
    resMemInv (s.performStore a n v dag1) := by
  unfold State.performStore
  dsimp only
  refine resMemInv_ite trivial ?_
  split
  · exact resMemInv_ite h h
  · exact h
  · exact h
  · exact h
  · exact h
  · split
    · exact cachedStore_memInv h _ _ _ _
    · exact h

theorem loadAt_memInv (h : s.memInv) (dag1 : Bool) (a : Word) (n : Nat) : resMemInv (s.loadAt dag1 a n) := by
  unfold State.loadAt
  split
  next e => exact memInv_of_mem h (checkData_mem e)
  · exact takeLoad_memInv (memInv_of_mem h (watched_mem _ _ _ _ _)) _ _ _

theorem storeAt_memInv (h : s.memInv) (dag1 : Bool) (a : Word) (n v : Nat) : resMemInv (s.storeAt dag1 a n v) := by
  unfold State.storeAt
  split
  next e => exact memInv_of_mem h (checkData_mem e)
  · exact performStore_memInv (memInv_of_mem h (watched_mem _ _ _ _ _)) _ _ _ _

theorem load_memInv (h : s.memInv) (a : Word) (n : Nat) : resMemInv (s.load a n) :=
  bind_memInv (loadAt_memInv h _ a n) fun _ _ ht => resMemInv_ite ht ht

theorem store_memInv (h : s.memInv) (a : Word) (n v : Nat) : resMemInv (s.store a n v) := storeAt_memInv h _ a n v

theorem performPending_memInv (h : s.memInv) (ht : t.memInv) (p : PendStore) : outcomeMemInv (s.performPending t p) := by
  have hb := behindWrite_memInv h (.store s.cur.id) p.addr p.size p.val
  unfold State.performPending
  dsimp only
  refine outcomeMemInv_ite ?_ (outcomeMemInv_ite ?_ (outcomeMemInv_ite (Mem.wf_storeN _ _ _ _ ht) ?_))
  · generalize p.addr - 0xFFE00000 = off
    split
    next hr => exact mmrOk_memInv hr (coreMmrWrite_memInv ht _ _)
    · exact ht
    · trivial
  · split
    next hr => exact mmrOk_memInv hr (sysMmrWrite_memInv ht _ _ _)
    · exact ht
    · trivial
  · split <;> rename_i hr <;> rw [hr] at hb
    · exact hb
    · exact hb
    · exact hb
    · trivial

theorem drain_memInv (h : s.memInv) : outcomeMemInv s.drain := by
  have drawn : ∀ c : Prop, [Decidable c] → (if c then (0, s) else s.drawNat).2.memInv :=
    fun c _ => memInv_of_mem h (pair_ite_mem rfl rfl)
  unfold State.drain
  dsimp only
  split
  · exact drawn _
  · refine outcomeMemInv_ite (performPending_memInv (drawn _) ?_ _) (performPending_memInv ?_ ?_ _) <;> exact drawn _

/-! ## What stays of a step that is taken back -/

theorem replay_memInv (h : s.memInv) (is : List Input) : (s.replay is).memInv := by
  induction is generalizing s with
  | nil => exact h
  | cons i is ih =>
    refine ih (s := match i with | .masterStore a b => s.masterWrite a b | _ => s) ?_
    cases i with
    | masterStore a b => exact masterWrite_memInv h a b
    | _ => exact h

theorem keepBus_memInv (h : s.memInv) (t : State) : (s.keepBus t).memInv := replay_memInv h _

theorem allOrNone_memInv {α : Type} (h : s.memInv) {x : Res α} (hx : resMemInv x) : resMemInv (x.allOrNone s) := by
  cases x with
  | exc e t => exact keepBus_memInv h t
  | ok a t => exact hx
  | stall t => exact hx
  | refused r => trivial
  | fault f => trivial

/-! ## The instructions -/

theorem done_of_mem (h : s.memInv) {len : Nat} (e : t.mem = s.mem) : outcomeMemInv (done len t) :=
  done_memInv (memInv_of_mem h e) len

theorem legal_done_of_mem (h : s.memInv) {ok : Bool} {len : Nat} (e : t.mem = s.mem) :
    outcomeMemInv (legal ok s (done len t)) := legal_memInv h ok (done_of_mem h e)

theorem immCount_done_of_mem (h : s.memInv) {w : Nat} {n : BitVec 6} {len : Nat} (e : t.mem = s.mem) :
    outcomeMemInv (immCount w n (done len t)) := outcomeMemInv_ite (done_of_mem h e) trivial

/-! ### Results of the arithmetic units -/

@[simp] theorem putWord_mem (s : State) (o : MMod) (x : Int) (d : DReg) : (s.putWord o x d).1.mem = s.mem := by
  unfold State.putWord
  split <;> rfl

@[simp] theorem resultWord_mem (s : State) (o : MMod) (x : Int) (d : DReg) : (s.resultWord o x d).mem = s.mem :=
  putWord_mem s o x d

@[simp] theorem resultDual_mem (s : State) (m : MMod) (mm pair : Bool) (x1 x0 : Option Int) (d : DReg) :
    (s.resultDual m mm pair x1 x0 d).mem = s.mem := by
  cases x1 <;> cases x0 <;> cases pair <;> simp [State.resultDual, State.putHalf, State.setDh, State.setV]

@[simp] theorem accumulate_mem (s : State) (m : MMod) (mm : Bool) (a : AccN) (op : MacOp) (p : Int) :
    (s.accumulate m mm a op p).mem = s.mem := by
  cases op
  case none => rfl
  all_goals exact setAcc_mem _ _ _

/-! ### Flow -/

@[simp] theorem saveRets_mem (s : State) (len : Nat) : (s.saveRets len).mem = s.mem := loopStep_mem s len

theorem branch_memInv (h : s.memInv) (taken : Bool) (o : BitVec 10) : outcomeMemInv (s.branch taken o) :=
  outcomeMemInv_ite (transfer_memInv (memInv_of_mem h (count_mem _ _)) _) (done_of_mem h (count_mem _ _))

/-! ### Loads and stores -/

theorem loading_memInv (h : s.memInv) {len : Nat} {a : Word} {n : Nat} {f : Nat → State → State}
    (hf : ∀ v t, (f v t).mem = t.mem) : outcomeMemInv (s.loading len a n f) :=
  run_memInv (load_memInv h a n) fun v t ht => done_of_mem ht (hf v t)

theorem storing_memInv (h : s.memInv) {len : Nat} {a : Word} {n : Nat} {w : Word} {f : State → State}
    (hf : ∀ t, (f t).mem = t.mem) : outcomeMemInv (s.storing len a n w f) :=
  run_memInv (store_memInv h a n _) fun _ t ht => done_of_mem ht (hf t)

@[simp] theorem postP_mem (s : State) (a : PostMod) (p : PReg) (n : Nat) : (s.postP a p n).mem = s.mem := by
  cases a <;> rfl

@[simp] theorem postI_mem (s : State) (a : PostMod) (i : DagN) (n : Nat) : (s.postI a i n).mem = s.mem := by
  cases a <;> rfl

@[simp] theorem addPOrKeep_mem (s : State) (p x : PReg) : (s.addPOrKeep p x).mem = s.mem := mem_ite rfl rfl

/-! ### System instructions -/

theorem execRaiseInt_memInv (h : s.memInv) (n : BitVec 4) : outcomeMemInv (execRaiseInt n s) := by
  unfold execRaiseInt
  refine supervisor_memInv h ?_
  split
  · trivial
  · trivial
  · trivial
  · exact coreOnlyReset_memInv h
  · exact done_of_mem h rfl
  · exact done_of_mem h rfl

theorem testset_memInv (h : s.memInv) (a : Nat) : resMemInv (s.testset a) := by
  have he := extAccess_memInv h (.load s.cur.id) a
  unfold State.testset
  dsimp only
  refine resMemInv_ite h ?_
  split
  · exact memInv_of_mem (memStore_memInv h a 1 (s.mem.loadN a 1 ||| 0x80)) (setCc_mem _ _)
  · split <;> rename_i hb <;> rw [hb] at he
    · refine memInv_of_mem (boardWrite_memInv (memInv_of_mem he ?_) _ a 1 _) (setCc_mem _ _)
      exact boardRead_mem _ _ _ _
    · exact he
    · exact he
    · trivial
  · exact h

theorem execTestset_memInv (h : s.memInv) (p : PReg) : outcomeMemInv (execTestset p s) := by
  unfold execTestset
  dsimp only
  split
  next e _ => exact raise_memInv (memInv_of_mem h (checkData_mem e)) _
  next e _ => exact raise_memInv (memInv_of_mem h (checkData_mem e)) _
  next e => exact raise_memInv (memInv_of_mem h (checkData_mem e)) _
  · exact outcomeMemInv_ite trivial (run_memInv (testset_memInv (dataWatch_memInv (dataWatch_memInv h _ _ _) _ _ _) _)
      fun _ t ht => done_memInv ht 2)

@[simp] theorem postLine_mem (s : State) (inc : Bool) (p : PReg) : (s.postLine inc p).mem = s.mem := mem_ite rfl rfl

@[simp] theorem prefetchLine_mem (s : State) (a : Word) : (s.prefetchLine a).mem = s.mem :=
  mem_ite (mem_ite (startFill_mem _ _) rfl) rfl

theorem flushAt_memInv (h : s.memInv) (a : Word) (inv : Bool) : resMemInv (s.flushAt a inv) := by
  unfold State.flushAt
  split
  · exact h
  · exact resMemInv_ite h (memInv_of_mem h (flushLine_mem s a inv))

theorem execIflush_memInv (h : s.memInv) (inc : Bool) (p : PReg) : outcomeMemInv (execIflush inc p s) :=
  outcomeMemInv_ite h (done_of_mem h ((postLine_mem _ _ _).trans (iflushLine_mem _ _)))

/-! ### The stack -/

@[simp] theorem setIntDisable_mem (s : State) (r : AllReg) (b : Bool) : (s.setIntDisable r b).mem = s.mem :=
  mem_ite rfl rfl

theorem pushWords_memInv (h : s.memInv) (a : Word) (vs : List Word) : resMemInv (s.pushWords a vs) := by
  induction vs generalizing s a with
  | nil => exact h
  | cons v vs ih => exact bind_memInv (store_memInv h _ _ _) fun _ t ht => ih ht _

theorem popWords_memInv (h : s.memInv) (a : Word) (n : Nat) : resMemInv (s.popWords a n) := by
  induction n generalizing s a with
  | zero => exact h
  | succ n ih => exact bind_memInv (load_memInv h _ _) fun _ t ht => bind_memInv (ih ht _) fun _ _ hu => hu

@[simp] theorem setDps_mem (s : State) (rs : List (DPReg × Word)) : (s.setDps rs).mem = s.mem := by
  induction rs generalizing s with
  | nil => rfl
  | cons r rs ih => exact (ih _).trans (setDp_mem _ _ _)

theorem execPushReg_memInv (h : s.memInv) (r : AllReg) : outcomeMemInv (execPushReg r s) :=
  outcomeMemInv_ite (raise_memInv h _) (outcomeMemInv_ite trivial (storing_memInv h fun _ => setIntDisable_mem _ _ _))

theorem execPopReg_memInv (h : s.memInv) (r : AllReg) : outcomeMemInv (execPopReg r s) :=
  outcomeMemInv_ite (raise_memInv h _) (outcomeMemInv_ite trivial (outcomeMemInv_ite trivial
    (loading_memInv h fun _ t => (setIntDisable_mem _ _ _).trans (writeReg_mem t r _))))

theorem execLink_memInv (h : s.memInv) (n : BitVec 16) : outcomeMemInv (execLink n s) := by
  unfold execLink
  refine outcomeMemInv_ite trivial ?_
  refine run_memInv (allOrNone_memInv h (pushWords_memInv h _ _)) fun _ _ ht => ?_
  exact done_of_mem ht rfl

theorem execUnlink_memInv (h : s.memInv) : outcomeMemInv (execUnlink s) := by
  unfold execUnlink
  refine run_memInv (allOrNone_memInv h (popWords_memInv h _ _)) fun _ _ ht => ?_
  exact done_of_mem ht rfl

/-- An instruction keeps the canonical form: most change registers and flags alone; loads, stores and the reset of the cores
by RAISE 1 keep it. -/
theorem exec_memInv (h : s.memInv) (i : Instr) : outcomeMemInv (exec i s) := by
  cases i
  case moveReg d r =>
    exact legal_memInv h _ (outcomeMemInv_ite (raise_memInv h _) (outcomeMemInv_ite trivial
      (done_of_mem h (writeReg_mem s d _))))
  case moveAccAcc | moveAccDreg | moveAccXDregLo | moveAccLDregLo | moveAccHDregHi =>
    exact done_of_mem h (setAcc_mem _ _ _)
  case negAcc | absAcc | satAcc | rotAccImm | rotAcc | ashiftAcc => exact done_of_mem h (setAcc_mem _ _ _)
  case asrAccImm | lsrAccImm | lslAccImm => exact immCount_done_of_mem h (setAcc_mem _ _ _)
  case ifCcMove | ifNccMove => exact done_of_mem h (mem_ite (by simp) (by simp))
  case loadImm16X | loadImm16Z | loadImm16Lo | loadImm16Hi => exact done_of_mem h (writeReg_mem _ _ _)
  case moveDregEvenA0 | moveDregOddA1 => exact legal_done_of_mem h (putWord_mem _ _ _ _)
  case moveDregPairAcc => exact legal_done_of_mem h ((putWord_mem _ _ _ _).trans (putWord_mem _ _ _ _))
  case mulEven | mulOdd => exact legal_done_of_mem h (resultWord_mem _ _ _ _)
  case mulDual => exact legal_done_of_mem h (resultDual_mem _ _ _ _ _ _ _)
  case macA0SetEven | macA1SetOdd | macA0AddEven | macA1AddOdd | macA0SubEven | macA1SubOdd =>
    exact legal_done_of_mem h ((resultWord_mem _ _ _ _).trans (accumulate_mem _ _ _ _ _ _))
  case macDual =>
    exact legal_done_of_mem h ((resultDual_mem _ _ _ _ _ _ _).trans
      ((accumulate_mem _ _ _ _ _ _).trans (accumulate_mem _ _ _ _ _ _)))
  case addSubDreg | accSumDiff | quadAddSub | quadAddSubCross | bitmux => exact legal_done_of_mem h rfl
  case deposit =>
    exact outcomeMemInv_ite (outcomeMemInv_ite (done_of_mem h rfl) (done_of_mem h rfl)) (done_of_mem h rfl)
  case asrImm | lsrImm | lslImm | lslImmSat | asrImmVec | lsrImmVec | lslImmVec | lslImmVecSat | asrImmHalf |
      lsrImmHalf | lslImmHalf | lslImmHalfSat =>
    exact immCount_done_of_mem h rfl
  case bxorShift | bxorAcc | saa | byteop1p | byteop16 | byteop2p | byteop3p | bytepack | emuexcpt => trivial
  case jumpShort | jumpLong | jumpAny | jumpPreg | jumpPcPreg | rts => exact transfer_memInv h _
  case callOff | callPreg | callPcPreg => exact transfer_memInv (memInv_of_mem h (saveRets_mem _ _)) _
  case rti | rtx | rtn => exact supervisor_memInv h (returnTo_memInv h _ _)
  case rte => exact raise_memInv h _
  case brcc | brncc | brccBp | brnccBp => exact branch_memInv h _ _
  case lsetupPreg | lsetup | lsetupPregHalf => exact done_of_mem h (setLoop_mem _ _ _)
  case loadP => exact outcomeMemInv_ite trivial (loading_memInv h fun _ _ => postP_mem _ _ _ _)
  case loadD | loadWZ | loadWX | loadBZ | loadBX => exact loading_memInv h fun _ _ => postP_mem _ _ _ _
  case storeP | storeD | storeW | storeB => exact storing_memInv h fun _ => postP_mem _ _ _ _
  case loadDOff | loadWZOff | loadWXOff | loadPOff | loadDLong | loadPLong | loadWZLong | loadWXLong | loadBZLong |
      loadBXLong =>
    exact loading_memInv h fun _ _ => rfl
  case storeDOff | storeWOff | storePOff | storeFp | storeDLong | storePLong | storeWLong | storeBLong =>
    exact storing_memInv h fun _ => rfl
  case loadFp => exact loading_memInv h fun _ t => setDp_mem t _ _
  case loadDIdx | loadWZIdx | loadWXIdx => exact outcomeMemInv_ite trivial (loading_memInv h fun _ _ => rfl)
  case loadLoIdx | loadHiIdx => exact loading_memInv h fun _ _ => addPOrKeep_mem _ _ _
  case storeDIdx => exact outcomeMemInv_ite trivial (storing_memInv h fun _ => rfl)
  case storeLoIdx | storeHiIdx => exact storing_memInv h fun _ => addPOrKeep_mem _ _ _
  case loadDI | loadLoI | loadHiI => exact loading_memInv h fun _ _ => postI_mem _ _ _ _
  case storeDI | storeLoI | storeHiI => exact storing_memInv h fun _ => postI_mem _ _ _ _
  case loadDIM => exact loading_memInv h fun _ _ => rfl
  case storeDIM => exact storing_memInv h fun _ => rfl
  case cli | sti => exact supervisor_memInv h (done_of_mem h rfl)
  case raiseInt n => exact execRaiseInt_memInv h n
  case excpt => exact raiseService_memInv (memInv_of_mem h (count_mem _ _)) _ _
  case idle => exact outcomeMemInv_ite trivial (outcomeMemInv_ite (done_of_mem h rfl) h)
  case csync | ssync => exact outcomeMemInv_ite (done_of_mem h (count_mem _ _)) h
  case testset p => exact execTestset_memInv h p
  case prefetch => exact done_of_mem h ((postLine_mem _ _ _).trans (prefetchLine_mem _ _))
  case flush | flushinv => exact run_memInv (flushAt_memInv h _ _) fun _ _ ht => done_of_mem ht (postLine_mem _ _ _)
  case iflush inc p => exact execIflush_memInv h inc p
  case pushReg r => exact execPushReg_memInv h r
  case popReg r => exact execPopReg_memInv h r
  case pushMulti => exact run_memInv (pushWords_memInv h _ _) fun _ _ ht => done_of_mem ht rfl
  case popMulti =>
    exact run_memInv (allOrNone_memInv h (popWords_memInv h _ _)) fun _ _ ht => done_of_mem ht (setDps_mem _ _)
  case link n => exact execLink_memInv h n
  case unlink => exact execUnlink_memInv h
  all_goals exact done_of_mem h rfl

/-! ## Bundles -/

theorem part_memInv (h0 : s.memInv) (h : t.memInv) (k : Slot) (i : Instr) {f : State → Outcome}
    (hf : ∀ u, u.memInv → outcomeMemInv (f u)) : outcomeMemInv (part k i s t f) := by
  have he : outcomeMemInv (exec i { t with cur := t.cur.withRegs s.cur, issue := { t.issue with slot := k } }) :=
    exec_memInv (by exact memInv_of_mem h rfl) i
  unfold part
  split <;> rename_i hr
  · rw [hr] at he
    refine outcomeMemInv_ite he ?_
    split
    · exact outcomeMemInv_ite he (takeException_memInv (keepBus_memInv h0 _) _ _)
    · exact hf _ he
  · trivial
  · trivial

theorem execBundle_memInv (h : s.memInv) (i0 i1 i2 : Instr) : outcomeMemInv (execBundle i0 i1 i2 s) := by
  unfold execBundle
  refine outcomeMemInv_ite trivial ?_
  refine part_memInv h (by exact memInv_of_mem h rfl) _ _ fun t0 h0 => ?_
  refine part_memInv h h0 _ _ fun t1 h1 => ?_
  refine part_memInv h h1 _ _ fun t2 h2 => ?_
  exact memInv_of_mem h2 (finish_mem _ _)

/-! ## Fetch, and reads that no instruction completes -/

theorem fetchUnits_memInv (h : s.memInv) : resMemInv s.fetchUnits := by
  unfold State.fetchUnits
  refine bind_memInv (fetchHalf_memInv h _) fun _ _ h1 => resMemInv_ite h1 ?_
  refine bind_memInv (fetchHalf_memInv h1 _) fun _ _ h2 => resMemInv_ite h2 ?_
  refine bind_memInv (fetchHalf_memInv h2 _) fun _ _ h3 => ?_
  exact bind_memInv (fetchHalf_memInv h3 _) fun _ _ h4 => h4

theorem fetch_memInv (h : s.memInv) : resMemInv s.fetch := bind_memInv (fetchUnits_memInv h) fun _ _ ht => ht

theorem runDecoded_memInv (h : s.memInv) (d : Decoded) : outcomeMemInv (runDecoded d s) := by
  cases d with
  | single i len => exact exec_memInv h i
  | bundle i0 i1 i2 => exact execBundle_memInv h i0 i1 i2
  | undefined => exact raise_memInv h _
  | illegal => exact raise_memInv h _
  | notDefined => trivial

@[simp] theorem instWatchOne_mem (s : State) (k j : Nat) : (s.instWatchOne k j).mem = s.mem := by
  unfold State.instWatchOne
  exact mem_ite (mem_ite rfl (mem_ite rfl (mem_ite rfl rfl))) rfl

theorem instWatches_mem (s : State) (l : List (Nat × Nat)) :
    (l.foldl (fun s x => s.instWatchOne x.1 x.2) s).mem = s.mem :=
  foldl_mem (f := fun s (x : Nat × Nat) => s.instWatchOne x.1 x.2) (fun t x => instWatchOne_mem t x.1 x.2) l s

@[simp] theorem instWatch_mem (s : State) : s.instWatch.mem = s.mem := by
  unfold State.instWatch
  split
  · exact instWatches_mem s _
  · rfl

theorem ghostRead_memInv (h : s.memInv) (x : Nat × Nat) : (s.ghostRead x).memInv := by
  have he := extRead_memInv h (.load s.cur.id) x.1 x.2
  unfold State.ghostRead
  refine memInv_ite ?_ (memInv_ite ?_ ?_)
  · split
    next hr =>
      rw [hr] at he
      exact he
    · exact h
  · generalize x.1 - 0xFFE00000 = off
    split
    next hr => exact mmrOk_memInv hr (coreMmrRead_memInv h _)
    · exact h
  · generalize x.1 - 0xFFC00000 = off
    split
    next hr => exact mmrOk_memInv hr (sysMmrRead_memInv h _ _)
    · exact h

theorem ghostReads_memInv (h : s.memInv) (xs : List (Nat × Nat)) : (s.ghostReads xs).memInv := by
  induction xs generalizing s with
  | nil => exact h
  | cons x xs ih => exact ih (memInv_ite (ghostRead_memInv (by exact memInv_of_mem h rfl) x) (memInv_of_mem h rfl))

theorem speculate_memInv (h : s.memInv) (d : Decoded) : (s.speculate d).memInv := by
  unfold State.speculate
  split
  · exact ghostReads_memInv h _
  · exact h

theorem cancelLoad_memInv (h : s.memInv) : s.cancelLoad.memInv := by
  unfold State.cancelLoad
  split
  · exact ghostReads_memInv h _
  · exact h

theorem execute_memInv (h : s.memInv) : outcomeMemInv s.execute := by
  refine run_memInv (fetch_memInv h) fun d t ht => ?_
  have hw : t.instWatch.memInv := memInv_of_mem ht (instWatch_mem t)
  exact outcomeMemInv_ite trivial (outcomeMemInv_ite (raise_memInv hw _) (runDecoded_memInv (speculate_memInv hw d) d))

/-! ## The end of an instruction -/

@[simp] theorem perfAdd_mem (s : State) (n : Bool) (k : Nat) : (s.perfAdd n k).mem = s.mem :=
  mem_ite (mem_ite rfl rfl) rfl

@[simp] theorem countTiming_mem (s : State) (n : Bool) : (s.countTiming n).mem = s.mem := mem_ite (perfAdd_mem _ _ _) rfl

@[simp] theorem passCycles_mem (s : State) : s.passCycles.mem = s.mem := mem_ite rfl rfl

@[simp] theorem passTime_mem (s : State) : s.passTime.mem = s.mem :=
  (countTiming_mem _ _).trans ((countTiming_mem _ _).trans (passCycles_mem s))

@[simp] theorem serviceException_mem (s : State) (e : Exc) (src : Word) : (s.serviceException e src).mem = s.mem :=
  enterEvent_mem _ _ _ _

@[simp] theorem singleStep_mem (s t : State) : (s.singleStep t).2.mem = t.mem :=
  pair_ite_mem (pair_ite_mem (mem_ite rfl rfl) rfl) rfl

@[simp] theorem quiet_mem (s : State) : s.quiet.mem = s.mem := rfl

theorem quiet_memInv (h : s.memInv) : s.quiet.memInv := memInv_of_mem h (quiet_mem s)

theorem serviceException_memInv (h : s.memInv) (e : Exc) (src : Word) : (s.serviceException e src).memInv :=
  memInv_of_mem h (serviceException_mem s e src)

theorem afterCommit_memInv (ht : t.memInv) : outcomeMemInv (s.afterCommit t) := by
  have hs : (s.singleStep (t.count 0x0D)).2.memInv := memInv_of_mem ht ((singleStep_mem _ _).trans (count_mem _ _))
  exact outcomeMemInv_ite trivial (outcomeMemInv_ite (quiet_memInv (serviceException_memInv hs _ _))
    (outcomeMemInv_ite (quiet_memInv (serviceException_memInv hs _ _)) (quiet_memInv hs)))

theorem settle_memInv (h : s.memInv) (ht : t.memInv) : outcomeMemInv (s.settle t) := by
  have hk := keepBus_memInv h t
  refine outcomeMemInv_ite hk (outcomeMemInv_ite (outcomeMemInv_ite trivial (quiet_memInv (takeException_memInv ?_ _ _)))
    (outcomeMemInv_ite trivial (outcomeMemInv_ite (quiet_memInv ht) (afterCommit_memInv ht))))
  exact hk

theorem makeAhead_memInv (h : s.memInv) (e : EarlyRead) : (s.makeAhead e).memInv := by
  have hl : resMemInv ((s.setCur { s.cur with progress := [] }).performLoad (BitVec.ofNat 32 e.addr) e.size false) :=
    performLoad_memInv (by exact memInv_of_mem h rfl) _ _ _
  unfold State.makeAhead
  split
  next hr =>
    rw [hr] at hl
    exact hl
  · exact h

theorem readAhead_memInv (h : s.memInv) : (∀ u, s.readAhead.1 = some u → u.memInv) ∧ s.readAhead.2.memInv := by
  unfold State.readAhead
  split
  · exact ⟨(fun _ e => nomatch e), h⟩
  · refine ⟨fun u e => ?_, h⟩
    obtain ⟨x, -, rfl⟩ := Option.map_eq_some_iff.1 e
    refine makeAhead_memInv ?_ x
    exact h

theorem instruction_memInv (h : s.memInv) : outcomeMemInv s.instruction := by
  have h0 : ((s.setCur { s.cur with synced := false, waiting := none }).passTime).memInv :=
    memInv_of_mem h (passTime_mem _)
  have he := execute_memInv h0
  unfold State.instruction
  dsimp only
  split <;> rename_i hr
  · rw [hr] at he
    exact settle_memInv h0 he
  · trivial
  · trivial

/-! ## Events and the boot kernel -/

@[simp] theorem chooseEvent_mem (s : State) : s.chooseEvent.2.mem = s.mem := by
  unfold State.chooseEvent
  split
  · rfl
  · exact pair_ite_mem rfl (pair_ite_mem rfl rfl)

@[simp] theorem interrupt_mem (s : State) (n : Nat) : (s.interrupt n).mem = s.mem :=
  (enterEvent_mem _ _ _ _).trans (count_mem _ _)

theorem takeEvent_memInv (h : s.memInv) (n : Nat) : outcomeMemInv (s.takeEvent n) := by
  have hs : (if s.cur.idle then s.leaveIdle else s.cancelLoad).memInv :=
    memInv_ite (memInv_of_mem h (leaveIdle_mem s)) (cancelLoad_memInv h)
  unfold State.takeEvent
  dsimp only
  generalize (if s.cur.idle then s.leaveIdle else s.cancelLoad) = u at hs ⊢
  have ht : ((u.setCur { u.cur with synced := false }).passTime.interrupt n).memInv :=
    memInv_of_mem hs ((interrupt_mem _ _).trans (passTime_mem _))
  exact outcomeMemInv_ite trivial (outcomeMemInv_ite (quiet_memInv (serviceException_memInv ht _ _)) (quiet_memInv ht))

theorem place_wf {m : Mem} (h : m.wf = true) (l : List (Word × Byte)) : (m.place l).wf = true := by
  induction l generalizing m with
  | nil => exact h
  | cons x l ih => exact ih (Mem.wf_store _ _ _ h)

theorem boot_memInv (h : s.memInv) : s.boot.memInv := by
  unfold State.boot
  dsimp only
  have placed : ∀ t : State, t.memInv →
      (if t.sys.ctl.noBoot then t else { t with mem := t.mem.place Config.bootImage }).memInv :=
    fun t ht => memInv_ite ht (place_wf ht _)
  refine placed _ (memInv_of_mem h ((showPins_mem _ _).trans ((setFlags_mem _ _ _).trans ((setEbiu_mem _ _).trans
    (setSpi_mem _ _)))))

theorem coreStep_memInv (h : s.memInv) : outcomeMemInv s.coreStep := by
  have hc : s.chooseEvent.2.memInv := memInv_of_mem h (chooseEvent_mem s)
  obtain ⟨hahead, hrest⟩ := readAhead_memInv hc
  unfold State.coreStep
  dsimp only
  split
  · exact takeEvent_memInv hc _
  · refine outcomeMemInv_ite (memInv_of_mem hc (leaveIdle_mem _)) (outcomeMemInv_ite (outcomeMemInv_ite trivial
      (boot_memInv hc)) ?_)
    split <;> rename_i hr <;> rw [hr] at hahead hrest
    · exact hahead _ rfl
    · exact instruction_memInv hrest

/-! ## What acts besides the cores -/

@[simp] theorem setCore_mem (s : State) (id : CoreId) (c : Core) : (s.setCore id c).mem = s.mem := mem_ite rfl rfl

theorem asCore_memInv (h : s.memInv) (id : CoreId) {f : State → State} (hf : ∀ u, u.memInv → (f u).memInv) :
    (s.asCore id f).memInv := by
  refine memInv_ite (hf s h) ?_
  exact hf s.swap h

theorem writeBackOne_memInv (h : s.memInv) : s.writeBackOne.memInv := by
  unfold State.writeBackOne
  dsimp only
  split
  · exact h
  · exact memInv_of_mem h (writeBack_mem _ _)

theorem actAs_memInv (h : s.memInv) (id : CoreId) {f : State → Outcome} (hf : ∀ u, u.memInv → outcomeMemInv (f u)) :
    outcomeMemInv (s.actAs id f) := by
  refine outcomeMemInv_ite (hf s h) ?_
  have hs := hf s.swap h
  split <;> rename_i hr
  · rw [hr] at hs
    exact hs
  · trivial
  · trivial

theorem quietStep_memInv {o : Outcome} (ho : outcomeMemInv o) : outcomeMemInv (quietStep o) := by
  cases o with
  | next t => exact outcomeMemInv_ite trivial ho
  | fault f => trivial
  | refused r => trivial

theorem wakeCore_memInv (h : s.memInv) (id : CoreId) (w : Bool) : (s.wakeCore id w).memInv :=
  memInv_ite (asCore_memInv h id fun u hu => memInv_of_mem hu (leaveIdle_mem u)) h

theorem endSleep_memInv (h : s.memInv) : s.endSleep.memInv := by
  refine wakeCore_memInv (wakeCore_memInv ?_ _ _) _ _
  exact h

theorem act_memInv (h : s.memInv) (a : Agent) : outcomeMemInv (s.act a) := by
  cases a with
  | current => exact coreStep_memInv h
  | other => exact coreStep_memInv (s := s.swap) h
  | coreTimer id => exact memInv_of_mem h (setCore_mem s id _)
  | sic id g => exact memInv_of_mem h (setCore_mem s id _)
  | sample id => exact memInv_of_mem h (sample_mem s id)
  | cache id => exact asCore_memInv h id fun _ hu => writeBackOne_memInv hu
  | drain id => exact actAs_memInv h id fun _ hu => quietStep_memInv (drain_memInv hu)
  | fill id inst => exact actAs_memInv h id fun _ hu => quietStep_memInv (fillStep_memInv hu inst)
  | ardy => exact h
  | selfRefresh => exact enterSelfRefresh_memInv h
  | pllApply => exact pllApply_memInv h
  | pllLock => exact memInv_of_mem h (pllWake_mem _)
  | sleepWake => exact endSleep_memInv h
  | watchdog id => exact watchdogStep_memInv h id
  | timer x => exact memInv_of_mem h (showPins_mem _ s)
  | spiBegin => exact memInv_of_mem h (spiBegin_mem s)
  | spiEnd => exact memInv_of_mem h (spiMasterEnd_mem s)
  | spiFault => exact memInv_of_mem h ((showPins_mem _ s).trans (setSpi_mem s _))
  | spiRx => exact setSpi_memInv h _
  | spiTx => exact memInv_of_mem h (spiTxMove_mem s)
  | uartLoad => exact h
  | uartSent => exact memInv_of_mem h (uartSent_mem s)
  | sport x m =>
    change outcomeMemInv (match s.sportMove x m with | some t => .next t | none => .refused .unitSetting)
    split
    next e => exact memInv_of_mem h (sportMove_mem e)
    · trivial
  | dma i m => exact dmaStep_memInv h i m
  | outside => exact memInv_of_mem (takeInput_memInv h) (showPins_mem _ s)

theorem move_memInv (h : s.memInv) : outcomeMemInv s.move := by
  unfold State.move
  split
  · exact outcomeMemInv_ite trivial h
  · exact act_memInv h _
  · refine act_memInv (s := s.drawNat.2) ?_ _
    exact h

end

/-- Settles O58: every step is the step of one agent, and each agent's step leaves memory as it was or changes it by
stores and scrubs, which keep its form. -/
theorem stepKeepsMemory : Obligations.StepKeepsMemory := by
  intro s t h e
  have hm := move_memInv h
  rw [show s.move = .next t from e] at hm
  exact hm

end Sys2Proof.Proofs
end

section
/-!
The CPLBs (21_cache_cplb.md R430 to R450): what the checks of data accesses and of fetches answer with them enabled, the
accesses that a page or the default descriptor of the scratchpad allows, and an access of two words whose second word more
than one entry matches.
-/

namespace Sys2Proof.Proofs

open Machine Laws

section

variable {s t : State} {c : Core} {a : Word} {n : Nat} {w : Bool}

/-! ## The status registers (R440, R441) -/

theorem ofNat_two_pow_bit (n : Nat) {k : Nat} (hk : k < 32) : (BitVec.ofNat 32 (2 ^ n)).getLsbD k = decide (n = k) := by
  rw [BitVec.getLsbD_ofNat, Nat.testBit_two_pow]
  simp [hk]

/-- The bits at a list of places, those that `p` picks, are set one after the other. -/
theorem foldl_setBits (p : Nat → Bool) (l : List Nat) (v : Word) {k : Nat} (hk : k < 32) :
    (l.foldl (fun v n => if p n then v ||| BitVec.ofNat 32 (2 ^ n) else v) v).getLsbD k =
      (v.getLsbD k || (decide (k ∈ l) && p k)) := by
  induction l generalizing v with
  | nil => simp
  | cons n l ih =>
    have first : (if p n then v ||| BitVec.ofNat 32 (2 ^ n) else v).getLsbD k =
        (v.getLsbD k || (decide (n = k) && p n)) := by
      cases p n
      · simp
      · rw [if_pos rfl, BitVec.getLsbD_or, ofNat_two_pow_bit n hk, Bool.and_true]
    rw [List.foldl_cons, ih, first]
    by_cases hn : n = k
    · subst hn
      cases p n <;> simp
    · simp [hn, Ne.symm hn]

/-- The FAULT field: bit `k` says whether entry `k` matches; above it nothing is set. -/
theorem cplbFault_bit (v : Vector Cplb 16) (a : Word) {k : Nat} (hk : k < 32) :
    (cplbFault v a).getLsbD k = (decide (k < 16) && (v.toList.getD k ⟨0, 0⟩).hit a) := by
  rw [cplbFault, foldl_setBits (fun n => (v.toList.getD n ⟨0, 0⟩).hit a) _ _ hk]
  simp

theorem statusBit_bit (b : Bool) (n : Nat) {k : Nat} (hk : k < 32) : (statusBit b n).getLsbD k = (b && decide (n = k)) := by
  cases b
  · simp [statusBit]
  · rw [statusBit, if_pos rfl, ofNat_two_pow_bit n hk, Bool.true_and]

/-- DCPLB_STATUS with the DCPLBs enabled: the matching entries, the direction, the mode, the DAG, an illegal address. -/
theorem dataStatus_bit (hon : c.dmem.endcplb = true) (a : Word) (write dag1 ill : Bool) {k : Nat} (hk : k < 32) :
    (c.dataStatus a write dag1 ill).getLsbD k =
      ((decide (k < 16) && (c.dmem.cplb.toList.getD k ⟨0, 0⟩).hit a) || (write && decide (16 = k)) ||
        (!c.user && decide (17 = k)) || (dag1 && decide (18 = k)) || (ill && decide (19 = k))) := by
  simp only [Core.dataStatus, hon, if_true, BitVec.getLsbD_or, cplbFault_bit _ _ hk, statusBit_bit _ _ hk]

/-- The FAULT field of ICPLB_STATUS with the ICPLBs enabled. -/
theorem fetchStatus_fault (hon : c.imem.enicplb = true) (a : Word) (ill : Bool) {k : Nat} (hk : k < 16) :
    (c.fetchStatus a ill).getLsbD k = (c.imem.cplb.toList.getD k ⟨0, 0⟩).hit a := by
  have h17 : ¬ 17 = k := by omega
  have h19 : ¬ 19 = k := by omega
  simp [Core.fetchStatus, hon, cplbFault_bit _ _ (show k < 32 by omega), statusBit_bit _ _ (show k < 32 by omega), hk, h17,
    h19]

/-! ## What the check of a data access answers (R335, R450) -/

/-- Memory that instructions load and store has no rule of its own against an access (R335 items 3a to 3d). -/
theorem fixedViolation_memory (hreg : c.region a.toNat ∈ [Region.external, .l2, .dataSram, .scratchpad])
    (write dag1 : Bool) : c.fixedViolation a write dag1 = none := by
  simp only [List.mem_cons, List.not_mem_nil, or_false] at hreg
  rcases hreg with hreg | hreg | hreg | hreg <;> simp [Core.fixedViolation, hreg]

/-- More than one matching entry ranks above everything else of the check. -/
theorem dataCheck_twice (hon : c.dmem.endcplb = true) (hhits : 2 ≤ (cplbHits c.dmem.cplb a).length) (n : Nat)
    (write dag1 : Bool) (st : Word) :
    c.dataCheck a n write dag1 st = some (c.dataExc 0x27 11 a write dag1 false) := by
  simp [Core.dataCheck, hon, hhits]

/-- One matching entry decides by what it denies. -/
theorem dataCheck_page (hon : c.dmem.endcplb = true) (hal : a.toNat % n = 0)
    (hreg : c.region a.toNat ∈ [Region.external, .l2, .dataSram, .scratchpad]) {e : Cplb}
    (hhits : cplbHits c.dmem.cplb a = [e]) (write dag1 : Bool) (st : Word) :
    c.dataCheck a n write dag1 st =
      if e.denies c.user write then some (c.dataExc 0x23 13 a write dag1 false) else none := by
  simp [Core.dataCheck, hon, hal, hhits, fixedViolation_memory hreg]

/-- Without a matching entry the default descriptors decide (R435). -/
theorem dataCheck_noPage (hon : c.dmem.endcplb = true) (hal : a.toNat % n = 0)
    (hreg : c.region a.toNat ∈ [Region.external, .l2, .dataSram, .scratchpad]) (hhits : cplbHits c.dmem.cplb a = [])
    (write dag1 : Bool) (st : Word) :
    c.dataCheck a n write dag1 st =
      if c.defaultPage a then none else some (c.dataExc 0x26 14 a write dag1 false) := by
  cases hpage : c.defaultPage a <;> simp [Core.dataCheck, hon, hal, hhits, fixedViolation_memory hreg, hpage]

/-- Of the memory that instructions load and store only the scratchpad has a default descriptor (R435, D41). -/
theorem defaultPage_memory (hreg : c.region a.toNat ∈ [Region.external, .l2, .dataSram, .scratchpad]) :
    c.defaultPage a = decide (c.region a.toNat = .scratchpad) := by
  simp only [List.mem_cons, List.not_mem_nil, or_false] at hreg
  rcases hreg with hreg | hreg | hreg | hreg <;> simp [Core.defaultPage, hreg]

/-- What makes an entry deny an access: the mode has not the right, or it is a store to a clean write-back page (R335
item 3e). -/
theorem denies_eq_true {e : Cplb} {user : Bool}
    (h : (w = false ∧ user = true ∧ e.userRd = false) ∨ (w = true ∧ user = true ∧ e.userWr = false) ∨
      (w = true ∧ user = false ∧ e.supvWr = false) ∨
      (w = true ∧ e.cacheable = true ∧ e.writeThrough = false ∧ e.dirty = false)) :
    e.denies user w = true := by
  rcases h with ⟨hw, hu, hright⟩ | ⟨hw, hu, hright⟩ | ⟨hw, hu, hright⟩ | ⟨hw, hl1, hwt, hdirty⟩
  · simp [Cplb.denies, hw, hu, hright]
  · simp [Cplb.denies, hw, hu, hright]
  · simp [Cplb.denies, hw, hu, hright]
  · simp [Cplb.denies, hw, hl1, hwt, hdirty]

/-- An entry that gives every right, of a page that the cache does not hold, denies nothing. -/
theorem denies_eq_false {e : Cplb} (hl1 : e.cacheable = false) (hrd : e.userRd = true) (huwr : e.userWr = true)
    (hswr : e.supvWr = true) (user write : Bool) : e.denies user write = false := by
  simp [Cplb.denies, hl1, hrd, huwr, hswr]

/-! ## Exceptions of data accesses (R440, R450) -/

/-- The instruction `i`, whose data access is at `x`, takes the exception `code`, and the fault registers take the address,
the matching entries, the direction and the mode (R440). -/
def dataTraps (i : Instr) (s : State) (x : Word) (w : Bool) (code : BitVec 6) : Prop :=
  Traps i s code ∧ ∀ t, exec i s = .next t → t.cur.dmem.faultAddr = x ∧
    (∀ k, k < 16 → t.cur.dmem.status.getLsbD k = (s.cur.dmem.cplb.toList.getD k ⟨0, 0⟩).hit x) ∧
    t.cur.dmem.status.getLsbD 16 = w ∧ t.cur.dmem.status.getLsbD 17 = !s.user ∧
    t.cur.dmem.status.getLsbD 18 = false ∧ t.cur.dmem.status.getLsbD 19 = false

theorem access_dataTraps (h : s.canTrap) (hon : s.cur.dmem.endcplb = true) {i : Instr}
    (hi : s.access i = some (a, n, w)) {code : BitVec 6} {prio : Nat}
    (hcheck : s.cur.dataCheck a n w false (Config.freeWord s.free) = some (s.cur.dataExc code prio a w false false)) :
    dataTraps i s a w code := by
  obtain ⟨m, hm⟩ := access_stopped h.1 hi hcheck
  obtain ⟨htraps, hreport⟩ := raise_reported h _ m hm
  refine ⟨htraps, fun t ht => ?_⟩
  have haddr : t.cur.dmem.faultAddr = a := by
    rw [(hreport t ht).1]
    rfl
  have hstatus : t.cur.dmem.status = s.cur.dataStatus a w false false := by
    rw [(hreport t ht).1]
    rfl
  rw [hstatus]
  have bit {k : Nat} (hk : k < 32) := dataStatus_bit hon a w false false hk
  refine ⟨haddr, fun k hk => ?_, (bit (by decide)).trans ?_, (bit (by decide)).trans ?_, (bit (by decide)).trans ?_,
    (bit (by decide)).trans ?_⟩
  · have h16 : ¬ 16 = k := by omega
    have h17 : ¬ 17 = k := by omega
    rw [bit (by omega)]
    simp [hk, h16, h17]
  all_goals simp [State.user]

/-! ## Accesses that nothing stands in the way of, with the DCPLBs on -/

/-- The page of `x` allows every access and is not cacheable, and `x` lies in L1 data SRAM; or no entry matches and `x` lies
in the scratchpad, which its default descriptor opens (R435, D41). -/
def pageAllows (c : Core) (x : Word) : Prop :=
  (∃ e, cplbHits c.dmem.cplb x = [e] ∧ e.cacheable = false ∧ c.region x.toNat = .dataSram ∧
      e.userRd = true ∧ e.userWr = true ∧ e.supvWr = true) ∨
    (cplbHits c.dmem.cplb x = [] ∧ c.region x.toNat = .scratchpad)

/-- An aligned access to an allowed page with the DCPLBs on, which the watchpoint unit does not see, no other part of a bundle
makes and the core has not made ahead: `State.plain` with the DCPLBs on. -/
structure Allowed (s : State) (a : Word) (n : Nat) : Prop where
  aligned : a.toNat % n = 0
  on : s.cur.dmem.endcplb = true
  unwatched : s.cur.wp.iactl.getLsbD 0 = false
  alone : s.issue.clash = none
  now : s.cur.earlyRead a.toNat n = none
  page : pageAllows s.cur a

theorem dataCheck_allowed (hon : c.dmem.endcplb = true) (hal : a.toNat % n = 0) (hpage : pageAllows c a)
    (write dag1 : Bool) (st : Word) : c.dataCheck a n write dag1 st = none := by
  rcases hpage with ⟨e, hhits, hl1, hreg, hrd, huwr, hswr⟩ | ⟨hhits, hreg⟩
  · rw [dataCheck_page hon hal (by simp [hreg]) hhits, denies_eq_false hl1 hrd huwr hswr]
    rfl
  · rw [dataCheck_noPage hon hal (by simp [hreg]) hhits, defaultPage_memory (by simp [hreg]), hreg]
    rfl

theorem checkData_allowed (h : Allowed s a n) (write dag1 : Bool) : s.checkData dag1 a n write = none := by
  rw [State.checkData, dataCheck_allowed h.on h.aligned h.page]

theorem watched_allowed (h : Allowed s a n) (write dag1 : Bool) : s.watched a n write dag1 = s := by
  rw [State.watched, State.dataWatch, h.unwatched, if_neg Bool.false_ne_true, ite_self]

/-- The page is not one that makes L1 data SRAM cacheable (R412). -/
theorem badPage_allowed (hpage : pageAllows c a) : c.badPage a = false := by
  rcases hpage with ⟨e, hhits, hl1, hreg, -⟩ | ⟨-, hreg⟩
  · simp [Core.badPage, hreg, hhits, hl1]
  · simp [Core.badPage, hreg]

theorem region_allowed (hpage : pageAllows c a) : c.region a.toNat = .dataSram ∨ c.region a.toNat = .scratchpad := by
  rcases hpage with ⟨-, -, -, hreg, -⟩ | ⟨-, hreg⟩
  · exact .inl hreg
  · exact .inr hreg

/-- An allowed load answers the bytes as the core sees them and changes nothing. -/
theorem load_allowed (h : Allowed s a n) :
    s.load a n = .ok (overlay s.cur.stores a.toNat n (s.mem.loadN a.toNat n)) s := by
  have taken : s.takeLoad a n s.dag1 = .ok (overlay s.cur.stores a.toNat n (s.mem.loadN a.toNat n)) s := by
    rcases region_allowed h.page with hreg | hreg <;>
      simp [State.takeLoad, h.now, State.performLoad, badPage_allowed h.page, hreg]
  simp [State.load, State.loadAt, checkData_allowed h, watched_allowed h, taken, Res.bind, Issue.clashes, h.alone]

/-- An allowed store joins the core's pending stores and changes nothing else. -/
theorem store_allowed (h : Allowed s a n) (v : Nat) : s.store a n v = .ok () (s.pend a.toNat n v) := by
  rcases region_allowed h.page with hreg | hreg <;>
    simp [State.store, State.storeAt, checkData_allowed h, watched_allowed h, State.performStore, badPage_allowed h.page,
      hreg]

theorem postP_holds (s : State) (m : PostMod) (p : PReg) (n : Nat) {x k : Nat} {v : Word} (h : s.holds x k v) :
    (s.postP m p n).holds x k v := by
  cases m <;> exact h

/-- A word load through a pointer register that the page allows. -/
theorem loadD_allowed {m : PostMod} {d : DReg} {p : PReg} (h : Allowed s (s.p p) 4) :
    Completes (.loadD m d p) s 2 ([.d d] ++ ifPost m (.p p)) [] noBytes fun u =>
      u.d d = s.word (s.p p).toNat ∧ u.p p = postValue m (s.p p) 4 := by
  refine ⟨(s.setD d (s.word (s.p p).toNat)).postP m p 4, ?_, ?_, ?_, ?_, postP_p _ m p 4⟩
  · change s.loading 2 (s.p p) 4 _ = _
    rw [State.loading, load_allowed h, ← loadZ_word]
    rfl
  · rw [postP_issue]
    rfl
  · exact frame_postP (Frame.setD (Frame.refl s _ _ _) (by simp) _) (fun r hr => by simp [hr]) 4
  · rw [postP_d, setD_d_same]

/-- A word store through a pointer register that the page allows. -/
theorem storeD_allowed {m : PostMod} {d : DReg} {p : PReg} (h : Allowed s (s.p p) 4) :
    Completes (.storeD m p d) s 2 (ifPost m (.p p)) [] (bytesAt (s.p p).toNat 4) fun u =>
      u.holds (s.p p).toNat 4 (s.d d) ∧ u.p p = postValue m (s.p p) 4 := by
  let v : State := s.pend (s.p p).toNat 4 ((s.d d).toNat % 2 ^ (8 * 4))
  refine ⟨v.postP m p 4, ?_, ?_, ?_, postP_holds v m p 4 (pend_holds s _ 4 _ (Nat.le_refl 4)), postP_p v m p 4⟩
  · change s.storing 2 (s.p p) 4 (s.d d) _ = _
    rw [State.storing, store_allowed h]
    rfl
  · rw [postP_issue]
    rfl
  · exact frame_postP (Frame.pend (Frame.refl s _ _ _) (by decide) (fun _ hx => hx) _) (fun _ hr => hr) 4

/-! ## Two words of which more than one entry matches the second (46_system.md R1018 to R1020) -/

/-- More than one entry matches, the DCPLBs being on. -/
def matchedTwice (c : Core) (x : Word) : Prop := c.dmem.endcplb = true ∧ 2 ≤ (cplbHits c.dmem.cplb x).length

/-- The first word is stored; the second, which two entries match, raises 0x27. -/
theorem pushWords_second (h : s.issue.slot = .single) (hfirst : Allowed s (a - 4) 4) (hsecond : matchedTwice s.cur (a - 8))
    (v v' : Word) (vs : List Word) :
    ∃ m, s.pushWords a (v :: v' :: vs) =
      .exc (s.cur.dataExc 0x27 11 (a - 8) true false false) { s.pend (a - 4).toNat 4 v.toNat with free := m } := by
  have below : a - 4 - 4 = a - 8 := by rw [sub_sub]; rfl
  obtain ⟨m, hm⟩ := pushWords_stopped (s := s.pend (a - 4).toNat 4 v.toNat) (a := a - 4) h
    (dataCheck_twice hsecond.1 (below ▸ hsecond.2) 4 true false _) v' vs
  refine ⟨m, ?_⟩
  rw [State.pushWords, store_allowed hfirst, ← below]
  exact hm

/-- The first word is loaded; the second, which two entries match, raises 0x27. -/
theorem popWords_second (h : s.issue.slot = .single) (hfirst : Allowed s a 4) (hsecond : matchedTwice s.cur (a + 4)) (j : Nat) :
    ∃ m, s.popWords a (j + 2) = .exc (s.cur.dataExc 0x27 11 (a + 4) false false false) { s with free := m } := by
  obtain ⟨m, hm⟩ := popWords_stopped h (dataCheck_twice hsecond.1 hsecond.2 4 false false _) j
  refine ⟨m, ?_⟩
  rw [State.popWords, load_allowed hfirst]
  simp only [Res.bind, hm]

/-- The exception of a later access takes the pending store of an earlier one back. -/
theorem allOrNone_pend {α : Type} (s : State) (e : Exc) (x k v m : Nat) :
    (Res.exc e { s.pend x k v with free := m } : Res α).allOrNone s = .exc e { s with free := m } := by
  have kept : s.keepBus { s.pend x k v with free := m } = s.keepBus { s with free := m } := rfl
  simp only [Res.allOrNone, kept, keepBus_free]
  rfl

theorem link_second (h : s.canTrap) (hfirst : Allowed s (s.p .sp - 4) 4) (hsecond : matchedTwice s.cur (s.p .sp - 8))
    {n : BitVec 16} (hn : 2 ≤ n.toNat) : Traps (.link n) s 0x27 := by
  obtain ⟨m, hm⟩ := pushWords_second h.1 hfirst hsecond s.cur.rets (s.p .fp) []
  refine (raise_reported h (s.cur.dataExc 0x27 11 (s.p .sp - 8) true false false) m ?_).1
  change execLink n s = _
  rw [execLink, if_neg (by omega), hm, allOrNone_pend]
  rfl

theorem popMulti_second (h : s.canTrap) (hfirst : Allowed s (s.p .sp) 4) (hsecond : matchedTwice s.cur (s.p .sp + 4))
    {rs : MultiRegs} (hrs : 2 ≤ (multiList rs).length) : Traps (.popMulti rs) s 0x27 := by
  obtain ⟨j, hj⟩ := Nat.exists_eq_add_of_le' hrs
  obtain ⟨m, hm⟩ := popWords_second h.1 hfirst hsecond j
  refine (raise_reported h (s.cur.dataExc 0x27 11 (s.p .sp + 4) false false false) m ?_).1
  change execPopMulti rs s = _
  simp only [execPopMulti, List.length_reverse, hj, hm, allOrNone_stopped]
  rfl

theorem unlink_second (h : s.canTrap) (hfirst : Allowed s (s.p .fp) 4) (hsecond : matchedTwice s.cur (s.p .fp + 4)) :
    Traps .unlink s 0x27 := by
  obtain ⟨m, hm⟩ := popWords_second h.1 hfirst hsecond 0
  refine (raise_reported h (s.cur.dataExc 0x27 11 (s.p .fp + 4) false false false) m ?_).1
  change execUnlink s = _
  simp only [execUnlink, hm, allOrNone_stopped]
  rfl

/-! ### What an entry leaves of the core -/

/-- The state in which event 3 is entered for the exception `e`: the report and EXCAUSE have been written. -/
def reported (u : State) (e : Exc) : State :=
  u.setCur { u.cur.report e.report with seqstat := { (u.cur.report e.report).seqstat with excause := e.code } }

/-- Where an exception is taken, event 3 is entered, a misaligned address having been counted. -/
theorem takeException_eq (h : s.cur.inException = false) (e : Exc) (ret : Word) :
    ∃ u, (s.perfOff → u = s) ∧ s.takeException e ret = (reported u e).enterEvent 3 (reported u e).cur.pc ret := by
  refine ⟨if e.code = 0x24 ∨ e.code = 0x2A then s.count 0x0F else s, fun hperf => ?_, ?_⟩
  · rw [count_off hperf, ite_self]
  · rw [State.takeException, if_neg (by rw [h]; decide)]
    rfl

theorem takeException_idle (h : s.cur.inException = false) (e : Exc) (ret : Word) :
    (s.takeException e ret).cur.idle = false := by
  obtain ⟨u, -, hu⟩ := takeException_eq h e ret
  obtain ⟨-, -, -, hidle, -⟩ := enterEvent3_keeps (reported u e) (reported u e).cur.pc ret
  rw [hu, hidle]

/-- Of the step's own marks an exception sets that of an event and, where the trace buffer fills, that of a full buffer. -/
theorem takeException_issue (h : s.cur.inException = false) (hperf : s.perfOff) (e : Exc) (ret : Word) :
    ∃ full, (s.takeException e ret).issue = { s.issue with event := true, full := full } := by
  obtain ⟨u, hsame, hu⟩ := takeException_eq h e ret
  obtain rfl := hsame hperf
  obtain ⟨es, full, hentry⟩ := enterEvent3 (reported u e) (reported u e).cur.pc ret
  refine ⟨full, ?_⟩
  rw [hu, hentry]
  rfl

/-- The entry of an exception, as `State.entered` says it, and the registers and pending stores that it leaves. -/
theorem entered_of_raise (h : s.canTrap) (e : Exc) :
    ∃ t, raise e s = .next t ∧ s.entered t e.code s.cur.pc ∧ t.cur.stores = s.cur.stores ∧ t.mem = s.mem ∧
      t.cur.r = s.cur.r ∧ t.cur.p = s.cur.p := by
  have hraise := raise_takes h.1 e
  obtain ⟨t, ht, hretx, hpc, hseq, hev, -, -, hcore, -, -, hmem, -⟩ := (raise_reported h e s.free rfl).1
  obtain rfl : s.takeException e s.cur.pc = t := by simpa [hraise] using ht
  have hexcause := congrArg Seqstat.excause hseq
  have hipend := congrArg EventCtl.ipend hev
  have himask := congrArg EventCtl.imask hev
  have hstores := congrArg Core.stores hcore
  have hr := congrArg Core.r hcore
  have hp := congrArg Core.p hcore
  exact ⟨_, hraise, ⟨hretx, hexcause, hpc, hipend, himask, takeException_idle h.2 e _⟩, hstores, hmem, hr, hp⟩

/-- Of a push multiple the first word has been stored, and nothing else of it is done. -/
theorem pushMulti_second (h : s.canTrap) (hfirst : Allowed s (s.p .sp - 4) 4) (hsecond : matchedTwice s.cur (s.p .sp - 8))
    {m : MultiRegs} {r q : DPReg} {rs : List DPReg} (hm : multiList m = r :: q :: rs) :
    ∃ t, exec (.pushMulti m) s = .next t ∧ s.entered t 0x27 s.cur.pc ∧
      t.cur.stores = s.cur.stores ++ [⟨(s.p .sp - 4).toNat, 4, (s.dp r).toNat⟩] ∧ t.mem = s.mem ∧
      t.holds (s.p .sp - 4).toNat 4 (s.dp r) ∧ t.cur.r = s.cur.r ∧ t.cur.p = s.cur.p := by
  obtain ⟨k, hk⟩ := pushWords_second h.1 hfirst hsecond (s.dp r) (s.dp q) (rs.map s.dp)
  let v : State := s.pend (s.p .sp - 4).toNat 4 (s.dp r).toNat
  obtain ⟨t, ht, hentered, hstores, hmem, hr, hp⟩ := entered_of_raise (s := { v with free := k }) h
    (s.cur.dataExc 0x27 11 (s.p .sp - 8) true false false)
  have hexec : exec (.pushMulti m) s = raise (s.cur.dataExc 0x27 11 (s.p .sp - 8) true false false) { v with free := k } := by
    change execPushMulti m s = _
    rw [execPushMulti, hm, List.map_cons, List.map_cons, hk]
    rfl
  have hholds : v.holds (s.p .sp - 4).toNat 4 (s.dp r) := by
    have whole := pend_holds s (s.p .sp - 4).toNat 4 (s.dp r) (Nat.le_refl 4)
    rwa [Nat.mod_eq_of_lt (s.dp r).isLt] at whole
  refine ⟨t, hexec.trans ht, hentered, hstores, hmem, fun j hj => ?_, hr, hp⟩
  rw [← hholds j hj, State.seen, hstores, hmem]
  rfl

/-! ## Fetches (R441, R450) -/

theorem fetchCheck_twice (hon : c.imem.enicplb = true) (hhits : 2 ≤ (cplbHits c.imem.cplb a).length) :
    c.fetchCheck a = some (c.fetchExc 0x2D 2 a false) := by
  simp [-BitVec.getLsbD_eq_getElem, Core.fetchCheck, hon, hhits]

/-- Data memory is no place to fetch from, whatever a page says. -/
theorem fetchCheck_dataMemory (hon : c.imem.enicplb = true) (hal : a.getLsbD 0 = false)
    (hhits : (cplbHits c.imem.cplb a).length < 2)
    (hreg : c.region a.toNat ∈ [Region.dataSram, .scratchpad, .sysMmr, .coreMmr]) :
    c.fetchCheck a = some (c.fetchExc 0x2B 4 a false) := by
  have once : ¬ 2 ≤ (cplbHits c.imem.cplb a).length := by omega
  simp only [List.mem_cons, List.not_mem_nil, or_false] at hreg
  rcases hreg with hreg | hreg | hreg | hreg <;>
    simp [-BitVec.getLsbD_eq_getElem, Core.fetchCheck, hon, once, hal, hreg]

theorem fetchCheck_noPage (hon : c.imem.enicplb = true) (hal : a.getLsbD 0 = false)
    (hreg : c.region a.toNat ∈ [Region.external, .bootRom, .l2, .instSram]) (hhits : cplbHits c.imem.cplb a = []) :
    c.fetchCheck a = some (c.fetchExc 0x2C 5 a false) := by
  simp only [List.mem_cons, List.not_mem_nil, or_false] at hreg
  rcases hreg with hreg | hreg | hreg | hreg <;>
    simp [-BitVec.getLsbD_eq_getElem, Core.fetchCheck, hon, hhits, hal, hreg]

/-- A page that User mode may not read may not be fetched from in it. -/
theorem fetchCheck_denied (hon : c.imem.enicplb = true) (hal : a.getLsbD 0 = false)
    (hreg : c.region a.toNat ∈ [Region.external, .bootRom, .l2, .instSram]) {e : Cplb}
    (hhits : cplbHits c.imem.cplb a = [e]) (hu : c.user = true) (hrd : e.userRd = false) :
    c.fetchCheck a = some (c.fetchExc 0x2B 4 a false) := by
  simp only [List.mem_cons, List.not_mem_nil, or_false] at hreg
  rcases hreg with hreg | hreg | hreg | hreg <;>
    simp [-BitVec.getLsbD_eq_getElem, Core.fetchCheck, hon, hhits, hal, hreg, hu, hrd]

/-- A fetch that the checks stop answers their exception. -/
theorem fetch_stopped {e : Exc} (hcheck : s.cur.fetchCheck s.cur.pc = some e) : s.fetch = .exc e s := by
  simp [State.fetch, State.fetchUnits, State.fetchHalf, hcheck, Res.bind]

/-- A step of a core whose monitor and cycle counter are off takes no time that can be seen. -/
theorem passTime_off (hccen : s.cur.syscfg.ccen = false) (hperf : s.perfOff) : s.passTime = s := by
  have off : ∀ k, s.cur.perfOn k = false := fun k => by
    rw [Core.perfOn, show s.cur.perf.ctl.getLsbD 0 = false from hperf]
    rfl
  simp [State.passTime, State.passCycles, hccen, State.countTiming, off]

/-- The state in which the instruction of a step begins. -/
def begun (s : State) : State := s.setCur { s.cur with synced := false, waiting := none }

/-- With no other agent to move, no event to take and no load to make ahead, the step is the instruction at the pc. -/
theorem step_quiet (hq : s.quietCore) (hahead : s.readAhead = (none, s)) : step s = s.instruction := by
  obtain ⟨hturns, hidle, htake, hboot, -⟩ := hq
  have hmove : step s = s.coreStep := by
    rw [step, State.move, hturns]
    rfl
  rw [hmove]
  simp [State.coreStep, State.chooseEvent, htake, hidle, hboot, hahead]

/-- A step that ends at the entry of an event does so with nothing of the instruction in progress. -/
theorem settle_event {u : State} (hstall : t.issue.stalled = false) (hhit : t.issue.hit = none) (hemu : t.issue.emu = false)
    (hevent : t.issue.event = true) : u.settle t = .next t.quiet := by
  simp [State.settle, hstall, hhit, hemu, hevent]

/-- The step of a quiet core whose fetch the checks stop is the entry of their exception. -/
theorem step_fetch_stopped (hq : s.quietCore) (h : s.canTrap) {e : Exc} (hcheck : s.cur.fetchCheck s.cur.pc = some e) :
    step s = .next ((begun s).takeException e s.cur.pc).quiet := by
  have hahead : s.readAhead = (none, s) := by
    simp [State.readAhead, State.aheads, fetch_stopped hcheck]
  obtain ⟨-, -, -, -, -, hccen, -, hperf, -, -, hissue, -⟩ := id hq
  have hbegun : (s.setCur { s.cur with synced := false, waiting := none }).passTime = begun s :=
    passTime_off (s := begun s) hccen hperf
  have hfetch : (begun s).fetch = .exc e (begun s) := fetch_stopped hcheck
  have hexecute : (begun s).execute = .next ((begun s).takeException e s.cur.pc) := by
    rw [State.execute, hfetch]
    exact raise_takes (s := begun s) h.1 e
  obtain ⟨full, hmarks⟩ := takeException_issue (s := begun s) h.2 hperf e s.cur.pc
  replace hmarks : ((begun s).takeException e s.cur.pc).issue = { Issue.idle with event := true, full := full } := by
    rw [hmarks, ← hissue]
    rfl
  rw [step_quiet hq hahead, State.instruction, hbegun]
  simp only [hexecute]
  exact settle_event (by rw [hmarks]; rfl) (by rw [hmarks]; rfl) (by rw [hmarks]; rfl) (by rw [hmarks])

/-- Between the state before a step and that in which its instruction begins, and at the end of the step, only the model's
own bookkeeping differs, of which the entry of an exception says nothing. -/
theorem entered_quiet {code : BitVec 6} (h : Entered (.next t) (begun s) code) : Entered (.next t.quiet) s code := by
  obtain ⟨u, hu, hretx, hpc, hseq, hev, hilat, hperf, hcore, hrest⟩ := h
  cases hu
  refine ⟨_, rfl, hretx, hpc, hseq, hev, hilat, hperf, ?_, hrest⟩
  exact congrArg (fun d : Core => { d with synced := s.cur.synced, waiting := s.cur.waiting }) hcore

/-- The step fetches from a place that the checks refuse: it enters the exception `code`, and the fault registers take the
address and the matching entries (R441). -/
def fetchTraps (s : State) (code : BitVec 6) : Prop :=
  Entered (step s) s code ∧ ∀ t, step s = .next t → t.cur.imem.faultAddr = s.cur.pc ∧
    (∀ k, k < 16 → t.cur.imem.status.getLsbD k = (s.cur.imem.cplb.toList.getD k ⟨0, 0⟩).hit s.cur.pc)

theorem step_fetchTraps (hq : s.quietCore) (h : s.canTrap) (hon : s.cur.imem.enicplb = true) {code : BitVec 6} {prio : Nat}
    {ill : Bool} (hcheck : s.cur.fetchCheck s.cur.pc = some (s.cur.fetchExc code prio s.cur.pc ill)) : fetchTraps s code := by
  have hstep := step_fetch_stopped hq h hcheck
  obtain ⟨hentered, -, himem⟩ := takeException_entered (s := begun s) h.2 (s.cur.fetchExc code prio s.cur.pc ill) s.free
  refine ⟨hstep ▸ entered_quiet hentered, fun t ht => ?_⟩
  obtain rfl : ((begun s).takeException _ s.cur.pc).quiet = t := by simpa [hstep] using ht
  have hfetched : ((begun s).takeException (s.cur.fetchExc code prio s.cur.pc ill) s.cur.pc).quiet.cur.imem =
    { s.cur.imem with faultAddr := s.cur.pc, status := s.cur.fetchStatus s.cur.pc ill } := himem
  rw [hfetched]
  exact ⟨rfl, fun k hk => fetchStatus_fault hon _ _ hk⟩

end

/-- Settles O39: the checks answer by the entries that match, the first access of an instruction raises what they answer,
and what they allow is made as without the CPLBs. -/
theorem cplbChecks : Obligations.CplbChecks := by
  refine ⟨?hit, ?data, ?allowed, ?second, ?fetch⟩
  case hit =>
    intro e x
    unfold Cplb.hit Cplb.pageBits
    dsimp only
    generalize (e.data.extractLsb' 16 2).toNat = k
    rcases k with _ | _ | _ | k <;> rfl
  case data =>
    intro i s x n w h hi hon
    refine ⟨fun hhits => access_dataTraps h hon hi (dataCheck_twice hon hhits n w false _), fun hal hreg => ⟨?denied, ?none⟩⟩
    case denied =>
      intro e hhits hbits
      refine access_dataTraps (prio := 13) h hon hi ?_
      rw [dataCheck_page hon hal hreg hhits]
      exact if_pos (denies_eq_true hbits)
    case none =>
      intro hhits hscratch
      refine access_dataTraps (prio := 14) h hon hi ?_
      rw [dataCheck_noPage hon hal hreg hhits, defaultPage_memory hreg, decide_eq_false hscratch]
      rfl
  case allowed =>
    intro a d p s x hal hon hwatch hclash hearly hpage
    have h : Allowed s (s.p p) 4 := ⟨hal, hon, hwatch, hclash, hearly, hpage⟩
    exact ⟨loadD_allowed h, storeD_allowed h⟩
  case second =>
    intro s h hon hwatch hclash isOpen twice sp
    have first {x : Word} (hx : isOpen x) : Allowed s x 4 := by
      obtain ⟨hal, hreg, hearly, e, hhits, hl1, hrd, huwr, hswr⟩ := hx
      exact ⟨hal, hon, hwatch, hclash, hearly, .inl ⟨e, hhits, hl1, hreg, hrd, huwr, hswr⟩⟩
    refine ⟨fun h1 h2 => ⟨fun n hn => ?_, fun m r q rs hm => ?_⟩, fun h1 h2 m hm => ?_, fun h1 h2 => ?_⟩
    · exact link_second h (first h1) ⟨hon, h2⟩ hn
    · exact pushMulti_second h (first h1) ⟨hon, h2⟩ hm
    · exact popMulti_second h (first h1) ⟨hon, h2⟩ hm
    · exact unlink_second h (first h1) ⟨hon, h2⟩
  case fetch =>
    intro s hq h hon
    refine ⟨fun hhits => step_fetchTraps hq h hon (fetchCheck_twice hon hhits), fun hal hone => ⟨fun hreg => ?_, fun hreg =>
      ⟨fun hhits => ?_, fun e hhits hu hrd => ?_⟩⟩⟩
    · exact step_fetchTraps hq h hon (fetchCheck_dataMemory hon hal hone hreg)
    · exact step_fetchTraps hq h hon (fetchCheck_noPage hon hal hreg hhits)
    · exact step_fetchTraps hq h hon (fetchCheck_denied hon hal hreg hhits hu hrd)

end Sys2Proof.Proofs
end

section
/-!
The round trip of the encoding (30_encoding.md R509): every instruction spelled as its word's own row is read back from its
bytes, and a bundle from the words of its parts.
-/

namespace Sys2Proof.Proofs

open Laws

/-- The round trip of every instruction, put together from the one of each row: the lemmas stand in the order of the
constructors of `Instr`. -/
theorem roundTrip (i : Instr) : RoundTrip.Statement i :=
  Instr.rec (motive := RoundTrip.Statement)
    RoundTrip.moveReg RoundTrip.moveAccAcc RoundTrip.moveAccDreg RoundTrip.moveDregEvenA0 RoundTrip.moveDregOddA1
    RoundTrip.moveDregPairAcc RoundTrip.ifCcMove RoundTrip.ifNccMove RoundTrip.moveHalfZ RoundTrip.moveHalfX
    RoundTrip.moveAccXDregLo RoundTrip.moveDregLoAccX RoundTrip.moveAccLDregLo RoundTrip.moveAccHDregHi
    RoundTrip.moveDregLoA0 RoundTrip.moveDregHiA1 RoundTrip.moveDregHalvesAcc RoundTrip.moveByteZ RoundTrip.moveByteX
    RoundTrip.loadImm7D RoundTrip.loadImm7P RoundTrip.loadImm16X RoundTrip.loadImm16Z RoundTrip.loadImm16Lo
    RoundTrip.loadImm16Hi RoundTrip.clearA0 RoundTrip.clearA1 RoundTrip.clearA1A0 RoundTrip.ccFromDreg
    RoundTrip.dregFromCc RoundTrip.ccFlagSet RoundTrip.ccFlagOr RoundTrip.ccFlagAnd RoundTrip.ccFlagXor
    RoundTrip.flagCcSet RoundTrip.flagCcOr RoundTrip.flagCcAnd RoundTrip.flagCcXor RoundTrip.ccNot RoundTrip.addPreg
    RoundTrip.addPregTo RoundTrip.subPregFrom RoundTrip.addPregImm7 RoundTrip.addDreg RoundTrip.addDregOpt
    RoundTrip.subDreg RoundTrip.subDregOpt RoundTrip.addSubDreg RoundTrip.addDregImm7 RoundTrip.negDreg
    RoundTrip.negDregOpt RoundTrip.accSumDiff RoundTrip.addHalf RoundTrip.subHalf RoundTrip.vecAddAdd
    RoundTrip.vecAddSub RoundTrip.vecSubAdd RoundTrip.vecSubSub RoundTrip.quadAddSub RoundTrip.quadAddSubCross
    RoundTrip.accAdd RoundTrip.accSub RoundTrip.dregAccAdd RoundTrip.dregHalfAccAdd RoundTrip.negAcc
    RoundTrip.negAccBoth RoundTrip.absAcc RoundTrip.absAccBoth RoundTrip.satAcc RoundTrip.satAccBoth RoundTrip.divs
    RoundTrip.divq RoundTrip.maxDreg RoundTrip.maxVec RoundTrip.minDreg RoundTrip.minVec RoundTrip.absDreg
    RoundTrip.absVec RoundTrip.roundHalf RoundTrip.addRnd12 RoundTrip.subRnd12 RoundTrip.addRnd20 RoundTrip.subRnd20
    RoundTrip.signbitsDreg RoundTrip.signbitsHalf RoundTrip.signbitsAcc RoundTrip.expadjVec RoundTrip.expadj
    RoundTrip.andDreg RoundTrip.notDreg RoundTrip.orDreg RoundTrip.xorDreg RoundTrip.cmpEqDreg RoundTrip.cmpLtDreg
    RoundTrip.cmpLeDreg RoundTrip.cmpLtuDreg RoundTrip.cmpLeuDreg RoundTrip.cmpPreg RoundTrip.addShift1Dreg
    RoundTrip.addShift2Dreg RoundTrip.addShift1Preg RoundTrip.addShift2Preg RoundTrip.addShifted1Preg
    RoundTrip.addShifted2Preg RoundTrip.shl1Preg RoundTrip.shl2Preg RoundTrip.shr2Preg RoundTrip.shr1Preg
    RoundTrip.mulLo RoundTrip.mulHi RoundTrip.mulEven RoundTrip.mulOdd RoundTrip.mulDual RoundTrip.macA0Set
    RoundTrip.macA1Set RoundTrip.macA0SetLo RoundTrip.macA1SetHi RoundTrip.macA0SetEven RoundTrip.macA1SetOdd
    RoundTrip.macA0Add RoundTrip.macA1Add RoundTrip.macA0AddLo RoundTrip.macA1AddHi RoundTrip.macA0AddEven
    RoundTrip.macA1AddOdd RoundTrip.macA0Sub RoundTrip.macA1Sub RoundTrip.macA0SubLo RoundTrip.macA1SubHi
    RoundTrip.macA0SubEven RoundTrip.macA1SubOdd RoundTrip.macDual RoundTrip.mulDreg RoundTrip.bitclr RoundTrip.bitset
    RoundTrip.bittgl RoundTrip.ccBittst RoundTrip.ccNotBittst RoundTrip.asrImmTo RoundTrip.lsrImmTo RoundTrip.lslImmTo
    RoundTrip.deposit RoundTrip.extract RoundTrip.bitmux RoundTrip.ones RoundTrip.pack RoundTrip.asrImm
    RoundTrip.lsrImm RoundTrip.lslImm RoundTrip.lslImmSat RoundTrip.asrImmVec RoundTrip.lsrImmVec RoundTrip.lslImmVec
    RoundTrip.lslImmVecSat RoundTrip.asrImmHalf RoundTrip.lsrImmHalf RoundTrip.lslImmHalf RoundTrip.lslImmHalfSat
    RoundTrip.asrDregTo RoundTrip.lsrDregTo RoundTrip.lslDregTo RoundTrip.ashift RoundTrip.ashiftSat RoundTrip.lshift
    RoundTrip.ashiftVec RoundTrip.ashiftVecSat RoundTrip.lshiftVec RoundTrip.ashiftHalf RoundTrip.ashiftHalfSat
    RoundTrip.lshiftHalf RoundTrip.rotImm RoundTrip.rotDreg RoundTrip.rotAccImm RoundTrip.rotAcc RoundTrip.asrAccImm
    RoundTrip.lsrAccImm RoundTrip.lslAccImm RoundTrip.ashiftAcc RoundTrip.bxorShift RoundTrip.bxorAcc RoundTrip.saa
    RoundTrip.byteop1p RoundTrip.byteop16 RoundTrip.byteop2p RoundTrip.byteop3p RoundTrip.bytepack RoundTrip.jumpShort
    RoundTrip.jumpLong RoundTrip.jumpAny RoundTrip.jumpPreg RoundTrip.jumpPcPreg RoundTrip.callOff RoundTrip.callPreg
    RoundTrip.callPcPreg RoundTrip.rts RoundTrip.rti RoundTrip.rtx RoundTrip.rtn RoundTrip.rte RoundTrip.brcc
    RoundTrip.brncc RoundTrip.brccBp RoundTrip.brnccBp RoundTrip.lsetupPreg RoundTrip.lsetup RoundTrip.lsetupPregHalf
    RoundTrip.disalgnexcpt RoundTrip.loadP RoundTrip.loadD RoundTrip.loadWZ RoundTrip.loadWX RoundTrip.loadBZ
    RoundTrip.loadBX RoundTrip.storeP RoundTrip.storeD RoundTrip.storeW RoundTrip.storeB RoundTrip.loadDOff
    RoundTrip.loadWZOff RoundTrip.loadWXOff RoundTrip.loadPOff RoundTrip.storeDOff RoundTrip.storeWOff
    RoundTrip.storePOff RoundTrip.loadFp RoundTrip.storeFp RoundTrip.loadDLong RoundTrip.loadPLong
    RoundTrip.loadWZLong RoundTrip.loadWXLong RoundTrip.loadBZLong RoundTrip.loadBXLong RoundTrip.storeDLong
    RoundTrip.storePLong RoundTrip.storeWLong RoundTrip.storeBLong RoundTrip.loadDIdx RoundTrip.loadLoIdx
    RoundTrip.loadHiIdx RoundTrip.loadWZIdx RoundTrip.loadWXIdx RoundTrip.storeDIdx RoundTrip.storeLoIdx
    RoundTrip.storeHiIdx RoundTrip.loadDI RoundTrip.loadLoI RoundTrip.loadHiI RoundTrip.storeDI RoundTrip.storeLoI
    RoundTrip.storeHiI RoundTrip.loadDIM RoundTrip.storeDIM RoundTrip.addIM RoundTrip.subIM RoundTrip.addIMBrev
    RoundTrip.addPregBrev RoundTrip.addI2 RoundTrip.subI2 RoundTrip.addI4 RoundTrip.subI4 RoundTrip.nop RoundTrip.mnop
    RoundTrip.cli RoundTrip.sti RoundTrip.raiseInt RoundTrip.excpt RoundTrip.emuexcpt RoundTrip.idle RoundTrip.csync
    RoundTrip.ssync RoundTrip.testset RoundTrip.prefetch RoundTrip.flush RoundTrip.flushinv RoundTrip.iflush
    RoundTrip.pushReg RoundTrip.popReg RoundTrip.pushMulti RoundTrip.popMulti RoundTrip.link RoundTrip.unlink i

/-- A well-formed instruction is spelled as its word's own row. -/
theorem spelled_of_wf {i : Instr} (h : i.wf = true) : i.spelled = true := by
  rw [Instr.wf, Bool.and_eq_true] at h
  exact h.2

/-- Settles O1: the round trip of each row, in one statement. -/
theorem decodeEncode : Obligations.DecodeEncode :=
  ⟨roundTrip, fun _ => spelled_of_wf⟩

end Sys2Proof.Proofs
end

section
/-!
Bundles (30_encoding.md R506): a DSP word with its multi-issue bit and two 16-bit units decode to the three instructions that
the words stand for.
-/

namespace Sys2Proof.Proofs

open Laws

/-! ## What the round trip says of the words of an instruction -/

/-- The two bytes of a unit hold its low 16 bits. -/
theorem unitOf_ofNat (u : Nat) : unitOf (BitVec.ofNat 8 u) (BitVec.ofNat 8 (u / 256)) = u % 65536 := by
  simp only [unitOf, BitVec.toNat_ofNat]
  omega

theorem unitOf_zero : unitOf 0#8 0#8 = 0 := rfl

/-- Four units are decoded as they stand, each by its low 16 bits. -/
theorem decode_unitBytes (u0 u1 u2 u3 : Nat) : decode ([u0, u1, u2, u3].flatMap unitBytes) =
    decodeUnits (u0 % 65536) (u1 % 65536) (u2 % 65536) (u3 % 65536) := by
  simp [decode, unitBytes, unitOf_ofNat]

/-- The outcome of a decoder is an instruction only where the decoder answers it. -/
theorem ofOption_eq_single {len n : Nat} {named : Bool} {o : Option Instr} {i : Instr}
    (h : Decoded.ofOption len named o = .single i n) : o = some i ∧ len = n := by
  cases o with
  | none => cases named <;> simp [Decoded.ofOption] at h
  | some j => simpa [Decoded.ofOption] using h

theorem ofOption_ne_bundle {len : Nat} {named : Bool} {o : Option Instr} {i0 i1 i2 : Instr} :
    Decoded.ofOption len named o ≠ .bundle i0 i1 i2 := by
  cases o <;> cases named <;> simp [Decoded.ofOption]

/-- What a bundle decodes to is a bundle only where each part is what its units decode to and stands where it may. -/
theorem decodeBundle_eq_bundle {u0 u1 u2 u3 : Nat} {i0 i1 i2 : Instr} (h : decodeBundle u0 u1 u2 u3 = .bundle i0 i1 i2) :
    decode32 u0 u1 = some i0 ∧ decode16 u2 = some i1 ∧ decode16 u3 = some i2 ∧
      ¬ (i1.isStore16 = true ∧ i2.isStore16 = true) := by
  unfold decodeBundle at h
  split at h
  · split at h <;> cases h
  next j0 h0 =>
    split at h
    · cases h
    · split at h
      next j1 j2 h1 h2 =>
        split at h
        next hok =>
          cases h
          simp only [Bool.and_eq_true, Bool.not_eq_true', Bool.and_eq_false_iff] at hok
          refine ⟨h0, h1, h2, fun ⟨hs1, hs2⟩ => ?_⟩
          simp [hs1, hs2] at hok
        · cases h
      · cases h

/-- A bundle is no single instruction. -/
theorem decodeBundle_ne_single {u0 u1 u2 u3 n : Nat} {i : Instr} : decodeBundle u0 u1 u2 u3 ≠ .single i n := by
  intro h
  unfold decodeBundle at h
  split at h
  · split at h <;> cases h
  · split at h
    · cases h
    · split at h
      · split at h <;> cases h
      · cases h

/-- Units decode to one instruction only by the decoder of its length. -/
theorem decodeUnits_eq_single {u0 u1 u2 u3 n : Nat} {i : Instr} (h : decodeUnits u0 u1 u2 u3 = .single i n) :
    unitLen u0 = n ∧ (n = 2 ∧ decode16 u0 = some i ∨ n = 4 ∧ decode32 u0 u1 = some i) := by
  unfold decodeUnits at h
  split at h
  next h2 =>
    obtain ⟨hi, rfl⟩ := ofOption_eq_single h
    exact ⟨h2, .inl ⟨rfl, hi⟩⟩
  · split at h
    next h4 =>
      obtain ⟨hi, rfl⟩ := ofOption_eq_single h
      exact ⟨h4, .inr ⟨rfl, hi⟩⟩
    · exact absurd h decodeBundle_ne_single

/-- Units decode to a bundle only where the first says so. -/
theorem decodeUnits_eq_bundle {u0 u1 u2 u3 : Nat} {i0 i1 i2 : Instr} (h : decodeUnits u0 u1 u2 u3 = .bundle i0 i1 i2) :
    decodeBundle u0 u1 u2 u3 = .bundle i0 i1 i2 := by
  unfold decodeUnits at h
  split at h
  · exact absurd h ofOption_ne_bundle
  · split at h
    · exact absurd h ofOption_ne_bundle
    · exact h

/-- The word of a 16-bit instruction, by its low 16 bits. -/
theorem decode16_encode {i : Instr} {u : Nat} (hi : i.spelled = true) (he : encode i = [u]) :
    unitLen (u % 65536) = 2 ∧ decode16 (u % 65536) = some i := by
  have h := roundTrip i hi
  have hb : decode (encodeBytes i) = decodeUnits (u % 65536) 0 0 0 := by
    simp [decode, encodeBytes, he, unitBytes, unitOf_ofNat, unitOf_zero]
  rw [hb, Instr.len, he] at h
  obtain ⟨hlen, ⟨-, hd⟩ | ⟨h4, -⟩⟩ := decodeUnits_eq_single h
  · exact ⟨hlen, hd⟩
  · cases h4

/-- The words of a 32-bit instruction, by their low 16 bits. -/
theorem decode32_encode {i : Instr} {u v : Nat} (hi : i.spelled = true) (he : encode i = [u, v]) :
    decode32 (u % 65536) (v % 65536) = some i := by
  have h := roundTrip i hi
  have hb : decode (encodeBytes i) = decodeUnits (u % 65536) (v % 65536) 0 0 := by
    simp [decode, encodeBytes, he, unitBytes, unitOf_ofNat, unitOf_zero]
  rw [hb, Instr.len, he] at h
  obtain ⟨-, ⟨h2, -⟩ | ⟨-, hd⟩⟩ := decodeUnits_eq_single h
  · cases h2
  · exact hd

/-! ## The multi-issue bit -/

/-- A field below the multi-issue bit. -/
theorem bits_multi {u lo n : Nat} (h : lo + n ≤ 11) : bits (u + 0x800) lo n = bits u lo n := by
  have hpow : 0x800 = 2 ^ (11 - lo - n) * 2 ^ n * 2 ^ lo := by
    rw [← pow_add, ← pow_add, show 11 - lo - n + n + lo = 11 by omega]
    rfl
  rw [bits, bits, hpow, Nat.add_mul_div_right _ _ (Nat.two_pow_pos lo), Nat.add_mul_mod_self_right]

theorem bit_multi {u k : Nat} (h : k ≤ 10) : bit (u + 0x800) k = bit u k :=
  congrArg (· == 1) (bits_multi (lo := k) (n := 1) (by omega))

/-- The multi-issue bit is not part of a DSP instruction (R506). -/
theorem decode32_multi {u v : Nat} (h : 0xC000 ≤ u) (h' : u < 0xC800) : decode32 (u + 0x800) v = decode32 u v := by
  have hdsp : bits u 12 4 = 12 := field (by omega)
  have hdsp' : bits (u + 0x800) 12 4 = 12 := field (by omega)
  simp [decode32, hdsp, hdsp', decodeMac, decodeMult, decodeAlu, decodeShift, decodeShiftImm, bits_multi, bit_multi]

theorem unitLen_multi {u : Nat} (h : 0xC000 ≤ u) (h' : u < 0xC800) : unitLen (u + 0x800) = 8 := by
  have hlong : bits (u + 0x800) 14 2 = 3 := field (by omega)
  have hdsp : bits (u + 0x800) 13 3 = 6 := field (by omega)
  simp [unitLen, hlong, hdsp, bit_of_one (w := u + 0x800) (k := 11) (by omega)]

/-- A unit that decodes to an instruction is not undefined. -/
theorem undefined16_of_some {u : Nat} {i : Instr} (h : decode16 u = some i) : undefined16 u = false := by
  simp [undefined16, h]

/-- Settles O3: the parts are read back by the round trip of each, the multi-issue bit left out. -/
theorem bundleDecodes : Obligations.BundleDecodes := by
  intro i0 i1 i2 u v u1 u2 hi0 hi1 hi2 he0 hlow hhigh he1 he2 hslot1 hslot2 hstores
  have h0 := decode32_encode hi0 he0
  obtain ⟨-, h1⟩ := decode16_encode hi1 he1
  obtain ⟨-, h2⟩ := decode16_encode hi2 he2
  rw [Nat.mod_eq_of_lt (by omega), ← decode32_multi hlow hhigh] at h0
  have hnot : (i1.isStore16 && i2.isStore16) = false := by simpa using hstores
  rw [decode_unitBytes, Nat.mod_eq_of_lt (show u + 0x800 < 65536 by omega)]
  simp [decodeUnits, unitLen_multi hlow hhigh, decodeBundle, h0, h1, h2, undefined16_of_some, hslot1, hslot2, hnot]

end Sys2Proof.Proofs
end

section
/-!
Whatever is decoded is spelled as its word's own row and has the length that its units say (30_encoding.md R502, R507), format
by format.
-/

namespace Sys2Proof.Proofs

open Laws

/-- Where a decoder answers an instruction, it is spelled as its word's own row and has `n` bytes. -/
def DecodesTo (n : Nat) (o : Option Instr) : Prop := ∀ i, o = some i → i.spelled = true ∧ i.len = n

/-- A word that no row has. -/
theorem decodesTo_none {n : Nat} : DecodesTo n none := by
  intro i h
  exact absurd h (Option.some_ne_none i).symm

/-- A word that is the row `i`. -/
theorem decodesTo_some {n : Nat} {i : Instr} (hs : i.spelled = true) (hl : i.len = n) : DecodesTo n (some i) := by
  rintro _ ⟨⟩
  exact ⟨hs, hl⟩

/-! ## 16-bit formats (R520 to R541) -/

/-- The 16-bit formats whose rows take their operands from the fields as they stand. -/
structure Rows16 (h : Nat) : Prop where
  progCtrl : DecodesTo 2 (decodeProgCtrl h)
  pushPopReg : DecodesTo 2 (decodePushPopReg h)
  cc2dreg : DecodesTo 2 (decodeCc2dreg h)
  caCtrl : DecodesTo 2 (decodeCaCtrl h)
  cc2stat : DecodesTo 2 (decodeCc2stat h)
  ccMv : DecodesTo 2 (decodeCcMv h)
  ccFlag : DecodesTo 2 (decodeCcFlag h)
  brcc : DecodesTo 2 (decodeBrcc h)
  regMv : DecodesTo 2 (decodeRegMv h)
  alu2op : DecodesTo 2 (decodeAlu2op h)
  ptr2op : DecodesTo 2 (decodePtr2op h)
  logi2op : DecodesTo 2 (decodeLogi2op h)
  compi2op : DecodesTo 2 (decodeCompi2op h)
  ldstPmod : DecodesTo 2 (decodeLdstPmod h)
  dagModIm : DecodesTo 2 (decodeDagModIm h)
  dagModIk : DecodesTo 2 (decodeDagModIk h)
  dspLdst : DecodesTo 2 (decodeDspLdst h)
  ldst : DecodesTo 2 (decodeLdst h)
  ldstIi : DecodesTo 2 (decodeLdstIi h)

/-- Each of these decoders is split into the words that no row has and the rows, whose spelling and length are read off. -/
theorem rows16 (h : Nat) : Rows16 h := by
  constructor
  all_goals
    delta decodeProgCtrl decodePushPopReg decodeCc2dreg decodeCaCtrl decodeCc2stat decodeCcMv decodeCcFlag decodeBrcc
      decodeRegMv decodeAlu2op decodePtr2op decodeLogi2op decodeCompi2op decodeLdstPmod decodeDagModIm
      decodeDagModIk decodeDspLdst decodeLdst decodeLdstIi
    try dsimp only
    repeat' split
  all_goals first | exact decodesTo_none | exact decodesTo_some rfl rfl

/-- The number of a register that a push or pop multiple can name (R1018). -/
theorem ofField_inRange {n : Nat} (hn : ¬ 5 < n) : (PReg.ofField n).inRange = true := by
  have hcases : n = 0 ∨ n = 1 ∨ n = 2 ∨ n = 3 ∨ n = 4 ∨ n = 5 := by omega
  rcases hcases with rfl | rfl | rfl | rfl | rfl | rfl <;> rfl

/-- A range of pointer registers that is named ends at P5, one that is not has no operand. -/
theorem decodePushPopMultiple_decodesTo (h : Nat) : DecodesTo 2 (decodePushPopMultiple h) := by
  have hrange (hout : ¬ (bit h 7 && decide (5 < bits h 0 3)) = true) :
      ((if bit h 7 then some (PReg.ofField (bits h 0 3)) else none).map PReg.inRange).getD true = true := by
    split
    next hp => exact ofField_inRange (by simpa [hp] using hout)
    · rfl
  unfold decodePushPopMultiple
  dsimp only
  split
  · exact decodesTo_none
  next hout =>
    split
    · exact decodesTo_some (hrange hout) rfl
    · exact decodesTo_some (hrange hout) rfl

/-- The sum of two pointer registers is spelled in one way (R507). -/
theorem pregSum_decodesTo (d s t : PReg) : DecodesTo 2 (some (pregSum d s t)) := by
  unfold pregSum
  split
  · exact decodesTo_some rfl rfl
  next hst =>
    split
    next hsd => exact decodesTo_some (by simpa [Instr.spelled, ← hsd] using hst) rfl
    next hsd => exact decodesTo_some (by simp [Instr.spelled, hst, hsd]) rfl

theorem decodeComp3op_decodesTo (h : Nat) : DecodesTo 2 (decodeComp3op h) := by
  unfold decodeComp3op
  dsimp only
  split
  case h_6 => exact pregSum_decodesTo _ _ _
  all_goals exact decodesTo_some rfl rfl

/-- The units `0000 ....`. -/
theorem decode0_decodesTo (h : Nat) : DecodesTo 2 (decode0 h) := by
  unfold decode0
  split
  · exact (rows16 h).ccFlag
  · split
    · exact (rows16 h).progCtrl
    · split
      · exact decodesTo_none
      · exact (rows16 h).pushPopReg
    · split
      · exact (rows16 h).cc2dreg
      · split
        · exact (rows16 h).caCtrl
        · exact decodesTo_none
    · exact (rows16 h).cc2stat
    · exact decodePushPopMultiple_decodesTo h
    · exact decodePushPopMultiple_decodesTo h
    · exact (rows16 h).ccMv

/-- The units `0100 ....`. -/
theorem decode4_decodesTo (h : Nat) : DecodesTo 2 (decode4 h) := by
  unfold decode4
  split
  · exact (rows16 h).alu2op
  · split
    · exact decodesTo_none
    · exact (rows16 h).ptr2op
  · exact (rows16 h).logi2op

/-- The units `1001 ....`. -/
theorem decode9_decodesTo (h : Nat) : DecodesTo 2 (decode9 h) := by
  unfold decode9
  split
  · split
    · exact (rows16 h).dagModIm
    · split
      · exact (rows16 h).dagModIk
      · exact (rows16 h).dspLdst
  · exact (rows16 h).ldst

/-- Every 16-bit instruction. -/
theorem decode16_decodesTo (h : Nat) : DecodesTo 2 (decode16 h) := by
  unfold decode16
  split
  · exact decode0_decodesTo h
  · exact (rows16 h).brcc
  · exact decodesTo_some rfl rfl
  · exact (rows16 h).regMv
  · exact decode4_decodesTo h
  · exact decodeComp3op_decodesTo h
  · exact (rows16 h).compi2op
  · exact (rows16 h).ldstPmod
  · exact decode9_decodesTo h
  · exact (rows16 h).ldstIi
  · exact (rows16 h).ldstIi
  · exact decodesTo_none

/-! ## 32-bit formats (R542 to R546) -/

/-- The 32-bit formats whose rows take their operands from the fields as they stand. -/
structure Rows32 (hi lo : Nat) : Prop where
  mult : DecodesTo 4 (decodeMult hi lo)
  alu : DecodesTo 4 (decodeAlu hi lo)
  shift : DecodesTo 4 (decodeShift hi lo)
  loopSetup : DecodesTo 4 (decodeLoopSetup hi lo)
  ldImmHalf : DecodesTo 4 (decodeLdImmHalf hi lo)
  ldstIdx : DecodesTo 4 (decodeLdstIdx hi lo)

/-- Each of these decoders is split into the words that no row has and the rows, whose spelling and length are read off. -/
theorem rows32 (hi lo : Nat) : Rows32 hi lo := by
  constructor
  all_goals
    delta decodeMult decodeAlu decodeShift decodeLoopSetup decodeLdImmHalf decodeLdstIdx
    try dsimp only
    repeat' split
  all_goals first | exact decodesTo_none | exact decodesTo_some rfl rfl

/-- The sign of a shift count is its bit 5 (R546). -/
theorem msb_count (lo : Nat) : (BitVec.ofNat 6 (bits lo 3 6)).msb = bit lo 8 := by
  rw [BitVec.msb_eq_decide, BitVec.toNat_ofNat, bits, bit, Bool.eq_iff_iff, decide_eq_true_eq, beq_iff_eq]
  omega

/-- The sign of the count tells the rows of one pattern apart. -/
theorem decodeShiftImm_decodesTo (hi lo : Nat) : DecodesTo 4 (decodeShiftImm hi lo) := by
  have hleft (hneg : ¬ bit lo 8 = true) : (!(BitVec.ofNat 6 (bits lo 3 6)).msb) = true := by simpa [msb_count] using hneg
  unfold decodeShiftImm
  dsimp only
  repeat' split
  all_goals first
    | exact decodesTo_none
    | exact decodesTo_some rfl rfl
    | exact decodesTo_some ((msb_count lo).trans ‹_›) rfl
    | exact decodesTo_some (hleft ‹_›) rfl

/-- A MAC word is spelled as the first row that it is a case of: the general dual form is left where no other row is. -/
theorem macInstr_decodesTo (m : MMod) (mm pair : Bool) (u1 u0 : MacUnit) (d s t : DReg) :
    DecodesTo 4 (some (macInstr m mm pair u1 u0 d s t)) := by
  unfold macInstr
  dsimp only
  split
  · exact decodesTo_some rfl rfl
  next hmnop =>
    split
    · split <;> exact decodesTo_some rfl rfl
    next hmac0 =>
      split
      · split <;> exact decodesTo_some rfl rfl
      next hmac1 =>
        split
        · split <;> exact decodesTo_some rfl rfl
        next hmove => exact decodesTo_some (by simp [Instr.spelled, macIsDual, hmnop, hmac0, hmac1, hmove]) rfl

theorem decodeMac_decodesTo (hi lo : Nat) : DecodesTo 4 (decodeMac hi lo) := by
  unfold decodeMac
  dsimp only
  split
  · exact decodesTo_none
  · exact macInstr_decodesTo _ _ _ _ _ _ _ _

/-- The words `1110 ....`. -/
theorem decodeE_decodesTo (hi lo : Nat) : DecodesTo 4 (decodeE hi lo) := by
  unfold decodeE
  repeat' split
  all_goals first
    | exact decodesTo_none
    | exact decodesTo_some rfl rfl
    | exact (rows32 hi lo).loopSetup
    | exact (rows32 hi lo).ldImmHalf
    | exact (rows32 hi lo).ldstIdx

/-- Every 32-bit instruction. -/
theorem decode32_decodesTo (hi lo : Nat) : DecodesTo 4 (decode32 hi lo) := by
  unfold decode32
  split
  · split
    · exact decodeMac_decodesTo hi lo
    · exact (rows32 hi lo).mult
    · exact (rows32 hi lo).alu
    · split
      · exact (rows32 hi lo).shift
      · exact decodeShiftImm_decodesTo hi lo
      · exact decodesTo_none
  · exact decodeE_decodesTo hi lo
  · exact decodesTo_none

/-! ## Lengths and bundles -/

/-- Settles O2: what decodes as one instruction comes from the decoder of its length, what decodes as a bundle from one
32-bit and two 16-bit decoders. -/
theorem decodedWellFormed : Obligations.DecodedWellFormed := by
  intro bs
  refine ⟨fun i n h => ?single, fun i0 i1 i2 h => ?bundle⟩
  case single =>
    obtain ⟨-, ⟨rfl, hd⟩ | ⟨rfl, hd⟩⟩ := decodeUnits_eq_single h
    · obtain ⟨hs, hl⟩ := decode16_decodesTo _ i hd
      exact ⟨hs, hl.symm⟩
    · obtain ⟨hs, hl⟩ := decode32_decodesTo _ _ i hd
      exact ⟨hs, hl.symm⟩
  case bundle =>
    obtain ⟨h0, h1, h2, hstores⟩ := decodeBundle_eq_bundle (decodeUnits_eq_bundle h)
    exact ⟨decode32_decodesTo _ _ i0 h0, decode16_decodesTo _ i1 h1, decode16_decodesTo _ i2 h2, hstores⟩

end Sys2Proof.Proofs
end

section
/-!
Words of the encoding tables (30_encoding.md R520 to R546).
-/

namespace Sys2Proof.Proofs

/-- Settles O4: the decoder evaluates on each of the seven words. -/
theorem decodeWords : Obligations.DecodeWords := by
  unfold Obligations.DecodeWords
  decide +kernel

end Sys2Proof.Proofs
end

section
/-!
A bundle on a state whose bookkeeping says that the instruction in progress waits for the bus (30_encoding.md R506): the wait
ends the bundle at its first part.
-/

namespace Sys2Proof.Proofs

open Machine Laws

/-! ## The slot of the instruction in progress -/

theorem count_slot (s : State) (e : Byte) : (s.count e).issue.slot = s.issue.slot := by
  have := congrArg Issue.slot (count_counted s e).issue
  exact this

/-- The hardware loops do not touch the slot. -/
theorem loopStep_slot (s : State) (len : Nat) : (s.loopStep len).1.issue.slot = s.issue.slot := by
  unfold State.loopStep
  dsimp only
  repeat' split
  all_goals simp [count_slot]

/-- The move past an instruction leaves the slot as it was. -/
theorem finish_slot (s : State) (len : Nat) : (s.finish len).issue.slot = s.issue.slot := by
  unfold State.finish
  split
  · exact loopStep_slot s len
  · rfl

/-! ## A wait ends the bundle -/

/-- A part that waits is the end of its bundle. -/
theorem part_stalled {k : Slot} {i : Instr} {s0 s t : State} {f : State → Outcome}
    (he : exec i { s with cur := s.cur.withRegs s0.cur, issue := { s.issue with slot := k } } = .next t)
    (ht : t.issue.stalled = true) : part k i s0 s f = .next t := by
  simp [part, he, ht]

/-- A bundle that begins with a sum, on a state that is marked as waiting, ends with the sum in slot 0. -/
theorem execBundle_sum_stalled {s : State} (hwait : s.issue.stalled = true) {sat : Bool} {d a b : DReg} {i1 i2 : Instr}
    (honce : writesTwice (.addDregOpt sat d a b) i1 i2 = false) :
    ∃ t, execBundle (.addDregOpt sat d a b) i1 i2 s = .next t ∧ t.issue.slot = .slot0 := by
  have hexec (v : State) (hv : v.issue.slot ≠ .single) :
      exec (.addDregOpt sat d a b) v = .next (v.sumResult d (addR sat (v.d a) (v.d b))) :=
    congrArg Host.Outcome.next (finish_bundle (s := v.sumResult d (addR sat (v.d a) (v.d b))) hv 4)
  let v : State := { s with cur := s.cur.withRegs s.cur,
                            issue := { s.issue with clash := (storeRange s i1).or (storeRange s i2), slot := .slot0 } }
  refine ⟨v.sumResult d (addR sat (v.d a) (v.d b)), ?bundle, rfl⟩
  case bundle =>
    rw [execBundle, honce, if_neg Bool.false_ne_true]
    exact part_stalled (hexec v (show Slot.slot0 ≠ .single by decide)) hwait

/-- The state of the counterexample: two index registers that point to L1 data SRAM, and an instruction in progress that is
marked as waiting for the bus. -/
def waitingState : State :=
  { (State.reset.setI .n0 0xFF800000).setI .n1 0xFF800004 with issue := { Issue.idle with stalled := true } }

/-- Refutes O45: the statement asks of the step's bookkeeping only the slot and DISALGNEXCPT. On `waitingState`, where nothing
stands in the way of its two loads, the first part of `R0 = R0 + R0 (S) || R1 = [I0] || R2 = [I1]` is taken for one that waits,
and the bundle ends in slot 0 instead of moving on as one instruction. Between two steps no state is marked so (`State.quiet`),
but the statement speaks of every state. -/
theorem not_bundleExecutes : ¬ Obligations.BundleExecutes := by
  intro h
  have hplain : waitingState.plain (waitingState.i .n0) 4 ∧ waitingState.plain (waitingState.i .n1) 4 := by
    unfold State.plain
    decide +kernel
  obtain ⟨hloads, -⟩ := h true .r0 .r0 .r0 .r1 .r2 .keep .keep .n0 .n1 .p0 waitingState rfl rfl
  obtain ⟨hsum, -⟩ := hloads (.inl (by decide))
  obtain ⟨u, hu, hslot, -⟩ := hsum (by decide) (by decide) (by decide) hplain.1 hplain.2
  obtain ⟨t, ht, hslot0⟩ := execBundle_sum_stalled (s := waitingState) rfl (i1 := .loadDI .keep .r1 .n0)
    (i2 := .loadDI .keep .r2 .n1) (sat := true) (d := .r0) (a := .r0) (b := .r0) (by decide)
  obtain rfl : u.finish 8 = t := by simpa using hu.symm.trans ht
  rw [finish_slot, hslot] at hslot0
  cases hslot0

end Sys2Proof.Proofs
end

section
/-!
Illegal combinations (30_encoding.md R505; 60_exceptions.md R1724): operands that a word can name and its instruction may not.
-/

namespace Sys2Proof.Proofs

open Machine Laws

/-- An instruction that its operands make illegal raises 0x22 before anything of it is done. -/
theorem illegal_traps {s : State} (h : s.canTrap) {i : Instr} {ok : Bool} {k : Outcome} (e : exec i s = legal ok s k)
    (hok : ok = false) : Traps i s 0x22 :=
  raise_traps h (e.trans (by rw [hok, legal_not]; rfl))

/-- One register for two results. -/
theorem decide_ne_self {α : Type} [DecidableEq α] (d : α) : decide (d ≠ d) = false := by simp

/-- Settles O38: each of these instructions asks first whether its operands are legal. -/
theorem illegalCombinations : Obligations.IllegalCombinations := by
  intro s h
  refine ⟨?sumDiff, ?accs, ?quad, ?quadCross, ?bitmux, ?move, ?pairs⟩
  case sumDiff => exact fun _ d _ _ => illegal_traps h rfl (decide_ne_self d)
  case accs => exact fun _ _ d => illegal_traps h rfl (decide_ne_self d)
  case quad => exact fun _ _ _ d _ _ => illegal_traps h rfl (decide_ne_self d)
  case quadCross => exact fun _ _ _ d _ _ => illegal_traps h rfl (decide_ne_self d)
  case bitmux => exact fun _ a => illegal_traps h rfl (decide_ne_self a)
  case move => exact fun _ _ hmove => illegal_traps h rfl hmove
  case pairs =>
    intro m mm d x hodd
    have odd {i : Instr} {k : Outcome} (e : exec i s = legal d.even s k) : Traps i s 0x22 := illegal_traps h e hodd
    refine ⟨odd rfl, odd rfl, odd rfl, odd rfl, odd rfl, odd rfl, odd rfl, odd rfl, odd rfl, odd rfl, odd rfl, ?mulDual,
      ?macDual⟩
    case mulDual => exact fun _ _ _ _ => illegal_traps h rfl (by rw [hodd]; rfl)
    case macDual => exact fun _ _ _ _ hwrite => illegal_traps h rfl (by rw [hodd, hwrite]; rfl)

end Sys2Proof.Proofs
end

section
/-!
The step of a core at which nothing but its instruction can happen (30_encoding.md R505, R508): the fetch from L1 instruction
SRAM, the loads made ahead of an instruction's own, and what the bytes at the pc do.
-/

namespace Sys2Proof.Proofs

open Machine Laws

section

variable {s t u : State} {bs : List Byte}

/-! ## Fetch from L1 instruction SRAM (20_memory.md R321, R333) -/

/-- L1 instruction SRAM lies below MMR space. -/
theorem lt_of_instSram {c : Core} {a : Nat} (h : c.region a = .instSram) : a < 0xFFC00000 := by
  by_contra hge
  rcases region_mmr c (a := a) (by omega) with hr | hr <;> simp [hr] at h

/-- With the ICPLBs off nothing of a fetch from L1 instruction SRAM is checked but its alignment. -/
theorem fetchCheck_instSram {c : Core} {a : Word} (hoff : c.imem.enicplb = false) (hal : a.getLsbD 0 = false)
    (hreg : c.region a.toNat = .instSram) : c.fetchCheck a = none := by
  simp [-BitVec.getLsbD_eq_getElem, Core.fetchCheck, hoff, hal, hreg]

/-- A fetch from L1 instruction SRAM that the core has synchronised with gives the two bytes in memory. -/
theorem fetchHalf_instSram {a : Word} {x y : Byte} (hoff : s.cur.imem.enicplb = false) (hal : a.getLsbD 0 = false)
    (hreg : s.cur.region a.toNat = .instSram) (hstale : s.cur.stale = []) (hx : s.mem.read a.toNat = some x)
    (hy : s.mem.read (a.toNat + 1) = some y) : s.fetchHalf a = .ok (unitOf x y) s := by
  simp [State.fetchHalf, fetchCheck_instSram hoff hal hreg, State.fetchHeld, hreg, State.fetchMem, Core.oldHalves, hstale,
    State.pickHalf, Mem.halfAt, hx, hy, OldHalf.fetch, unitOf]

/-- The unit at an even distance from the pc, of code in L1 instruction SRAM. -/
theorem fetchHalf_codeAt (h : s.codeAt bs) {k : Nat} (hk : k % 2 = 0) (hlen : k + 1 < bs.length) :
    s.fetchHalf (s.cur.pc + BitVec.ofNat 32 k) = .ok (unitOf (bs.getD k 0) (bs.getD (k + 1) 0)) s := by
  obtain ⟨heven, hoff, hstale, hbytes⟩ := h
  obtain ⟨hx, hreg⟩ := hbytes k (by omega)
  obtain ⟨hy, -⟩ := hbytes (k + 1) hlen
  have hlt := lt_of_instSram hreg
  have ha : (s.cur.pc + BitVec.ofNat 32 k).toNat = s.cur.pc.toNat + k := by
    rw [BitVec.toNat_add, BitVec.toNat_ofNat]
    omega
  have hal : (s.cur.pc + BitVec.ofNat 32 k).getLsbD 0 = false := by
    have hpc : s.cur.pc.toNat % 2 = 0 := by simpa [BitVec.getLsbD, Nat.testBit_zero] using heven
    have hsum : (s.cur.pc.toNat + k) % 2 = 0 := by omega
    simpa [BitVec.getLsbD, Nat.testBit_zero, ha] using hsum
  have hget {j : Nat} (hj : j < bs.length) : bs[j]? = some (bs.getD j 0) := by
    rw [List.getElem?_eq_getElem hj, List.getD_eq_getElem _ _ hj]
  exact fetchHalf_instSram hoff hal (by rw [ha, hreg]) hstale (by rw [ha, hx, hget (by omega)])
    (by rw [ha, add_assoc, hy, hget hlen])

/-- The three lengths (R509). -/
theorem unitLen_cases (n : Nat) : unitLen n = 2 ∨ unitLen n = 4 ∨ unitLen n = 8 := by
  unfold unitLen
  split
  · exact .inl rfl
  · split
    · exact .inr (.inr rfl)
    · exact .inr (.inl rfl)

/-- The bytes of one instruction at the pc are fetched and decoded as they stand. -/
theorem fetch_codeAt (h : s.codeAt bs) (hlen : bs.length = unitLen (unitOf (bs.getD 0 0) (bs.getD 1 0))) :
    s.fetch = .ok (decode bs) s := by
  have hunit {k : Nat} (hk : k % 2 = 0) (hin : k + 1 < bs.length) := fetchHalf_codeAt h hk hin
  have hpc : s.cur.pc + BitVec.ofNat 32 0 = s.cur.pc := BitVec.add_zero _
  have hpast {k : Nat} (hk : bs.length ≤ k) : bs.getD k 0 = 0#8 := List.getD_eq_default _ _ hk
  have hfirst := unitLen_cases (unitOf (bs.getD 0 0) (bs.getD 1 0))
  have h0 : s.fetchHalf s.cur.pc = .ok (unitOf (bs.getD 0 0) (bs.getD 1 0)) s := by
    rw [← hpc]
    exact hunit rfl (by omega)
  have hdecode : decode bs = decodeUnits (unitOf (bs.getD 0 0) (bs.getD 1 0)) (unitOf (bs.getD 2 0) (bs.getD 3 0))
    (unitOf (bs.getD 4 0) (bs.getD 5 0)) (unitOf (bs.getD 6 0) (bs.getD 7 0)) := rfl
  rw [hdecode, State.fetch, State.fetchUnits]
  rcases hfirst with hl | hl | hl
  · rw [hpast (k := 2) (by omega), hpast (k := 3) (by omega), hpast (k := 4) (by omega), hpast (k := 5) (by omega),
      hpast (k := 6) (by omega), hpast (k := 7) (by omega)]
    simp only [h0, Res.bind, hl, if_true]
    rfl
  · have h2 : s.fetchHalf (s.cur.pc + 2) = .ok (unitOf (bs.getD 2 0) (bs.getD 3 0)) s := hunit (k := 2) rfl (by omega)
    rw [hpast (k := 4) (by omega), hpast (k := 5) (by omega), hpast (k := 6) (by omega), hpast (k := 7) (by omega)]
    simp only [h0, h2, Res.bind, hl, if_true]
    rfl
  · have h2 : s.fetchHalf (s.cur.pc + 2) = .ok (unitOf (bs.getD 2 0) (bs.getD 3 0)) s := hunit (k := 2) rfl (by omega)
    have h4 : s.fetchHalf (s.cur.pc + 4) = .ok (unitOf (bs.getD 4 0) (bs.getD 5 0)) s := hunit (k := 4) rfl (by omega)
    have h6 : s.fetchHalf (s.cur.pc + 6) = .ok (unitOf (bs.getD 6 0) (bs.getD 7 0)) s := hunit (k := 6) rfl (by omega)
    simp only [h0, h2, h4, h6, Res.bind, hl]
    rfl

/-! ## The loads made ahead (R340) -/

/-- Choosing a load to make ahead draws a free value and changes nothing else. -/
theorem readAhead_state (s : State) : s.readAhead.2 = { s with free := s.readAhead.2.free } := by
  unfold State.readAhead
  split <;> rfl

theorem readAhead_nil (h : s.aheads = []) : s.readAhead = (none, s) := by
  rw [State.readAhead, h]

/-- What is made ahead is one of the loads that may be. -/
theorem readAhead_some (h : s.readAhead.1 = some t) : ∃ e ∈ s.aheads, t = s.readAhead.2.makeAhead e := by
  unfold State.readAhead at h ⊢
  split at h
  · cases h
  next e es he =>
    obtain ⟨x, hx, rfl⟩ := Option.map_eq_some_iff.1 h
    exact ⟨x, he ▸ List.mem_of_getElem? hx, rfl⟩

/-- Before what loads nothing, nothing is made ahead. -/
theorem aheads_nil {d : Decoded} (hfetch : s.fetch = .ok d s) (h : s.loads d = []) : s.aheads = [] := by
  simp [State.aheads, hfetch, h]

/-! ## The path that a conditional branch does not take (R343) -/

/-- What has another path is a conditional branch: it loads nothing. -/
theorem loads_of_otherPath {d : Decoded} {pc : Word} (h : s.otherPath d = some pc) : s.loads d = [] := by
  unfold State.otherPath at h
  split at h
  · rfl
  · rfl
  · rfl
  · rfl
  · cases h

/-- Where the other path reads nothing that a read changes, nothing is read before a branch is resolved; before any other
instruction nothing is. -/
theorem speculate_foreseen {i : Instr} (hfetch : s.fetch = .ok (.single i i.len) s) (h : s.foresees i) :
    s.readAhead.2.speculate (.single i i.len) = s.readAhead.2 := by
  cases hpath : s.otherPath (.single i i.len) with
  | none =>
    have hnone : s.readAhead.2.otherPath (.single i i.len) = none := by
      rw [readAhead_state s]
      exact hpath
    rw [State.speculate, hnone]
  | some pc =>
    rw [readAhead_nil (aheads_nil hfetch (loads_of_otherPath hpath)), State.speculate, hpath]
    show s.ghostReads (pathGhosts 8 (s.setPc pc)) = s
    rw [h pc hpath]
    rfl

/-! ## The step of a quiet core -/

/-- The core is the only agent and has no event to take: it makes a load ahead, if one is chosen, or runs the instruction. -/
theorem step_of_readAhead (hq : s.quietCore) : step s = s.readAhead.1.elim s.readAhead.2.instruction .next := by
  obtain ⟨hturns, hidle, htake, hboot, -⟩ := hq
  have hmove : step s = s.coreStep := by
    rw [step, State.move, hturns]
    rfl
  rw [hmove]
  rcases hr : s.readAhead with ⟨_ | t, u⟩ <;> simp [State.coreStep, State.chooseEvent, htake, hidle, hboot, hr]

/-- Where time does not pass and no watchpoint looks, the step is the decoded word run and settled. -/
theorem instruction_of_fetch (hbegun : begun u = u) (hccen : u.cur.syscfg.ccen = false) (hperf : u.perfOff)
    (hwatch : u.cur.wp.iactl.getLsbD 0 = false) (hissue : u.issue = .idle) {d : Decoded} (hfetch : u.fetch = .ok d u)
    (hspec : u.speculate d = u) :
    (∀ t, runDecoded d u = .next t → u.instruction = u.settle t) ∧
      (∀ r, runDecoded d u = .refused r → u.instruction = .refused r) ∧
      (∀ f, runDecoded d u = .fault f → u.instruction = .fault f) := by
  have hpass : (begun u).passTime = u := by rw [passTime_off (s := begun u) hccen hperf, hbegun]
  have hinst : u.instWatch = u := by rw [State.instWatch, if_neg (by rw [hwatch]; decide)]
  have hexec : u.execute = runDecoded d u := by
    simp [State.execute, hfetch, Res.run, hinst, hissue, Issue.idle, hspec]
  have hpass' : (u.setCur { u.cur with synced := false, waiting := none }).passTime = u := hpass
  refine ⟨fun t h => ?_, fun r h => ?_, fun f h => ?_⟩ <;> simp only [State.instruction, hpass', hexec, h]

/-- An instruction that ends without an event, a wait, an emulation event or a full trace buffer. -/
theorem settle_ended (hend : t.issue.ended) (hperf : t.perfOff) (hstep : t.cur.syscfg.ssstep = false) :
    u.settle t = .next t.quiet := by
  obtain ⟨hevent, hstall, hemu, hfull, hhit⟩ := hend
  simp [State.settle, hevent, hstall, hemu, hhit, State.afterCommit, count_off hperf, State.singleStep, hstep, hfull]

/-- A core that has not just synchronised and waits for nothing begins the instruction as it is. -/
theorem begun_self (hsync : s.cur.synced = false) (hwait : s.cur.waiting = none) : begun s = s := by
  have hcur : { s.cur with synced := false, waiting := none } = s.cur := by rw [← hsync, ← hwait]
  rw [begun, hcur]
  rfl

end

/-- Settles O5: the bytes at the pc are fetched and decoded as they stand, a load made ahead changes only the count of free
values, and the rest of the step adds nothing to the instruction. -/
theorem stepRunsDecoded : Obligations.StepRunsDecoded := by
  intro s i bs hq hdecode hcode hsync hforesees u
  obtain ⟨-, -, -, -, -, hccen, -, hperf, -, hwatch, hissue, hwait⟩ := id hq
  obtain ⟨-, hlen⟩ := (decodedWellFormed bs).1 i _ hdecode
  obtain ⟨hunit, -⟩ := decodeUnits_eq_single hdecode
  have hu : u = { s with free := u.free } := readAhead_state s
  have hfetch : s.fetch = .ok (.single i i.len) s := by rw [fetch_codeAt hcode hunit.symm, hdecode, hlen]
  have hfetch' : u.fetch = .ok (.single i i.len) u := by
    rw [hu, fetch_codeAt (s := { s with free := u.free }) hcode hunit.symm, hdecode, hlen]
  have hcur : u.cur = s.cur := by rw [hu]
  have hbegun : begun u = u := begun_self (by rw [hcur, hsync]) (by rw [hcur, hwait])
  have hperf' : u.perfOff := by rw [State.perfOff, hcur]; exact hperf
  have hissue' : u.issue = .idle := by rw [hu]; exact hissue
  obtain ⟨hnext, hrefused, hfault⟩ := instruction_of_fetch hbegun (by rw [hcur, hccen]) hperf' (by rw [hcur, hwatch]) hissue'
    hfetch' (speculate_foreseen hfetch hforesees)
  refine ⟨hu, readAhead_nil, fun v hv => ⟨?_, readAhead_some hv⟩, fun hv => ?_⟩
  · rw [step_of_readAhead hq, hv]
    rfl
  · have hstep : step s = u.instruction := by
      rw [step_of_readAhead hq, hv]
      rfl
    refine ⟨fun t ht => hstep.trans (hnext t ht), fun r hr => hstep.trans (hrefused r hr),
      fun f hf => hstep.trans (hfault f hf), fun t ht hend hoff hss => ?_⟩
    rw [hstep, hnext t ht, settle_ended hend hoff hss]

/-- Settles O6: the bytes are fetched, decode to nothing, and what they raise ends the step. -/
theorem undefinedTraps : Obligations.UndefinedTraps := by
  intro s bs hq h _ _ hdecode hlen hcode hsync
  obtain ⟨-, -, -, -, -, hccen, -, hperf, -, hwatch, hissue, hwait⟩ := id hq
  have hfetch : s.fetch = .ok .undefined s := by rw [fetch_codeAt hcode hlen, hdecode]
  have hbegun := begun_self hsync hwait
  have hraise := raise_takes h.1 .undefinedInstruction
  obtain ⟨hnext, -⟩ := instruction_of_fetch hbegun hccen hperf hwatch hissue hfetch rfl
  obtain ⟨full, hmarks⟩ := takeException_issue h.2 hperf .undefinedInstruction s.cur.pc
  rw [hissue] at hmarks
  have hstep : step s = .next (s.takeException .undefinedInstruction s.cur.pc).quiet := by
    rw [step_quiet hq (readAhead_nil (aheads_nil hfetch rfl)), hnext _ hraise]
    exact settle_event (by rw [hmarks]; rfl) (by rw [hmarks]; rfl) (by rw [hmarks]; rfl) (by rw [hmarks])
  rw [hstep]
  refine entered_quiet ?_
  rw [hbegun, ← hraise]
  exact raise_entered h rfl

end Sys2Proof.Proofs
end

section
/-!
Instructions that write registers and flags alone (10_state.md R51 to R63, R70 to R72): what a register or a flag reads after
it has been written, and for each way in which such an instruction ends, that it completes with just that changed.
-/

namespace Sys2Proof.Proofs

open Machine Laws

section

variable {s u : State} {i : Instr} {len : Nat} {rs : List AllReg} {fs : List FlagName} {st : Nat → Prop} {P : State → Prop}

/-! ## Halves (R51) -/

@[simp] theorem half_withHalf_same (h : Half) (w : Word) (v : HWord) : half h (withHalf h w v) = v := by
  cases h with
  | lo => exact extract_append_low (m := 16) (n := 16) _ _
  | hi => exact extract_append_high (m := 16) (n := 16) _ _

@[simp] theorem half_hi_withHalf_lo (w : Word) (v : HWord) : half .hi (withHalf .lo w v) = half .hi w :=
  extract_append_high (m := 16) (n := 16) _ _

@[simp] theorem half_lo_withHalf_hi (w : Word) (v : HWord) : half .lo (withHalf .hi w v) = half .lo w :=
  extract_append_low (m := 16) (n := 16) _ _

@[simp] theorem dh_setDh_same (s : State) (d : DReg) (h : Half) (v : HWord) : (s.setDh d h v).dh d h = v := by
  rw [State.dh, State.setDh, setD_d_same, half_withHalf_same]

@[simp] theorem dh_hi_setDh_lo (s : State) (d : DReg) (v : HWord) : (s.setDh d .lo v).dh d .hi = s.dh d .hi := by
  rw [State.dh, State.setDh, setD_d_same, half_hi_withHalf_lo, State.dh]

@[simp] theorem dh_lo_setDh_hi (s : State) (d : DReg) (v : HWord) : (s.setDh d .hi v).dh d .lo = s.dh d .lo := by
  rw [State.dh, State.setDh, setD_d_same, half_lo_withHalf_hi, State.dh]

/-- A half of a data register that has been written; the other half is what it was. -/
theorem setDh_halfTook (s : State) (d : DReg) (h : Half) (v : HWord) : s.halfTook (s.setDh d h v) d h v := by
  cases h with
  | lo => exact ⟨dh_setDh_same s d .lo v, dh_hi_setDh_lo s d v⟩
  | hi => exact ⟨dh_setDh_same s d .hi v, dh_lo_setDh_hi s d v⟩

/-! ## Any register (R550) -/

/-- A register that has been written reads as it should: ASTAT, An.X and SYSCFG keep the bits that they have. -/
theorem writeReg_took (s : State) {r : AllReg} (hr : r ≠ .emudat) (v : Word) : (s.writeReg r v).took r v := by
  cases r with
  | d r => exact setD_d_same s r v
  | p r => exact setP_p_same s r v
  | i r | m r | b r | l r => exact (Dag4.get_set _ r r v).trans (if_pos rfl)
  | ax a =>
    change accX ((s.setAcc a _).acc a) = _
    rw [acc_setAcc, if_pos rfl, accX_accOf]
  | aw a =>
    change accW ((s.setAcc a _).acc a) = _
    rw [acc_setAcc, if_pos rfl, accW_accOf]
  | astat =>
    intro f
    cases f <;> rfl
  | lc n =>
    change ((s.setLoop n _).loopUnit n).lc = _
    rw [loopUnit_setLoop, if_pos rfl]
  | lt n =>
    change ((s.setLoop n _).loopUnit n).lt = _
    rw [loopUnit_setLoop, if_pos rfl]
  | lb n =>
    change ((s.setLoop n _).loopUnit n).lb = _
    rw [loopUnit_setLoop, if_pos rfl]
  | cycles => exact extract_append_low (m := 32) (n := 32) _ _
  | cycles2 => exact extract_append_high (m := 32) (n := 32) _ _
  | syscfg => exact ⟨rfl, rfl⟩
  | seqstat => trivial
  | rets | usp | reti | retx | retn | rete => rfl
  | emudat => exact absurd rfl hr

/-- An instruction that writes one register. -/
theorem completes_writeReg {r : AllReg} {v : Word} (e : exec i s = done len (s.writeReg r v))
    (husp : r = .usp → s.user = false) (hr : r ≠ .emudat) (hP : ∀ u, u.took r v → P u) :
    Completes i s len (changedBy r) (changedFlags r) noBytes P :=
  ⟨_, e, congrArg Issue.slot (writeReg_issue s r v),
    Frame.writeReg (Frame.refl _ _ _ _) (fun _ h => h) (fun _ h => h) husp v, hP _ (writeReg_took s hr v)⟩

/-- A data register that takes a value. -/
theorem frame_setD (s : State) (d : DReg) (v : Word) (fs : List FlagName) : Frame s (s.setD d v) [.d d] fs noBytes :=
  Frame.setD (Frame.refl _ _ _ _) (List.mem_singleton.mpr rfl) v

/-- An instruction that writes one data register. -/
theorem completes_setD {d : DReg} {v : Word} (e : exec i s = done len (s.setD d v)) (hP : ∀ u, u.d d = v → P u) :
    Completes i s len [.d d] [] noBytes P :=
  completes_writeReg (r := .d d) e nofun nofun hP

/-- An instruction that writes one pointer register. -/
theorem completes_setP {d : PReg} {v : Word} (e : exec i s = done len (s.setP d v)) (hP : ∀ u, u.p d = v → P u) :
    Completes i s len [.p d] [] noBytes P :=
  completes_writeReg (r := .p d) e nofun nofun hP

/-- The name of a data or pointer register. -/
def dpName : DPReg → AllReg
  | .d r => .d r
  | .p r => .p r

/-- An instruction that writes one data or pointer register. -/
theorem completes_setDp {d : DPReg} {v : Word} (e : exec i s = done len (s.setDp d v)) (hP : ∀ u, u.dp d = v → P u) :
    Completes i s len [dpName d] [] noBytes P := by
  cases d with
  | d d => exact completes_setD e hP
  | p d => exact completes_setP e hP

/-- An instruction that writes a register which can take a constant (R571). -/
theorem completes_immTarget {r : ImmReg} {v : Word} (e : exec i s = done len (s.writeReg (immTarget r) v))
    (hP : ∀ u, u.readReg (immTarget r) = v → P u) : Completes i s len [immTarget r] [] noBytes P := by
  cases r <;> exact completes_writeReg e nofun nofun hP

/-- An instruction that writes one accumulator. -/
theorem completes_setAcc {a : AccN} {v : Acc} (e : exec i s = done len (s.setAcc a v)) (hP : ∀ u, u.acc a = v → P u) :
    Completes i s len (accParts a) [] noBytes P :=
  ⟨_, e, congrArg Issue.slot (setAcc_issue s a v),
    Frame.setAcc (Frame.refl _ _ _ _) (by simp [accParts]) (by simp [accParts]) v,
    hP _ ((acc_setAcc s a a v).trans (if_pos rfl))⟩

/-- An instruction that changes nothing. -/
theorem completes_unchanged (e : exec i s = done len s) (hP : P s) : Completes i s len rs fs noBytes P :=
  ⟨_, e, rfl, Frame.refl _ _ _ _, hP⟩

/-! ## Flags (R70 to R72) -/

/-- AZ and AN, V and the sticky VS from several results: no other flag changes. -/
theorem frame_znvFlags (h : Frame s u rs fs st) (hfs : znvNames ⊆ fs) {w : Nat} (xs : List (BitVec w × Bool)) :
    Frame s (u.znvFlags xs) rs fs st :=
  Frame.flags h fun f hf => by
    cases f with
    | az | an | v | vs => exact absurd (hfs (by simp [znvNames])) hf
    | _ => rfl

/-- The flags are no part of a data register. -/
@[simp] theorem dh_flags (u : State) (g : Astat → Astat) (d : DReg) (h : Half) : (u.flags g).dh d h = u.dh d h := rfl

@[simp] theorem az_znvFlags (u : State) {w : Nat} (xs : List (BitVec w × Bool)) :
    (u.znvFlags xs).flag .az = xs.any fun x => x.1 == 0 := rfl

@[simp] theorem an_znvFlags (u : State) {w : Nat} (xs : List (BitVec w × Bool)) :
    (u.znvFlags xs).flag .an = xs.any fun x => x.1.msb := rfl

theorem overflows_znvFlags (hvs : u.flag .vs = s.flag .vs) {w : Nat} (xs : List (BitVec w × Bool)) :
    overflows s (u.znvFlags xs) (xs.any fun x => x.2) :=
  ⟨rfl, congrArg (· || xs.any fun x => x.2) hvs⟩

/-- What the flags say of one result. -/
theorem znvFlags_one (hvs : u.flag .vs = s.flag .vs) {w : Nat} (r : BitVec w) (o : Bool) :
    (u.znvFlags [(r, o)]).signs r ∧ overflows s (u.znvFlags [(r, o)]) o :=
  ⟨⟨by simp, by simp⟩, by simpa using overflows_znvFlags hvs [(r, o)]⟩

/-- What the flags say of two results: the OR over both (D22). -/
theorem znvFlags_two (hvs : u.flag .vs = s.flag .vs) {w : Nat} (r r' : BitVec w) (o o' : Bool) :
    (u.znvFlags [(r, o), (r', o')]).signs2 r r' ∧ overflows s (u.znvFlags [(r, o), (r', o')]) (o || o') :=
  ⟨⟨by simp, by simp⟩, by simpa using overflows_znvFlags hvs [(r, o), (r', o')]⟩

/-- AZ and AN from a result; AC0, AC1 and V cleared: no other flag changes. -/
theorem frame_logicFlags (h : Frame s u rs fs st) (hfs : logicNames ⊆ fs) (r : Word) : Frame s (u.logicFlags r) rs fs st :=
  Frame.flags h fun f hf => by
    cases f with
    | az | an | ac0 | ac1 | v => exact absurd (hfs (by simp [logicNames])) hf
    | _ => rfl

/-- An instruction that writes a data register and the row that clears AC0, AC1 and V (R649, R763). -/
theorem completes_logicResult {d : DReg} {v : Word} (e : exec i s = done len (s.logicResult d v))
    (hP : ∀ u, u.d d = v → u.logicSigns (u.d d) → P u) : Completes i s len [.d d] logicNames noBytes P := by
  have value : (s.logicResult d v).d d = v := setD_d_same s d v
  refine ⟨_, e, rfl, frame_logicFlags (frame_setD s d v _) (List.Subset.refl _) v, hP _ value ?signs⟩
  case signs =>
    rw [value]
    exact ⟨⟨rfl, rfl⟩, rfl, rfl, rfl⟩

/-- An instruction that writes CC alone. -/
theorem completes_setCc {b : Bool} (e : exec i s = done len (s.setCc b)) :
    Completes i s len [] [.cc] noBytes fun u => u.flag .cc = b :=
  ⟨_, e, rfl, Frame.setCc (Frame.refl _ _ _ _) (List.mem_singleton.mpr rfl) b, rfl⟩

end

end Sys2Proof.Proofs
end

section
/-!
The register moves (40_regmove.md): moves between registers and accumulators, values taken out of an accumulator, loads of
constants, and moves to and from CC.
-/

namespace Sys2Proof.Proofs

open Machine Laws

/-! ## Moves between registers (R550, R556 to R559, R567, R568, R570 to R574) -/

/-- A move that may name its registers, in a mode that may name them. -/
theorem exec_moveReg {d r : AllReg} {s : State} (hlegal : moveLegal d r = true)
    (hmode : s.user = false ∨ supervisorDest d = false ∧ supervisorReg r = false) (hd : d ≠ .emudat) (hr : r ≠ .emudat) :
    exec (.moveReg d r) s = done 2 (s.writeReg d (s.readReg r)) := by
  have hguard : ¬ (s.user && (supervisorDest d || supervisorReg r)) = true := by
    rcases hmode with hu | ⟨hd, hr⟩
    · simp [hu]
    · simp [hd, hr]
  change legal (moveLegal d r) s _ = _
  rw [hlegal, legal_ok, if_neg hguard, if_neg (not_or.mpr ⟨hd, hr⟩)]

/-- Settles O9: the move is one write of the destination, and what it then reads is what it took. USP can be named in
Supervisor mode only, where SP is another stack pointer. -/
theorem moveRegister : Obligations.MoveRegister := by
  intro d r s hlegal hmode hd hr
  refine completes_writeReg (exec_moveReg hlegal hmode hd hr) ?usp hd fun _ hu => hu
  case usp =>
    rintro rfl
    exact hmode.resolve_right fun h => Bool.noConfusion h.1

/-- Settles O13: a conditional move writes its register or nothing, as CC says; the other moves extend a part of the source. -/
theorem moveConditionalAndParts : Obligations.MoveConditionalAndParts := by
  refine ⟨?ifCc, ?ifNcc, ?halfZ, ?halfX, ?byteZ, ?byteX⟩
  case ifCc =>
    intro d r s
    cases hcc : s.flag .cc with
    | true => exact completes_setDp (congrArg (done 2) (if_pos hcc)) fun _ hu _ => hu
    | false => exact completes_unchanged (congrArg (done 2) (if_neg (ne_true_of_eq_false hcc))) nofun
  case ifNcc =>
    intro d r s
    cases hcc : s.flag .cc with
    | true => exact completes_unchanged (congrArg (done 2) (if_pos hcc)) nofun
    | false => exact completes_setDp (congrArg (done 2) (if_neg (ne_true_of_eq_false hcc))) fun _ hu _ => hu
  case halfZ =>
    exact fun d r s => completes_logicResult rfl fun u hu hsigns => ⟨hu ▸ BitVec.toNat_setWidth_of_le (by decide), hsigns⟩
  case halfX =>
    exact fun d r s => completes_logicResult rfl fun u hu hsigns => ⟨hu ▸ BitVec.toInt_signExtend_of_le (by decide), hsigns⟩
  case byteZ =>
    exact fun d r s => completes_logicResult rfl fun u hu hsigns =>
      ⟨hu ▸ (BitVec.toNat_setWidth_of_le (by decide)).trans (by simp), hsigns⟩
  case byteX =>
    exact fun d r s => completes_logicResult rfl fun u hu hsigns => ⟨hu ▸ BitVec.toInt_signExtend_of_le (by decide), hsigns⟩

/-- Settles O14: each load is one write of the register, for a half load of the register with that half replaced. -/
theorem loadImmediate : Obligations.LoadImmediate := by
  refine ⟨?imm7D, ?imm7P, ?immX, ?immZ, ?immLo, ?immHi⟩
  case imm7D => exact fun d n s => completes_setD rfl fun u hu => hu ▸ BitVec.toInt_signExtend_of_le (by decide)
  case imm7P => exact fun d n s => completes_setP rfl fun u hu => hu ▸ BitVec.toInt_signExtend_of_le (by decide)
  case immX => exact fun r n s => completes_immTarget rfl fun u hu => hu ▸ BitVec.toInt_signExtend_of_le (by decide)
  case immZ => exact fun r n s => completes_immTarget rfl fun u hu => hu ▸ BitVec.toNat_setWidth_of_le (by decide)
  case immLo =>
    exact fun r n s => completes_immTarget rfl fun u hu => hu ▸ ⟨half_withHalf_same .lo _ n, half_hi_withHalf_lo _ n⟩
  case immHi =>
    exact fun r n s => completes_immTarget rfl fun u hu => hu ▸ ⟨half_withHalf_same .hi _ n, half_lo_withHalf_hi _ n⟩

/-! ## Accumulators and their parts (R551, R552, R560 to R563, R575) -/

/-- Settles O10: each move is one write of an accumulator made of its parts (for A1 = A0 = 0 two writes), or of the low half
of a data register. -/
theorem moveAccumulator : Obligations.MoveAccumulator := by
  refine ⟨?accAcc, ?accDreg, ?accX, ?dregLo, ?accL, ?accH, ?clear0, ?clear1, ?clearBoth⟩
  case accAcc => exact fun a s => completes_setAcc rfl fun u hu => by cases a <;> exact hu
  case accDreg => exact fun a r s => completes_setAcc rfl fun u hu => hu ▸ BitVec.toInt_signExtend_of_le (by decide)
  case accX => exact fun a r s => completes_setAcc rfl fun u hu => hu ▸ ⟨accX_accOf _ _, accW_accOf _ _⟩
  case dregLo =>
    intro d a s
    refine completes_setD (v := withHalf .lo (s.d d) ((Machine.accX (s.acc a)).signExtend 16)) rfl fun u hu => ?_
    rw [State.dh, State.dh, hu, half_withHalf_same, half_hi_withHalf_lo]
    exact ⟨BitVec.toInt_signExtend_of_le (by decide), rfl⟩
  case accL =>
    intro a r s
    refine completes_setAcc rfl fun u hu => ?_
    simp [hu]
  case accH =>
    intro a r s
    refine completes_setAcc rfl fun u hu => ?_
    simp [hu]
  case clear0 => exact fun s => completes_setAcc rfl fun u hu => hu
  case clear1 => exact fun s => completes_setAcc rfl fun u hu => hu
  case clearBoth =>
    intro s
    have frame : Frame s (s.setAcc .a0 0) (accParts .a0 ++ accParts .a1) [] noBytes :=
      Frame.setAcc (Frame.refl _ _ _ _) (by simp [accParts]) (by simp [accParts]) 0
    exact ⟨_, rfl, rfl, Frame.setAcc frame (by simp [accParts]) (by simp [accParts]) 0, rfl, rfl⟩

/-! ## Values taken out of an accumulator (R553 to R555, R564 to R566, R712 to R714) -/

/-- An instruction that takes one half out of an accumulator, with the flags of it. -/
theorem completes_putHalf {i : Instr} {s : State} {o : MMod} {x : Int} {d : DReg} {h : Half} {P : State → Prop}
    (e : exec i s = match s.putHalf o x d h with | (u, w, v) => done 4 (u.znvFlags [(w, v)]))
    (hP : let y := extract16 s.cur.astat.rndMod o x
      ∀ u, s.halfTook u d h y.1 → u.signs y.1 → overflows s u y.2 → P u) :
    Completes i s 4 [.d d] znvNames noBytes P := by
  let y := extract16 s.cur.astat.rndMod o x
  have frame : Frame s (s.setDh d h y.1) [.d d] znvNames noBytes := frame_setD s d _ _
  obtain ⟨hsigns, hv⟩ := znvFlags_one (s := s) (u := s.setDh d h y.1) rfl y.1 y.2
  exact ⟨_, e, rfl, frame_znvFlags frame (List.Subset.refl _) _, hP _ (setDh_halfTook s d h y.1) hsigns hv⟩

/-- Settles O11: the halves are written one after the other, and the flags follow them. -/
theorem extractHalf : Obligations.ExtractHalf := by
  refine ⟨?lo, ?hi, ?both⟩
  case lo =>
    exact fun m d s => completes_putHalf (x := accInt m false s.cur.a0) (h := .lo) rfl
      fun u ⟨hlo, hhi⟩ hsigns hv => ⟨hlo, hhi, hsigns, hv⟩
  case hi =>
    exact fun m mm d s => completes_putHalf (x := accInt m mm s.cur.a1) (h := .hi) rfl
      fun u ⟨hhi, hlo⟩ hsigns hv => ⟨hhi, hlo, hsigns, hv⟩
  case both =>
    intro m mm d s x y
    let u : State := (s.setDh d .lo x.1).setDh d .hi y.1
    have exec_eq : exec (.moveDregHalvesAcc m mm d) s = done 4 (u.znvFlags [(x.1, x.2), (y.1, y.2)]) := rfl
    have frame : Frame s u [.d d] znvNames noBytes :=
      Frame.setDh (frame_setD s d _ _) (List.mem_singleton.mpr rfl) .hi y.1
    have hlo : u.dh d .lo = x.1 := (dh_lo_setDh_hi _ d y.1).trans (dh_setDh_same s d .lo x.1)
    have hhi : u.dh d .hi = y.1 := dh_setDh_same _ d .hi y.1
    obtain ⟨⟨haz, han⟩, hv⟩ := znvFlags_two (s := s) (u := u) rfl x.1 y.1 x.2 y.2
    exact ⟨_, exec_eq, rfl, frame_znvFlags frame (List.Subset.refl _) _,
      (dh_flags u _ d .lo).trans hlo, (dh_flags u _ d .hi).trans hhi, haz, han, hv⟩

/-- A data register takes a word: the extraction where R713 gives the option one, and else free values, which are counted
(log entry 21). -/
theorem putWord_eq (s : State) (o : MMod) (x : Int) (d : DReg) :
    ∃ n w v, s.putWord o x d = (({ s with free := n } : State).setD d w, w, v) ∧ ∀ y, extract32 o x = some y → y = (w, v) := by
  rw [State.putWord]
  cases extract32 o x with
  | some y => exact ⟨s.free, y.1, y.2, rfl, fun _ hy => (Option.some.inj hy).symm⟩
  | none => exact ⟨_, _, _, rfl, nofun⟩

/-- An instruction that takes one word out of an accumulator, with the flags of it, and names a register pair. -/
theorem completes_putWord {i : Instr} {s : State} {o : MMod} {x : Int} {p d : DReg} (heven : p.even = true)
    (e : exec i s = legal p.even s (match s.putWord o x d with | (u, w, v) => done 4 (u.znvFlags [(w, v)]))) :
    Completes i s 4 [.d d] znvNames noBytes fun u => ∃ w v,
      (∀ y, extract32 o x = some y → y = (w, v)) ∧ u.d d = w ∧ u.signs w ∧ overflows s u v := by
  obtain ⟨n, w, v, hput, hvalue⟩ := putWord_eq s o x d
  rw [heven, legal_ok, hput] at e
  have frame : Frame s (({ s with free := n } : State).setD d w) [.d d] znvNames noBytes :=
    Frame.setD (Frame.setFree (Frame.refl _ _ _ _) n) (List.mem_singleton.mpr rfl) w
  exact ⟨_, e, rfl, frame_znvFlags frame (List.Subset.refl _) _, w, v, hvalue, setD_d_same _ d w, znvFlags_one rfl w v⟩

/-- The registers of a pair are two (R14). -/
theorem ne_pairHi {d : DReg} : d.even = true → d ≠ DReg.pairHi d := by
  cases d <;> decide

/-- Settles O12: the registers are written one after the other, from the accumulators as they were. -/
theorem extractWord : Obligations.ExtractWord := by
  refine ⟨?even, ?odd, ?pair⟩
  case even => exact fun _ _ _ heven => completes_putWord heven rfl
  case odd => exact fun _ _ _ _ heven => completes_putWord heven rfl
  case pair =>
    intro m mm d s heven
    obtain ⟨n, w, o, hput, hvalue⟩ := putWord_eq s m (s.accValue m false .a0) d
    let v : State := ({ s with free := n } : State).setD d w
    obtain ⟨n', w', o', hput', hvalue'⟩ := putWord_eq v (optExtract m mm) (v.accValue m mm .a1) (DReg.pairHi d)
    let t : State := ({ v with free := n' } : State).setD (DReg.pairHi d) w'
    have exec_eq : exec (.moveDregPairAcc m mm d) s = done 4 (t.znvFlags [(w, o), (w', o')]) := by
      change execMoveDregPairAcc m mm d s = _
      rw [execMoveDregPairAcc, heven, legal_ok, hput]
      dsimp only
      rw [hput']
    have frame : Frame s t [.d d, .d (DReg.pairHi d)] znvNames noBytes :=
      Frame.setD (Frame.setFree (Frame.setD (Frame.setFree (Frame.refl _ _ _ _) n) (by simp) w) n') (by simp) w'
    have hd : t.d d = w := by
      simp [t, v, State.d, ne_pairHi heven]
    obtain ⟨⟨haz, han⟩, hv⟩ := znvFlags_two (s := s) (u := t) rfl w w' o o'
    exact ⟨_, exec_eq, rfl, frame_znvFlags frame (List.Subset.refl _) _, w, o, w', o', hvalue, hvalue', hd,
      setD_d_same _ _ w', haz, han, hv⟩

/-! ## Moves to and from CC (R580 to R584) -/

/-- The flag of a name that CC moves can name. -/
theorem flag_of (s : State) (b : Flag) : s.flag (FlagName.of b) = s.cur.astat.getFlag b := by cases b <;> rfl

/-- A flag that takes a value: no other flag does, a sticky one not with its companion (R583). -/
theorem flag_putFlag (s : State) (b : Flag) (x : Bool) (f : FlagName) :
    (s.setAstat (s.cur.astat.putFlag b x)).flag f = if f = FlagName.of b then x else s.flag f := by
  cases b <;> cases f <;> rfl

/-- An instruction that combines CC with a flag (R582). -/
theorem completes_ccOp {i : Instr} {s : State} {b : Flag} (op : Bool → Bool → Bool) (e : exec i s = done 2 (s.ccOp op b)) :
    Completes i s 2 [] [.cc] noBytes fun u => u.flag .cc = op (s.flag .cc) (s.flag (FlagName.of b)) := by
  rw [flag_of]
  exact completes_setCc e

/-- An instruction that combines a flag with CC (R583). -/
theorem completes_flagOp {i : Instr} {s : State} {b : Flag} (op : Bool → Bool → Bool)
    (e : exec i s = done 2 (s.flagOp op b)) :
    Completes i s 2 [] [FlagName.of b] noBytes fun u =>
      u.flag (FlagName.of b) = op (s.flag (FlagName.of b)) (s.flag .cc) := by
  have flag_eq := flag_putFlag s b (op (s.cur.astat.getFlag b) s.cc)
  refine ⟨_, e, rfl, Frame.flags (Frame.refl _ _ _ _) fun f hf => ?others, ?value⟩
  case others => exact (flag_eq f).trans (if_neg fun h => hf (List.mem_singleton.mpr h))
  case value =>
    rw [flag_of s]
    exact (flag_eq _).trans (if_pos rfl)

/-- Settles O15: CC or the named flag takes the value of the operator; a data register takes CC as a number. -/
theorem moveCc : Obligations.MoveCc := by
  refine ⟨?fromDreg, ?toDreg, ?flags, ?not⟩
  case fromDreg =>
    intro r s
    have h : decide (s.d r ≠ 0) = (s.d r != 0) := by simp [bne, Bool.beq_eq_decide_eq]
    rw [h]
    exact completes_setCc rfl
  case toDreg =>
    intro d s
    refine ⟨_, rfl, rfl, Frame.flags (frame_setD s d _ _) ?others, setD_d_same s d _, rfl, rfl⟩
    case others =>
      intro f hf
      cases f with
      | ac0 | v => exact absurd (by simp) hf
      | _ => rfl
  case flags =>
    intro b s x
    exact ⟨completes_ccOp (fun _ y => y) rfl, completes_ccOp (· || ·) rfl, completes_ccOp (· && ·) rfl,
      completes_ccOp (· ^^ ·) rfl, completes_flagOp (fun _ y => y) rfl, completes_flagOp (· || ·) rfl,
      completes_flagOp (· && ·) rfl, completes_flagOp (· ^^ ·) rfl⟩
  case not => exact fun s => completes_setCc rfl

end Sys2Proof.Proofs
end

section
/-!
Numbers as the arithmetic of the model sees them (00_scope.md R11; 41_alu.md R600, R601, R644): saturation, the exact value
of a difference, and the run of sign bits.
-/

namespace Sys2Proof.Proofs

open Machine Laws

/-! ## Saturation (R11, R600) -/

/-- Saturation is the nearest number. -/
theorem clampS_eq_nearest (w : Nat) (x : Int) : clampS w x = nearest w x := by
  have hpos : (0 : Int) < 2 ^ (w - 1) := by positivity
  rw [clampS, clamp, nearest]
  split
  · omega
  · split <;> omega

/-- A number is its own nearest one exactly where it is not outside. -/
theorem nearest_ne_iff (w : Nat) (x : Int) : nearest w x ≠ x ↔ x < -(2 ^ (w - 1)) ∨ 2 ^ (w - 1) - 1 < x := by
  have hpos : (0 : Int) < 2 ^ (w - 1) := by positivity
  rw [nearest]
  omega

@[simp] theorem overS_eq_outside (w : Nat) (x : Int) : overS w x = outside w x := by
  rw [overS, outside, clampS_eq_nearest]
  exact decide_eq_decide.mpr (nearest_ne_iff w x)

@[simp] theorem satS_eq_written (w : Nat) (x : Int) : satS w x = written w true x := by
  rw [satS, clampS_eq_nearest, written, if_pos rfl]

@[simp] theorem resultOf_val (w : Nat) (sat : Bool) (x : Int) (c : Bool) : (Result.of w sat x c).val = written w sat x := by
  cases sat with
  | false => rfl
  | true => exact satS_eq_written w x

@[simp] theorem resultOf_ovf (w : Nat) (sat : Bool) (x : Int) (c : Bool) : (Result.of w sat x c).ovf = outside w x :=
  overS_eq_outside w x

/-- A saturated number fits every width from its own up. -/
theorem toInt_ofInt_nearest {w v : Nat} (hw : 0 < w) (hv : w ≤ v) (x : Int) :
    (BitVec.ofInt v (nearest w x)).toInt = nearest w x := by
  have hpos : (0 : Int) < 2 ^ (w - 1) := by positivity
  have hle : (2 : Int) ^ (w - 1) ≤ 2 ^ (v - 1) := pow_le_pow_right₀ (by decide) (by omega)
  refine BitVec.toInt_ofInt_eq_self (by omega) ?_ ?_ <;> rw [nearest] <;> omega

theorem toInt_written {w : Nat} (hw : 0 < w) (x : Int) : (written w true x).toInt = nearest w x :=
  toInt_ofInt_nearest hw (Nat.le_refl w) x

/-- The absolute value of a signed number fits its width, the most negative number's excepted. -/
theorem outside_natAbs {w : Nat} (hw : 0 < w) (a : BitVec w) :
    outside w a.toInt.natAbs = decide (a = BitVec.intMin w) := by
  have hlow := BitVec.le_toInt a
  have hhigh := BitVec.toInt_lt (x := a)
  have hmin : a = BitVec.intMin w ↔ a.toInt = -(2 ^ (w - 1)) := by
    rw [← BitVec.toInt_inj, BitVec.toInt_intMin_of_pos hw]
  rw [outside, decide_eq_decide, hmin]
  omega

/-! ## Shifts (R670 to R673) -/

/-- A shift to the left multiplies (R671, R672). -/
theorem shl_eq_mul (a : Word) (k : Nat) : a <<< k = BitVec.twoPow 32 k * a := by
  rw [BitVec.mul_comm, BitVec.mul_twoPow_eq_shiftLeft]

/-! ## Bits shifted in (R631, R632) -/

theorem toNat_shiftIn (a : Word) (q : Bool) :
    (a.extractLsb' 0 31 ++ BitVec.ofBool q).toNat = 2 * a.toNat % 2 ^ 32 + q.toNat := by
  rw [toNat_append (m := 31) (k := 1), BitVec.extractLsb'_toNat, BitVec.toNat_ofBool]
  omega

theorem toNat_shiftIn_halves (t l : HWord) (q : Bool) :
    (t.extractLsb' 0 15 ++ l ++ BitVec.ofBool q).toNat = 2 * (t.toNat * 2 ^ 16 + l.toNat) % 2 ^ 32 + q.toNat := by
  rw [toNat_append (m := 31) (k := 1), toNat_append (m := 15) (k := 16), BitVec.extractLsb'_toNat, BitVec.toNat_ofBool]
  omega

/-! ## MAX, MIN and bits (R633, R635, R763) -/

theorem toInt_maxS {w : Nat} (a b : BitVec w) : (maxS a b).toInt = max a.toInt b.toInt := by
  rw [maxS]
  split <;> omega

theorem toInt_minS {w : Nat} (a b : BitVec w) : (minS a b).toInt = min a.toInt b.toInt := by
  rw [minS]
  split <;> omega

theorem getLsbD_bitMask (n : BitVec 5) (k : Nat) : (bitMask n).getLsbD k = decide (k = n.toNat) := by
  have hn : n.toNat < 32 := n.isLt
  have h := BitVec.getLsbD_twoPow (w := 32) n.toNat k
  rw [decide_eq_true hn, Bool.true_and] at h
  exact h.trans (decide_eq_decide.mpr eq_comm)

theorem getLsbD_bitclr (a : Word) (n : BitVec 5) (k : Nat) :
    (a &&& ~~~ bitMask n).getLsbD k = if k = n.toNat then false else a.getLsbD k := by
  rw [BitVec.getLsbD_and, BitVec.getLsbD_not, getLsbD_bitMask]
  split
  · simp [*]
  · rcases Nat.lt_or_ge k 32 with hk | hk
    · simp [*]
    · simp [BitVec.getLsbD_of_ge a k hk]

theorem getLsbD_bitset (a : Word) (n : BitVec 5) (k : Nat) :
    (a ||| bitMask n).getLsbD k = if k = n.toNat then true else a.getLsbD k := by
  rw [BitVec.getLsbD_or, getLsbD_bitMask]
  split <;> simp [*]

theorem getLsbD_bittgl (a : Word) (n : BitVec 5) (k : Nat) :
    (a ^^^ bitMask n).getLsbD k = if k = n.toNat then !a.getLsbD k else a.getLsbD k := by
  rw [BitVec.getLsbD_xor, getLsbD_bitMask]
  split <;> simp [*]

/-! ## The run of sign bits (R644) -/

/-- The numbers from 0 on for which `p` holds, and the first one for which it does not. -/
theorem takeWhile_range (p : Nat → Bool) (w : Nat) :
    let n := ((List.range w).takeWhile p).length
    n ≤ w ∧ (∀ k, k < n → p k = true) ∧ (n < w → p n = false) := by
  have hn : ((List.range w).takeWhile p).length = (List.range w).findIdx fun k => !p k := by
    have hle := List.findIdx_le_length (p := fun k => !p k) (xs := List.range w)
    rw [List.takeWhile_eq_take_findIdx_not, List.length_take]
    exact Nat.min_eq_left hle
  intro n
  have hle : n ≤ w := hn.trans_le (List.findIdx_le_length.trans_eq List.length_range)
  refine ⟨hle, fun k hk => ?_, fun hlt => ?_⟩
  · have h := List.not_of_lt_findIdx (hn ▸ hk : k < (List.range w).findIdx fun k => !p k)
    simpa using h
  · have hlen : ((List.range w).findIdx fun k => !p k) < (List.range w).length := by
      rw [← hn, List.length_range]
      exact hlt
    have h := List.findIdx_getElem (w := hlen)
    simpa [← hn] using h

/-- The run of sign bits, its first bit left out, is what `leads` says. -/
theorem leads_signRun {w : Nat} (hw : 0 < w) (a : BitVec w) :
    0 < signRun a ∧ signRun a ≤ w ∧ leads a (signRun a - 1) := by
  obtain ⟨hle, hin, hout⟩ := takeWhile_range (fun k => a.getLsbD (w - 1 - k) == a.msb) w
  change signRun a ≤ w at hle
  change ∀ k, k < signRun a → _ at hin
  change signRun a < w → (a.getLsbD (w - 1 - signRun a) == a.msb) = false at hout
  have hpos : 0 < signRun a := by
    by_contra h0
    have hzero : signRun a = 0 := by omega
    have h := hout (by omega)
    simp [hzero, BitVec.msb_eq_getLsbD_last] at h
  have hsucc : signRun a - 1 + 1 = signRun a := by omega
  refine ⟨hpos, hle, by omega, fun k hk => ?_, fun hlt => ?_⟩
  · exact eq_of_beq (hin k (by omega))
  · rw [hsucc] at hlt ⊢
    exact Bool.eq_not.mpr (ne_of_beq_false (hout hlt))

end Sys2Proof.Proofs
end

section
/-!
Instructions of the ALU (41_alu.md): what the rows of its flag tables say of a result, and for each way in which such an
instruction ends, that it completes with just its registers and those flags changed.
-/

namespace Sys2Proof.Proofs

open Machine Laws

section

variable {s u : State} {i : Instr} {len : Nat} {rs : List AllReg} {fs : List FlagName} {st : Nat → Prop}
  {P : State → Prop}

/-! ## How completions are put together -/

/-- What is said of a completion may be weakened. -/
theorem completes_mono {Q : State → Prop} (h : Completes i s len rs fs st P) (hPQ : ∀ u, P u → Q u) :
    Completes i s len rs fs st Q := by
  obtain ⟨u, e, hslot, frame, hP⟩ := h
  exact ⟨u, e, hslot, frame, hPQ u hP⟩

/-- An instruction that may have its operands is what it does with them. -/
theorem legal_of {ok : Bool} (h : ok = true) (o : Outcome) : legal ok s o = o := by rw [h, legal_ok]

/-! ## Halves of a data register (R51) -/

@[simp] theorem half_hi_word (h l : HWord) : half .hi (word h l) = h := extract_append_high (m := 16) (n := 16) h l

@[simp] theorem half_lo_word (h l : HWord) : half .lo (word h l) = l := extract_append_low (m := 16) (n := 16) h l

/-- An instruction that writes one half of a data register. -/
theorem completes_setDh {d : DReg} {h : Half} {v : HWord} (e : exec i s = done len (s.setDh d h v))
    (hP : ∀ u, s.halfTook u d h v → P u) : Completes i s len [.d d] [] noBytes P :=
  ⟨_, e, rfl, frame_setD s d _ _, hP _ (setDh_halfTook s d h v)⟩

/-- An instruction that writes a number to the low half of a data register. -/
theorem completes_lowNumber {d : DReg} {n : Nat} (hn : n < 2 ^ 16)
    (e : exec i s = done len (s.setDh d .lo (BitVec.ofNat 16 n))) (hP : ∀ u, (u.dh d .lo).toNat = n → P u) :
    Completes i s len [.d d] [] noBytes fun u => P u ∧ u.dh d .hi = s.dh d .hi :=
  completes_setDh e fun u ⟨hlo, hhi⟩ => ⟨hP u ((congrArg BitVec.toNat hlo).trans (Nat.mod_eq_of_lt hn)), hhi⟩

/-! ## Exponents (R644 to R648) -/

/-- SIGNBITS of a data register or a half (R644, R645). -/
theorem completes_signbits {w : Nat} (hw : 0 < w) (hle : w ≤ 32) (a : BitVec w) {d : DReg}
    (e : exec i s = done 4 (s.setDh d .lo (BitVec.ofNat 16 (signRun a - 1)))) :
    Completes i s 4 [.d d] [] noBytes fun u => leads a (u.dh d .lo).toNat ∧ u.dh d .hi = s.dh d .hi := by
  obtain ⟨-, hrun, hleads⟩ := leads_signRun hw a
  exact completes_lowNumber (by omega) e fun u hu => by rwa [hu]

/-- EXPADJ of an operand of one lane (R648). -/
theorem completes_expadj {w : Nat} (hw : 0 < w) (a : BitVec w) {d : DReg} {c : HWord}
    (e : exec i s = done 4 (s.setDh d .lo (BitVec.ofNat 16 (min (signRun a - 1) c.toNat)))) :
    Completes i s 4 [.d d] [] noBytes fun u =>
      (∃ n, leads a n ∧ (u.dh d .lo).toNat = min n c.toNat) ∧ u.dh d .hi = s.dh d .hi := by
  obtain ⟨-, hrun, hleads⟩ := leads_signRun hw a
  exact completes_lowNumber (by omega) e fun u hu => ⟨_, hleads, hu⟩

/-! ## Sums (R600, R601, R609) -/

theorem frame_sumFlags (h : Frame s u rs fs st) (hfs : sumNames ⊆ fs) {w : Nat} (r : Result w) :
    Frame s (u.sumFlags r) rs fs st :=
  Frame.flags h fun f hf => by
    cases f with
    | az | an | ac0 | v | vs => exact absurd (hfs (by simp [sumNames])) hf
    | _ => rfl

/-- What the flags say of one sum (R601). -/
theorem sumFlags_says (hvs : u.flag .vs = s.flag .vs) {w : Nat} (r : Result w) :
    (u.sumFlags r).signs r.val ∧ (u.sumFlags r).flag .ac0 = r.carry ∧ overflows s (u.sumFlags r) r.ovf :=
  ⟨⟨rfl, rfl⟩, rfl, rfl, congrArg (· || r.ovf) hvs⟩

theorem frame_sumFlags2 (h : Frame s u rs fs st) (hfs : sumNames2 ⊆ fs) {w : Nat} (r0 r1 : Result w) :
    Frame s (u.sumFlags2 r0 r1) rs fs st :=
  Frame.flags h fun f hf => by
    cases f with
    | az | an | ac0 | ac1 | v | vs => exact absurd (hfs (by simp [sumNames2])) hf
    | _ => rfl

/-- What the flags say of two sums: the OR over both, and the carry of each (D22). -/
theorem sumFlags2_says (hvs : u.flag .vs = s.flag .vs) {w : Nat} (r0 r1 : Result w) :
    (u.sumFlags2 r0 r1).signs2 r0.val r1.val ∧ (u.sumFlags2 r0 r1).flag .ac0 = r0.carry ∧
      (u.sumFlags2 r0 r1).flag .ac1 = r1.carry ∧ overflows s (u.sumFlags2 r0 r1) (r0.ovf || r1.ovf) :=
  ⟨⟨rfl, rfl⟩, rfl, rfl, rfl, congrArg (· || (r0.ovf || r1.ovf)) hvs⟩

/-- The OR over two results does not depend on their order. -/
theorem signs2_comm {w : Nat} {r r' : BitVec w} (h : u.signs2 r r') : u.signs2 r' r :=
  ⟨h.1.trans (Bool.or_comm _ _), h.2.trans (Bool.or_comm _ _)⟩

/-- An instruction that writes one 32-bit result. -/
theorem completes_sumResult {d : DReg} {r : Result 32} (e : exec i s = done len (s.sumResult d r)) :
    Completes i s len [.d d] sumNames noBytes fun u =>
      u.d d = r.val ∧ u.signs (u.d d) ∧ u.flag .ac0 = r.carry ∧ overflows s u r.ovf := by
  obtain ⟨hsigns, hcarry, hv⟩ := sumFlags_says (s := s) (u := s.setD d r.val) rfl r
  have value : (s.sumResult d r).d d = r.val := setD_d_same s d r.val
  refine ⟨_, e, rfl, frame_sumFlags (frame_setD s d _ _) (List.Subset.refl _) r, value, ?_, hcarry, hv⟩
  rw [value]
  exact hsigns

/-- An instruction that writes one exact 32-bit number, truncated or saturated. -/
theorem completes_sum {d : DReg} {sat : Bool} {x : Int} {c : Bool}
    (e : exec i s = done len (s.sumResult d (.of 32 sat x c))) :
    Completes i s len [.d d] sumNames noBytes fun u => u.d d = written 32 sat x ∧ u.signs (u.d d) ∧
      u.flag .ac0 = c ∧ overflows s u (outside 32 x) := by
  have h := completes_sumResult e
  rw [resultOf_val, resultOf_ovf] at h
  exact h

/-- Two data registers that take values: each reads what it took where they are two. -/
theorem setD_setD_reads (s : State) {d e : DReg} (hne : d ≠ e) (v w : Word) :
    ((s.setD d v).setD e w).d d = v ∧ ((s.setD d v).setD e w).d e = w :=
  ⟨by simp [State.d, hne], setD_d_same _ e w⟩

theorem frame_setD_setD (s : State) (d e : DReg) (v w : Word) (fs : List FlagName) :
    Frame s ((s.setD d v).setD e w) [.d d, .d e] fs noBytes :=
  Frame.setD (Frame.setD (Frame.refl _ _ _ _) (by simp) v) (by simp) w

/-- An instruction that writes two 32-bit results. -/
theorem completes_resultPair {d e : DReg} (hne : d ≠ e) {r0 r1 : Result 32}
    (he : exec i s = done len (((s.setD d r0.val).setD e r1.val).sumFlags2 r0 r1)) :
    Completes i s len [.d d, .d e] sumNames2 noBytes fun u =>
      u.d d = r0.val ∧ u.d e = r1.val ∧ u.signs2 (u.d d) (u.d e) ∧
      u.flag .ac0 = r0.carry ∧ u.flag .ac1 = r1.carry ∧ overflows s u (r0.ovf || r1.ovf) := by
  let t := ((s.setD d r0.val).setD e r1.val).sumFlags2 r0 r1
  obtain ⟨value0, value1⟩ : t.d d = r0.val ∧ t.d e = r1.val := setD_setD_reads s hne r0.val r1.val
  obtain ⟨hsigns, hc0, hc1, hv⟩ := sumFlags2_says (s := s) (u := (s.setD d r0.val).setD e r1.val) rfl r0 r1
  refine ⟨t, he, rfl, frame_sumFlags2 (frame_setD_setD s d e _ _ _) (List.Subset.refl _) r0 r1, value0, value1, ?_,
    hc0, hc1, hv⟩
  rw [value0, value1]
  exact hsigns

/-- An instruction that writes two exact 32-bit numbers, truncated or saturated. -/
theorem completes_sumPair {d e : DReg} (hne : d ≠ e) {sat : Bool} {x y : Int} {c0 c1 : Bool}
    (he : exec i s = done len (((s.setD d (Result.of 32 sat x c0).val).setD e (Result.of 32 sat y c1).val).sumFlags2
      (.of 32 sat x c0) (.of 32 sat y c1))) :
    Completes i s len [.d d, .d e] sumNames2 noBytes fun u =>
      u.d d = written 32 sat x ∧ u.d e = written 32 sat y ∧ u.signs2 (u.d d) (u.d e) ∧
      u.flag .ac0 = c0 ∧ u.flag .ac1 = c1 ∧ overflows s u (outside 32 x || outside 32 y) := by
  have h := completes_resultPair hne he
  rw [resultOf_val, resultOf_val, resultOf_ovf, resultOf_ovf] at h
  exact h

/-- An instruction that writes one 16-bit result to a half of a data register. -/
theorem completes_halfResult {d : DReg} {h : Half} {r : Result 16}
    (e : exec i s = done len ((s.setDh d h r.val).sumFlags r)) :
    Completes i s len [.d d] sumNames noBytes fun u =>
      s.halfTook u d h r.val ∧ u.signs r.val ∧ u.flag .ac0 = r.carry ∧ overflows s u r.ovf := by
  have took := setDh_halfTook s d h r.val
  obtain ⟨hsigns, hcarry, hv⟩ := sumFlags_says (s := s) (u := s.setDh d h r.val) rfl r
  exact ⟨_, e, rfl, frame_sumFlags (frame_setD s d _ _) (List.Subset.refl _) r, took, hsigns, hcarry, hv⟩

/-- An instruction that writes one exact 16-bit number, truncated or saturated (R613, R614). -/
theorem completes_halfSum {d : DReg} {h : Half} {sat : Bool} {x : Int} {c : Bool}
    (e : exec i s = done len ((s.setDh d h (Result.of 16 sat x c).val).sumFlags (.of 16 sat x c))) :
    Completes i s len [.d d] sumNames noBytes fun u =>
      s.halfTook u d h (written 16 sat x) ∧ u.signs (written 16 sat x) ∧ u.flag .ac0 = c ∧
      overflows s u (outside 16 x) := by
  have h := completes_halfResult e
  rw [resultOf_val, resultOf_ovf] at h
  exact h

/-- An instruction that writes a 16-bit result in each half of a data register, the low one from ALU0. -/
theorem completes_laneResults {d : DReg} {cross : Bool} {h l : Result 16}
    (e : exec i s = done len ((s.setD d (packLanes cross h.val l.val)).sumFlags2 l h)) :
    Completes i s len [.d d] sumNames2 noBytes fun u =>
      u.lanes d cross h.val l.val ∧ u.signs2 h.val l.val ∧ u.flag .ac0 = l.carry ∧ u.flag .ac1 = h.carry ∧
      overflows s u (h.ovf || l.ovf) := by
  have value := setD_d_same s d (packLanes cross h.val l.val)
  obtain ⟨hsigns, hc0, hc1, hv⟩ := sumFlags2_says (s := s) (u := s.setD d (packLanes cross h.val l.val)) rfl l h
  rw [Bool.or_comm] at hv
  have frame := frame_sumFlags2 (frame_setD s d (packLanes cross h.val l.val) _) (List.Subset.refl sumNames2) l h
  exact ⟨_, e, rfl, frame, value, signs2_comm hsigns, hc0, hc1, hv⟩

/-- An instruction that writes two exact 16-bit numbers, truncated or saturated (R615 to R618). -/
theorem completes_vecSum {d : DReg} {sat cross : Bool} {x y : Int} {c1 c0 : Bool}
    (e : exec i s = done len
      ((s.setD d (packLanes cross (Result.of 16 sat x c1).val (Result.of 16 sat y c0).val)).sumFlags2
        (.of 16 sat y c0) (.of 16 sat x c1))) :
    Completes i s len [.d d] sumNames2 noBytes fun u =>
      u.lanes d cross (written 16 sat x) (written 16 sat y) ∧ u.signs2 (written 16 sat x) (written 16 sat y) ∧
      u.flag .ac0 = c0 ∧ u.flag .ac1 = c1 ∧ overflows s u (outside 16 x || outside 16 y) := by
  have h := completes_laneResults e
  rw [resultOf_val, resultOf_val, resultOf_ovf, resultOf_ovf] at h
  exact h

/-! ## AZ and AN, with V or with V cleared (R619, R634, R637 to R643, D22) -/

/-- An instruction that writes a data register and AZ, AN, V from the result. -/
theorem completes_znvResult {d : DReg} {r : Result 32}
    (e : exec i s = done len ((s.setD d r.val).znvFlags [(r.val, r.ovf)])) :
    Completes i s len [.d d] znvNames noBytes fun u => u.d d = r.val ∧ u.signs (u.d d) ∧ overflows s u r.ovf := by
  obtain ⟨hsigns, hv⟩ := znvFlags_one (s := s) (u := s.setD d r.val) rfl r.val r.ovf
  have value : ((s.setD d r.val).znvFlags [(r.val, r.ovf)]).d d = r.val := setD_d_same s d r.val
  refine ⟨_, e, rfl, frame_znvFlags (frame_setD s d _ _) (List.Subset.refl _) _, value, ?_, hv⟩
  rw [value]
  exact hsigns

/-- The halves of a data register that has taken both. -/
theorem dh_setD_word (s : State) (d : DReg) (h l : HWord) :
    (s.setD d (word h l)).dh d .hi = h ∧ (s.setD d (word h l)).dh d .lo = l := by
  rw [State.dh, State.dh, setD_d_same, half_hi_word, half_lo_word]
  exact ⟨rfl, rfl⟩

/-- An instruction that writes both halves of a data register and AZ, AN, V from the two results. -/
theorem completes_znvLanes {d : DReg} {h l : Result 16}
    (e : exec i s = done len ((s.setD d (word h.val l.val)).znvFlags [(h.val, h.ovf), (l.val, l.ovf)])) :
    Completes i s len [.d d] znvNames noBytes fun u => (u.dh d .hi = h.val ∧ u.dh d .lo = l.val) ∧
      u.signs2 (u.dh d .hi) (u.dh d .lo) ∧ overflows s u (h.ovf || l.ovf) := by
  obtain ⟨hhi, hlo⟩ := dh_setD_word s d h.val l.val
  obtain ⟨hsigns, hv⟩ := znvFlags_two (s := s) (u := s.setD d (word h.val l.val)) rfl h.val l.val h.ovf l.ovf
  refine ⟨_, e, rfl, frame_znvFlags (frame_setD s d _ _) (List.Subset.refl _) _, ⟨hhi, hlo⟩, ?_, hv⟩
  rw [State.znvFlags, dh_flags, dh_flags, hhi, hlo]
  exact hsigns

/-- An instruction that writes four 16-bit results to two data registers. -/
theorem completes_fourLanes {d e : DReg} (hne : d ≠ e) {cross : Bool} {x y z w : Result 16}
    (he : exec i s = done len
      (((s.setD d (packLanes cross x.val y.val)).setD e (word z.val w.val)).znvFlags
        [(x.val, x.ovf), (y.val, y.ovf), (z.val, z.ovf), (w.val, w.ovf)])) :
    Completes i s len [.d d, .d e] znvNames noBytes fun u =>
      u.lanes d cross x.val y.val ∧ u.lanes e false z.val w.val ∧
      u.flag .az = (x.val == 0 || y.val == 0 || z.val == 0 || w.val == 0) ∧
      u.flag .an = (x.val.msb || y.val.msb || z.val.msb || w.val.msb) ∧
      overflows s u (x.ovf || y.ovf || z.ovf || w.ovf) := by
  let t := (s.setD d (packLanes cross x.val y.val)).setD e (word z.val w.val)
  let results := [(x.val, x.ovf), (y.val, y.ovf), (z.val, z.ovf), (w.val, w.ovf)]
  obtain ⟨hd, he'⟩ := setD_setD_reads s hne (packLanes cross x.val y.val) (word z.val w.val)
  have hv : overflows s (t.znvFlags results) (results.any fun r => r.2) := overflows_znvFlags rfl results
  have any_ovf : (results.any fun r => r.2) = (x.ovf || y.ovf || z.ovf || w.ovf) := by simp [results, Bool.or_assoc]
  refine ⟨t.znvFlags results, he, rfl, frame_znvFlags (frame_setD_setD s d e _ _ _) (List.Subset.refl _) _, hd, he',
    ?_, ?_, any_ovf ▸ hv⟩
  · simp [results, Bool.or_assoc]
  · simp [results, Bool.or_assoc]

/-- An instruction that writes four exact 16-bit numbers, truncated or saturated (R619, R620). -/
theorem completes_quad {d e : DReg} (hne : d ≠ e) {sat cross : Bool} {x y z w : Int} {c : Bool}
    (he : exec i s = done len
      (((s.setD d (packLanes cross (Result.of 16 sat x c).val (Result.of 16 sat y c).val)).setD e
          (word (Result.of 16 sat z c).val (Result.of 16 sat w c).val)).znvFlags
        [((Result.of 16 sat x c).val, (Result.of 16 sat x c).ovf), ((Result.of 16 sat y c).val, (Result.of 16 sat y c).ovf),
          ((Result.of 16 sat z c).val, (Result.of 16 sat z c).ovf),
          ((Result.of 16 sat w c).val, (Result.of 16 sat w c).ovf)])) :
    Completes i s len [.d d, .d e] znvNames noBytes fun u =>
      u.lanes d cross (written 16 sat x) (written 16 sat y) ∧ u.lanes e false (written 16 sat z) (written 16 sat w) ∧
      u.flag .az = (written 16 sat x == 0 || written 16 sat y == 0 || written 16 sat z == 0 || written 16 sat w == 0) ∧
      u.flag .an = ((written 16 sat x).msb || (written 16 sat y).msb || (written 16 sat z).msb || (written 16 sat w).msb) ∧
      overflows s u (outside 16 x || outside 16 y || outside 16 z || outside 16 w) := by
  have h := completes_fourLanes hne he
  simp only [resultOf_val, resultOf_ovf] at h
  exact h

/-- An instruction that rounds into a half of a data register (R639 to R643). -/
theorem completes_roundResult {d : DReg} {h : Half} {x : Int} (e : exec i s = done len (s.roundResult h d x)) :
    Completes i s len [.d d] znvNames noBytes fun u =>
      s.halfTook u d h (written 16 true x) ∧ u.signs (written 16 true x) ∧ overflows s u (outside 16 x) := by
  rw [State.roundResult, satS_eq_written, overS_eq_outside] at e
  obtain ⟨hsigns, hv⟩ := znvFlags_one (s := s) (u := s.setDh d h _) rfl (written 16 true x) (outside 16 x)
  refine ⟨_, e, rfl, frame_znvFlags (frame_setD s d _ _) (List.Subset.refl _) _, ?_, hsigns, hv⟩
  have took := setDh_halfTook s d h (written 16 true x)
  cases h <;> exact took

theorem frame_znFlags (h : Frame s u rs fs st) (hfs : [.az, .an, .v] ⊆ fs) {w : Nat} (xs : List (BitVec w)) :
    Frame s (u.znFlags xs) rs fs st :=
  Frame.flags h fun f hf => by
    cases f with
    | az | an | v => exact absurd (hfs (by simp)) hf
    | _ => rfl

/-- An instruction that writes a data register and AZ, AN from it, with V cleared. -/
theorem completes_znResult {d : DReg} {v : Word} (e : exec i s = done len ((s.setD d v).znFlags [v]))
    (hP : ∀ u, u.d d = v → P u) :
    Completes i s len [.d d] [.az, .an, .v] noBytes fun u => P u ∧ u.signs (u.d d) ∧ u.flag .v = false := by
  have value : ((s.setD d v).znFlags [v]).d d = v := setD_d_same s d v
  refine ⟨_, e, rfl, frame_znFlags (frame_setD s d _ _) (List.Subset.refl _) _, hP _ value, ?_, rfl⟩
  rw [value]
  exact ⟨Bool.or_false _, Bool.or_false _⟩

/-- An instruction that writes both halves of a data register and AZ, AN from them, with V cleared (R634). -/
theorem completes_vecZn {d : DReg} {h l : HWord} (e : exec i s = done len (s.vecZn d h l))
    (hP : ∀ u, u.dh d .hi = h → u.dh d .lo = l → P u) :
    Completes i s len [.d d] [.az, .an, .v] noBytes fun u =>
      P u ∧ u.signs2 (u.dh d .hi) (u.dh d .lo) ∧ u.flag .v = false := by
  have hhi : (s.vecZn d h l).dh d .hi = h := (congrArg (half .hi) (setD_d_same s d _)).trans (half_hi_word h l)
  have hlo : (s.vecZn d h l).dh d .lo = l := (congrArg (half .lo) (setD_d_same s d _)).trans (half_lo_word h l)
  refine ⟨_, e, rfl, frame_znFlags (frame_setD s d _ _) (List.Subset.refl _) _, hP _ hhi hlo, ?_, rfl⟩
  rw [hhi, hlo]
  exact ⟨congrArg (_ || ·) (Bool.or_false _), congrArg (_ || ·) (Bool.or_false _)⟩

/-! ## Accumulators (R621 to R630) -/

/-- A result is the exact number `x` saturated at `w` bits, with its overflow. -/
def Saturated {v : Nat} (r : Result v) (w : Nat) (x : Int) : Prop := r.val.toInt = nearest w x ∧ r.ovf = outside w x

theorem resultOf_saturated {w : Nat} (hw : 0 < w) (x : Int) (c : Bool) : Saturated (.of w true x c) w x := by
  rw [Saturated, resultOf_val, resultOf_ovf]
  exact ⟨toInt_written hw x, rfl⟩

theorem clamped_saturated {v w : Nat} (hw : 0 < w) (hv : w ≤ v) (x : Int) (c : Bool) :
    Saturated ⟨BitVec.ofInt v (clampS w x), c, overS w x⟩ w x := by
  rw [clampS_eq_nearest, overS_eq_outside]
  exact ⟨toInt_ofInt_nearest hw hv x, rfl⟩

theorem accResult_saturated (w32 : Bool) (x : Int) (c : Bool) :
    Saturated (accResult w32 x c) (if w32 then 32 else 40) x := by
  cases w32 with
  | false => simpa [accResult, overS] using clamped_saturated (v := 40) (w := 40) (by decide) (by decide) x c
  | true => simpa [accResult, overS] using clamped_saturated (v := 40) (w := 32) (by decide) (by decide) x c

theorem accSum_saturated (s : State) : Saturated (s.accSum false) 40 (s.cur.a0.toInt + s.cur.a1.toInt) := by
  have h := accResult_saturated false (s.cur.a0.toInt + s.cur.a1.toInt) (carryAdd s.cur.a0 s.cur.a1)
  rwa [if_neg Bool.false_ne_true] at h

theorem satAccR_saturated (a : Acc) : Saturated (satAccR a) 32 a.toInt :=
  clamped_saturated (by decide) (by decide) a.toInt false

theorem frame_accFlags (h : Frame s u rs fs st) {a : AccN} (hfs : [.az, .an] ++ avNames a ⊆ fs) (r : Result 40) :
    Frame s (u.accFlags a r) rs fs st :=
  Frame.flags h fun f hf => by
    cases a <;> cases f with
    | az | an => exact absurd (hfs (by simp)) hf
    | av0 | av0s | av1 | av1s => first | rfl | exact absurd (hfs (by simp [avNames])) hf
    | _ => rfl

/-- An instruction that writes one accumulator, with AZ, AN and its overflow flag. -/
theorem completes_accResult {a : AccN} {r : Result 40} {w : Nat} {x : Int} (hr : Saturated r w x)
    (e : exec i s = done len ((s.setAcc a r.val).accFlags a r)) :
    Completes i s len (accParts a) ([.az, .an] ++ avNames a) noBytes fun u =>
      (u.acc a).toInt = nearest w x ∧ u.signs (u.acc a) ∧ accOverflows s u a (outside w x) := by
  obtain ⟨hval, hovf⟩ := hr
  have frame : Frame s (s.setAcc a r.val) (accParts a) ([.az, .an] ++ avNames a) noBytes :=
    Frame.setAcc (Frame.refl _ _ _ _) (by simp [accParts]) (by simp [accParts]) _
  rw [← hval, ← hovf]
  exact ⟨_, e, congrArg Issue.slot (setAcc_issue s a _), frame_accFlags frame (List.Subset.refl _) r,
    by cases a <;> exact ⟨rfl, ⟨rfl, rfl⟩, rfl, rfl⟩⟩

/-- The same with AC0. -/
theorem completes_accCarry {a : AccN} {r : Result 40} {w : Nat} {x : Int} (hr : Saturated r w x)
    (e : exec i s = done len (((s.setAcc a r.val).accFlags a r).flags fun f => { f with ac0 := r.carry })) :
    Completes i s len (accParts a) ([.az, .an, .ac0] ++ avNames a) noBytes fun u =>
      (u.acc a).toInt = nearest w x ∧ u.signs (u.acc a) ∧ accOverflows s u a (outside w x) ∧ u.flag .ac0 = r.carry := by
  obtain ⟨hval, hovf⟩ := hr
  have frame : Frame s (s.setAcc a r.val) (accParts a) ([.az, .an, .ac0] ++ avNames a) noBytes :=
    Frame.setAcc (Frame.refl _ _ _ _) (by simp [accParts]) (by simp [accParts]) _
  refine ⟨_, e, congrArg Issue.slot (setAcc_issue s a _), Frame.flags (frame_accFlags frame ?names r) ?others, ?reads⟩
  case names => simp [List.subset_def]; tauto
  case others =>
    intro f hf
    cases f with
    | ac0 => exact absurd (by simp) hf
    | _ => rfl
  case reads =>
    rw [← hval, ← hovf]
    cases a <;> exact ⟨rfl, ⟨rfl, rfl⟩, ⟨rfl, rfl⟩, rfl⟩

theorem frame_setAccs (s : State) (r1 r0 : Result 40) (hfs : [.az, .an] ++ avNames .a0 ++ avNames .a1 ⊆ fs) :
    Frame s (s.setAccs r1 r0) (accParts .a0 ++ accParts .a1) fs noBytes := by
  have acc1 : Frame s (s.setAcc .a1 r1.val) (accParts .a0 ++ accParts .a1) fs noBytes :=
    Frame.setAcc (Frame.refl _ _ _ _) (by simp [accParts]) (by simp [accParts]) _
  refine Frame.flags (Frame.setAcc acc1 (by simp [accParts]) (by simp [accParts]) _) fun f hf => ?_
  cases f with
  | az | an | av0 | av0s | av1 | av1s => exact absurd (hfs (by simp [avNames])) hf
  | _ => rfl

/-! ## Two results in accumulators (R626, R628, R630) -/

/-- What the accumulators and AZ, AN, their overflow flags say after `s` of two exact numbers, saturated (D22). -/
def tookBoth (s u : State) (w : Nat) (f : AccN → Int) : Prop :=
  (∀ a, (u.acc a).toInt = nearest w (f a) ∧ accOverflows s u a (outside w (f a))) ∧ u.signs2 (u.acc .a1) (u.acc .a0)

theorem setAccs_tookBoth {r1 r0 : Result 40} {w : Nat} {f : AccN → Int} (h1 : Saturated r1 w (f .a1))
    (h0 : Saturated r0 w (f .a0)) (c0 c1 : Bool) :
    tookBoth s (s.setAccs r1 r0) w f ∧
      tookBoth s ((s.setAccs r1 r0).flags fun g => { g with ac0 := c0, ac1 := c1 }) w f := by
  obtain ⟨hval1, hovf1⟩ := h1
  obtain ⟨hval0, hovf0⟩ := h0
  constructor <;> refine ⟨fun a => ?_, rfl, rfl⟩ <;> cases a with
    | a0 => exact ⟨hval0, hovf0, congrArg (s.flag .av0s || ·) hovf0⟩
    | a1 => exact ⟨hval1, hovf1, congrArg (s.flag .av1s || ·) hovf1⟩

/-- An instruction that writes both accumulators. -/
theorem completes_setAccs {r1 r0 : Result 40} {w : Nat} {f : AccN → Int} (h1 : Saturated r1 w (f .a1))
    (h0 : Saturated r0 w (f .a0)) (e : exec i s = done len (s.setAccs r1 r0)) :
    Completes i s len (accParts .a0 ++ accParts .a1) ([.az, .an] ++ avNames .a0 ++ avNames .a1) noBytes fun u =>
      tookBoth s u w f :=
  ⟨_, e, rfl, frame_setAccs s r1 r0 (List.Subset.refl _), (setAccs_tookBoth h1 h0 false false).1⟩

/-- The same with AC0 and AC1. -/
theorem completes_setAccsCarry {r1 r0 : Result 40} {w : Nat} {f : AccN → Int} (h1 : Saturated r1 w (f .a1))
    (h0 : Saturated r0 w (f .a0))
    (e : exec i s = done len ((s.setAccs r1 r0).flags fun g => { g with ac0 := r0.carry, ac1 := r1.carry })) :
    Completes i s len (accParts .a0 ++ accParts .a1) ([.az, .an, .ac0, .ac1] ++ avNames .a0 ++ avNames .a1) noBytes fun u =>
      tookBoth s u w f ∧ u.flag .ac0 = r0.carry ∧ u.flag .ac1 = r1.carry := by
  have frame := frame_setAccs (fs := [.az, .an, .ac0, .ac1] ++ avNames .a0 ++ avNames .a1) s r1 r0 (by simp [avNames])
  refine ⟨_, e, rfl, Frame.flags frame fun f hf => ?_, (setAccs_tookBoth h1 h0 _ _).2, rfl, rfl⟩
  cases f with
  | ac0 | ac1 => exact absurd (by simp) hf
  | _ => rfl

/-! ## A data register with what A0 takes (R623, R624) -/

/-- An instruction that writes A0 with AC0 and its overflow, and a data register with AZ, AN and V. -/
theorem completes_accThenDreg {d : DReg} {r : Result 40} {v : Word} {w : Nat} {x : BitVec w} {o : Bool}
    (e : exec i s = done len (((s.setA0 r).setD d v).znvFlags [(x, o)]))
    (hP : ∀ u, u.acc .a0 = r.val → u.d d = v → u.signs x → overflows s u o → accOverflows s u .a0 r.ovf →
      u.flag .ac0 = r.carry → P u) :
    Completes i s len ([.d d] ++ accParts .a0) (sumNames ++ avNames .a0) noBytes P := by
  let t := (s.setA0 r).setD d v
  have acc0 : Frame s (s.setAcc .a0 r.val) ([.d d] ++ accParts .a0) (sumNames ++ avNames .a0) noBytes :=
    Frame.setAcc (Frame.refl _ _ _ _) (by simp [accParts]) (by simp [accParts]) _
  have flags0 : Frame s (s.setA0 r) ([.d d] ++ accParts .a0) (sumNames ++ avNames .a0) noBytes :=
    Frame.flags acc0 fun f hf => by
      cases f with
      | ac0 | av0 | av0s => exact absurd (by simp [sumNames, avNames]) hf
      | _ => rfl
  have frame : Frame s t ([.d d] ++ accParts .a0) (sumNames ++ avNames .a0) noBytes := Frame.setD flags0 (by simp) v
  obtain ⟨hsigns, hv⟩ := znvFlags_one (s := s) (u := t) rfl x o
  exact ⟨_, e, rfl, frame_znvFlags frame (by simp [znvNames, sumNames]) _,
    hP _ rfl (setD_d_same _ d v) hsigns hv ⟨rfl, rfl⟩ rfl⟩

/-- A data register that takes its old value with one half replaced. -/
theorem halfTook_of_withHalf {d : DReg} {h : Half} {v : HWord} (hd : u.d d = withHalf h (s.d d) v) :
    s.halfTook u d h v := by
  cases h with
  | lo =>
    exact ⟨(congrArg (half .lo) hd).trans (half_withHalf_same _ _ _),
      (congrArg (half .hi) hd).trans (half_hi_withHalf_lo _ _)⟩
  | hi =>
    exact ⟨(congrArg (half .hi) hd).trans (half_withHalf_same _ _ _),
      (congrArg (half .lo) hd).trans (half_lo_withHalf_hi _ _)⟩

/-! ## Absolute values (R637, R638) -/

theorem absR_saturated {w : Nat} (hw : 0 < w) (a : BitVec w) : Saturated (absR a) w a.toInt.natAbs :=
  resultOf_saturated hw _ _

theorem absR_ovf {w : Nat} (hw : 0 < w) (a : BitVec w) : (absR a).ovf = decide (a = BitVec.intMin w) :=
  (resultOf_ovf _ _ _ _).trans (outside_natAbs hw a)

/-! ## Flags with free values (R631, R665, D24, D27) -/

/-- CC takes the answer of a compare; AZ, AN and AC0 take free values, which are counted (log entry 24). -/
theorem cmpResult_eq (s : State) (b : Bool) : ∃ n az an ac0,
    s.cmpResult b = ({ s with free := n } : State).flags fun f => { f with cc := b, az := az, an := an, ac0 := ac0 } :=
  ⟨_, _, _, _, rfl⟩

/-- An instruction that compares data registers. -/
theorem completes_compare {b : Bool} (e : exec i s = done len (s.cmpResult b)) :
    Completes i s len [] [.cc, .az, .an, .ac0] noBytes fun u => u.flag .cc = b := by
  obtain ⟨n, az, an, ac0, hresult⟩ := cmpResult_eq s b
  rw [hresult] at e
  refine ⟨_, e, rfl, Frame.flags (Frame.setFree (Frame.refl _ _ _ _) n) fun f hf => ?_, rfl⟩
  cases f with
  | cc | az | an | ac0 => exact absurd (by simp) hf
  | _ => rfl

/-- Six flags take free values, which are counted (log entry 23). -/
theorem freeDivFlags_eq (s : State) : ∃ n az an ac0 ac1 av0 av0s,
    s.freeDivFlags = ({ s with free := n } : State).flags fun f =>
      { f with az := az, an := an, ac0 := ac0, ac1 := ac1, av0 := av0, av0s := av0s } :=
  ⟨_, _, _, _, _, _, _, rfl⟩

/-- An instruction that writes a data register and AQ, and leaves six flags free. -/
theorem completes_divide {d : DReg} {v : Word} {q : Bool} (e : exec i s = done len (((s.setD d v).setAq q).freeDivFlags)) :
    Completes i s len [.d d] [.aq, .az, .an, .ac0, .ac1, .av0, .av0s] noBytes fun u => u.flag .aq = q ∧ u.d d = v := by
  obtain ⟨n, az, an, ac0, ac1, av0, av0s, hflags⟩ := freeDivFlags_eq ((s.setD d v).setAq q)
  rw [hflags] at e
  have aq : Frame s ((s.setD d v).setAq q) [.d d] [.aq, .az, .an, .ac0, .ac1, .av0, .av0s] noBytes :=
    Frame.flags (frame_setD s d v _) fun f hf => by
      cases f with
      | aq => exact absurd (by simp) hf
      | _ => rfl
  refine ⟨_, e, rfl, Frame.flags (Frame.setFree aq n) fun f hf => ?_, rfl, setD_d_same s d v⟩
  cases f with
  | az | an | ac0 | ac1 | av0 | av0s => exact absurd (by simp) hf
  | _ => rfl

end

end Sys2Proof.Proofs
end

section
/-!
The ALU (41_alu.md): pointer arithmetic, sums, packed sums, accumulator arithmetic, the divide primitives, MAX, MIN, ABS,
rounding, exponents, logic and compares.
-/

namespace Sys2Proof.Proofs

open Machine Laws

/-! ## Exponent detection (R644 to R648) -/

/-- Settles O22: the run of sign bits, its first bit left out, counts the places that `leads` does. -/
theorem exponentDetection : Obligations.ExponentDetection := by
  refine ⟨?word, ?half, ?acc, ?lanes, ?one⟩
  case word => exact fun d r s => completes_signbits (by decide) (by decide) (s.d r) rfl
  case half => exact fun d h r s => completes_signbits (by decide) (by decide) (s.dh r h) rfl
  case acc =>
    intro d a s
    obtain ⟨hpos, hrun, hleads⟩ := leads_signRun (by decide) (s.acc a)
    refine completes_setDh (h := .lo) (v := BitVec.ofInt 16 ((signRun (s.acc a) : Int) - 9)) rfl fun u ⟨hlo, hhi⟩ => ?_
    refine ⟨⟨_, hleads, ?_⟩, hhi⟩
    rw [hlo, BitVec.toInt_ofInt_eq_self (by decide) (by omega) (by omega)]
    omega
  case lanes =>
    intro d v c s
    obtain ⟨-, hrun, hleads⟩ := leads_signRun (by decide) (s.dh v .hi)
    obtain ⟨-, -, hleads'⟩ := leads_signRun (by decide) (s.dh v .lo)
    exact completes_lowNumber (by omega) rfl fun u hu => ⟨_, hleads, _, hleads', hu⟩
  case one =>
    exact fun d v c s => ⟨completes_expadj (by decide) (s.d v) rfl,
      completes_expadj (by decide) (s.dh v .lo) rfl, completes_expadj (by decide) (s.dh v .hi) rfl⟩

/-! ## Pointer arithmetic (R603 to R606, R671 to R673) -/

/-- Settles O16: each form is one write of the pointer register. -/
theorem pointerArithmetic : Obligations.PointerArithmetic := by
  refine ⟨?add, ?addTo, ?subFrom, ?imm, ?sumShl1, ?sumShl2, ?addShl1, ?addShl2, ?shl1, ?shl2, ?shr1, ?shr2⟩
  case add => exact fun d a b s => completes_setP rfl fun u hu => hu
  case addTo => exact fun d r s => completes_setP rfl fun u hu => hu
  case subFrom => exact fun d r s => completes_setP rfl fun u hu => hu
  case imm => exact fun d n s => completes_setP rfl fun u hu => hu
  case sumShl1 => exact fun d r s => completes_setP rfl fun u hu => hu.trans (shl_eq_mul _ 1)
  case sumShl2 => exact fun d r s => completes_setP rfl fun u hu => hu.trans (shl_eq_mul _ 2)
  case addShl1 => exact fun d a b s => completes_setP rfl fun u hu => hu.trans (congrArg (s.p a + ·) (shl_eq_mul _ 1))
  case addShl2 => exact fun d a b s => completes_setP rfl fun u hu => hu.trans (congrArg (s.p a + ·) (shl_eq_mul _ 2))
  case shl1 => exact fun d r s => completes_setP rfl fun u hu => hu.trans (shl_eq_mul _ 1)
  case shl2 => exact fun d r s => completes_setP rfl fun u hu => hu.trans (shl_eq_mul _ 2)
  case shr1 => exact fun d r s => completes_setP rfl fun u hu => hu ▸ Nat.shiftRight_eq_div_pow _ 1
  case shr2 => exact fun d r s => completes_setP rfl fun u hu => hu ▸ Nat.shiftRight_eq_div_pow _ 2

/-! ## Sums of data registers (R607, R608, R610, R611, R670) -/

/-- Settles O17: each form writes one exact sum or difference, truncated or saturated. -/
theorem sums32 : Obligations.Sums32 := by
  refine ⟨?add, ?addOpt, ?sub, ?subOpt, ?imm, ?neg, ?negOpt, ?shift1, ?shift2⟩
  case add => exact fun d a b s => completes_sum rfl
  case addOpt => exact fun sat d a b s => completes_sum rfl
  case sub => exact fun d a b s => completes_sum rfl
  case subOpt => exact fun sat d a b s => completes_sum rfl
  case imm =>
    intro d n s
    rw [← BitVec.toInt_signExtend_of_le (v := 32) (x := n) (by decide)]
    exact completes_sum rfl
  case neg => exact fun d r s => completes_sum rfl
  case negOpt => exact fun sat d r s => completes_sum rfl
  case shift1 => exact fun d r s => completes_sum rfl
  case shift2 => exact fun d r s => completes_sum rfl

/-! ## Packed sums (R609, R612 to R620) -/

/-- Settles O18: each form writes exact sums and differences, truncated or saturated, to two registers, a half or the two
lanes of a register; the first operand of the difference of the accumulators is named by the form. -/
theorem packedSums : Obligations.PackedSums := by
  refine ⟨?addSub, ?accs, ?addHalf, ?subHalf, ?lanes, ?quad⟩
  case addSub =>
    intro sat d e a b s hne
    exact completes_sumPair hne (legal_of (decide_eq_true hne) _)
  case accs =>
    intro first sat d e s hne
    cases first with
    | true | false => exact completes_sumPair hne (legal_of (decide_eq_true hne) _)
  case addHalf => exact fun sat dh d ah bh a b s => completes_halfSum rfl
  case subHalf => exact fun sat dh d ah bh a b s => completes_halfSum rfl
  case lanes =>
    intro sat cross d a b s
    exact ⟨completes_vecSum rfl, completes_vecSum rfl, completes_vecSum rfl, completes_vecSum rfl⟩
  case quad =>
    intro c sat cross d e a b s hne
    exact ⟨completes_quad hne (c := false) (legal_of (decide_eq_true hne) _),
      completes_quad hne (c := false) (legal_of (decide_eq_true hne) _)⟩

/-! ## Accumulators (R621 to R630) -/

/-- Settles O19: each form puts an exact number, saturated, in one accumulator or in both; two of them take a word or a half
out of what A0 then holds. -/
theorem accumulatorArithmetic : Obligations.AccumulatorArithmetic := by
  refine ⟨?add, ?sub, ?addWord, ?addHalf, ?neg, ?abs, ?sat, ?both⟩
  case add => exact fun w32 s => completes_accCarry (a := .a0) (accResult_saturated w32 _ _) rfl
  case sub => exact fun w32 s => completes_accCarry (a := .a0) (accResult_saturated w32 _ _) rfl
  case addWord =>
    intro d s x
    let r := s.accSum false
    obtain ⟨hval, hovf⟩ : Saturated r 40 x := accSum_saturated s
    have e : exec (.dregAccAdd d) s = done 4 (((s.setA0 r).setD d (satS 32 r.val.toInt)).znvFlags
      [(satS 32 r.val.toInt, overS 32 r.val.toInt)]) := rfl
    rw [satS_eq_written, overS_eq_outside, hval] at e
    exact completes_accThenDreg e fun u hacc hd hsigns hv hav hcarry =>
      ⟨hacc ▸ hval, hd, hd ▸ hsigns, hv, hovf ▸ hav, hcarry⟩
  case addHalf =>
    intro h d s x y
    let r := s.accSum false
    obtain ⟨hval, hovf⟩ : Saturated r 40 x := accSum_saturated s
    have e : exec (.dregHalfAccAdd h d) s =
        let z := extract16 s.cur.astat.rndMod .fr r.val.toInt
        done 4 (((s.setA0 r).setD d (withHalf h (s.d d) z.1)).znvFlags [(z.1, z.2)]) := rfl
    rw [hval] at e
    exact completes_accThenDreg e fun u hacc hd hsigns hv hav hcarry =>
      ⟨hacc ▸ hval, halfTook_of_withHalf hd, hsigns, hv, hovf ▸ hav, hcarry⟩
  case neg => exact fun a b s => completes_accCarry (resultOf_saturated (by decide) _ _) rfl
  case abs => exact fun a b s => completes_accResult (absR_saturated (by decide) _) rfl
  case sat => exact fun a s => completes_accResult (satAccR_saturated _) rfl
  case both =>
    intro s both
    have neg (a : AccN) : Saturated (negR true (s.acc a)) 40 (-(s.acc a).toInt) := resultOf_saturated (by decide) _ _
    have abs (a : AccN) : Saturated (absR (s.acc a)) 40 (s.acc a).toInt.natAbs := absR_saturated (by decide) _
    have sat (a : AccN) : Saturated (satAccR (s.acc a)) 32 (s.acc a).toInt := satAccR_saturated _
    exact ⟨completes_setAccsCarry (f := fun a => -(s.acc a).toInt) (neg .a1) (neg .a0) rfl,
      completes_setAccs (f := fun a => (s.acc a).toInt.natAbs) (abs .a1) (abs .a0) rfl,
      completes_setAccs (f := fun a => (s.acc a).toInt) (sat .a1) (sat .a0) rfl⟩

/-! ## Divide primitives (R631, R632) -/

/-- Settles O20: the register shifts left by one place, and the new place takes the quotient bit. -/
theorem dividePrimitives : Obligations.DividePrimitives := by
  refine ⟨?divs, ?divq⟩
  case divs =>
    exact fun d r s => completes_mono (completes_divide rfl) fun u ⟨haq, hd⟩ =>
      ⟨haq, (congrArg BitVec.toNat hd).trans (toNat_shiftIn _ _)⟩
  case divq =>
    exact fun d r s => completes_mono (completes_divide rfl) fun u ⟨haq, hd⟩ =>
      ⟨haq, (congrArg BitVec.toNat hd).trans (toNat_shiftIn_halves _ _ _)⟩

/-! ## MAX, MIN, ABS and rounding (R633 to R643) -/

/-- Settles O21: MAX and MIN take one of their operands, ABS and the roundings an exact number, saturated. -/
theorem maxMinAbsRound : Obligations.MaxMinAbsRound := by
  refine ⟨?max, ?min, ?maxVec, ?minVec, ?abs, ?absVec, ?round⟩
  case max => exact fun d a b s => completes_znResult rfl fun u hu => hu ▸ toInt_maxS _ _
  case min => exact fun d a b s => completes_znResult rfl fun u hu => hu ▸ toInt_minS _ _
  case maxVec =>
    refine fun d a b s => completes_vecZn rfl fun u hhi hlo h => ?_
    cases h with
    | lo => exact hlo ▸ toInt_maxS _ _
    | hi => exact hhi ▸ toInt_maxS _ _
  case minVec =>
    refine fun d a b s => completes_vecZn rfl fun u hhi hlo h => ?_
    cases h with
    | lo => exact hlo ▸ toInt_minS _ _
    | hi => exact hhi ▸ toInt_minS _ _
  case abs =>
    refine fun d r s => completes_mono (completes_znvResult rfl) fun u ⟨hd, hsigns, hv⟩ => ⟨?_, hsigns, ?_⟩
    · exact (congrArg BitVec.toInt hd).trans (absR_saturated (by decide) (s.d r)).1
    · exact absR_ovf (by decide) (s.d r) ▸ hv
  case absVec =>
    refine fun d r s => completes_mono (completes_znvLanes rfl) fun u ⟨⟨hhi, hlo⟩, hsigns, hv⟩ => ?_
    refine ⟨fun h => ?_, hsigns, ?_⟩
    · cases h with
      | lo => exact (congrArg BitVec.toInt hlo).trans (absR_saturated (by decide) (s.dh r .lo)).1
      | hi => exact (congrArg BitVec.toInt hhi).trans (absR_saturated (by decide) (s.dh r .hi)).1
    · rw [Bool.decide_or]
      exact absR_ovf (by decide) (s.dh r .hi) ▸ absR_ovf (by decide) (s.dh r .lo) ▸ hv
  case round =>
    exact fun h d a b s => ⟨completes_roundResult rfl, completes_roundResult rfl, completes_roundResult rfl,
      completes_roundResult rfl, completes_roundResult rfl⟩

/-! ## Logic and bit operations (R649 to R652, R763 to R767) -/

/-- Settles O23: each form writes one word, whose bits the operator gives, or CC. -/
theorem bitwiseLogic : Obligations.BitwiseLogic := by
  refine ⟨?logic, ?bits⟩
  case logic =>
    intro d a b s
    refine ⟨?and, ?or, ?xor, ?not⟩
    case and => exact completes_logicResult rfl fun u hu hsigns => ⟨fun k => hu ▸ BitVec.getLsbD_and, hsigns⟩
    case or => exact completes_logicResult rfl fun u hu hsigns => ⟨fun k => hu ▸ BitVec.getLsbD_or, hsigns⟩
    case xor => exact completes_logicResult rfl fun u hu hsigns => ⟨fun k => hu ▸ BitVec.getLsbD_xor, hsigns⟩
    case not => exact completes_logicResult rfl fun u hu hsigns => ⟨fun k hk => by simp [hu, hk], hsigns⟩
  case bits =>
    intro d n s x
    refine ⟨?clr, ?set, ?tgl, ?tst, ?tstNot⟩
    case clr => exact completes_logicResult rfl fun u hu hsigns => ⟨fun k => hu ▸ getLsbD_bitclr _ n k, hsigns⟩
    case set => exact completes_logicResult rfl fun u hu hsigns => ⟨fun k => hu ▸ getLsbD_bitset _ n k, hsigns⟩
    case tgl => exact completes_logicResult rfl fun u hu hsigns => ⟨fun k => hu ▸ getLsbD_bittgl _ n k, hsigns⟩
    case tst => exact completes_setCc rfl
    case tstNot => exact completes_setCc rfl

/-! ## Compares (R660 to R666) -/

/-- Settles O25: CC takes the answer; the operand is the register, or the immediate as the form extends it. -/
theorem compares : Obligations.Compares := by
  refine ⟨?dreg, ?preg⟩
  case dreg =>
    intro x y s
    cases y with
    | reg _ | imm _ =>
      exact ⟨completes_compare rfl, completes_compare rfl, completes_compare rfl, completes_compare rfl,
        completes_compare rfl⟩
  case preg =>
    intro op x y s
    cases y with
    | reg _ | imm _ => cases op <;> exact completes_setCc rfl

end Sys2Proof.Proofs
end

section
/-!
The arithmetic of the multiplier (42_mac.md R704 to R713): its saturations, products, roundings and extractions.
-/

namespace Sys2Proof.Proofs

open Machine Laws

/-! ## Unsigned saturation (R11) -/

/-- Unsigned saturation is the nearest unsigned number. -/
theorem clampU_eq (w : Nat) (x : Int) : clampU w x = max 0 (min (2 ^ w - 1) x) := by
  have hpos : (0 : Int) < 2 ^ w := by positivity
  rw [clampU, clamp]
  split
  · omega
  · split <;> omega

theorem satU_eq (w : Nat) (x : Int) : satU w x = BitVec.ofInt w (max 0 (min (2 ^ w - 1) x)) := by
  rw [satU, clampU_eq]

/-- An unsigned saturation changes exactly the numbers that are negative or too great. -/
theorem overU_eq (w : Nat) (x : Int) : overU w x = decide (x < 0 ∨ 2 ^ w - 1 < x) := by
  have hpos : (0 : Int) < 2 ^ w := by positivity
  rw [overU, decide_eq_decide, clampU_eq]
  omega

/-! ## Products (R705) -/

/-- The most negative half, of which (W32) multiplies two to the greatest number. -/
theorem eq_minHalf_iff (a : HWord) : a = 0x8000 ↔ a.toInt = -(2 ^ 15) := by
  rw [← BitVec.toInt_inj]
  rfl

theorem product_unsigned {m : MMod} (h : optUnsigned m = true) (a b : HWord) :
    product m false a b = (a.toNat : Int) * b.toNat := by
  simp [product, h]

/-- Without (W32) a signed product is the exact one, shifted left by one place under the options that do so. -/
theorem product_signed {m : MMod} (h : optUnsigned m = false) (hw : m ≠ .w32) (a b : HWord) :
    product m false a b = if optShifts m then 2 * (a.toInt * b.toInt) else a.toInt * b.toInt := by
  simp [product, h, hw]

theorem product_w32 (a b : HWord) :
    product .w32 false a b =
      if a.toInt = -(2 ^ 15) ∧ b.toInt = -(2 ^ 15) then 2 ^ 31 - 1 else 2 * (a.toInt * b.toInt) := by
  simp only [← eq_minHalf_iff]
  simp [product, optUnsigned, optShifts]

/-! ## Roundings (R710, R73) -/

theorem rnd_biased (x : Int) :
    rnd true x / 2 ^ 16 = if x % 2 ^ 16 < 2 ^ 15 then x / 2 ^ 16 else x / 2 ^ 16 + 1 := by
  rw [rnd, Bool.not_true, Bool.false_and, Bool.false_and, if_neg Bool.false_ne_true]
  split <;> omega

/-- Half to even: a remainder of just a half goes up only from an odd number. -/
theorem rnd_unbiased (x : Int) :
    rnd false x / 2 ^ 16 =
      if x % 2 ^ 16 < 2 ^ 15 ∨ (x % 2 ^ 16 = 2 ^ 15 ∧ x / 2 ^ 16 % 2 = 0) then x / 2 ^ 16 else x / 2 ^ 16 + 1 := by
  simp only [rnd, Bool.not_false, Bool.true_and, Bool.and_eq_true, decide_eq_true_eq]
  split <;> split <;> omega

/-! ## Every option (R704 to R706, R712, R713) -/

/-- Settles O26: each clause is a table of the options, read off the definition with the saturations in their closed form. -/
theorem macArithmetic : Obligations.MacArithmetic := by
  refine ⟨?products, ?accumulators, rfl, rfl, rfl, ?rounding, ?extraction, ?scaling⟩
  case products =>
    intro a b
    refine ⟨fun m hm => ?fraction, product_w32 a b, fun m hm => ?integer, fun m hm => ?unsigned, fun _ => rfl⟩
    case fraction =>
      have table : ∀ m ∈ [MMod.fr, .t, .s2rnd], optUnsigned m = false ∧ m ≠ .w32 ∧ optShifts m = true := by decide
      obtain ⟨hsigned, hw, hshifts⟩ := table m hm
      exact (product_signed hsigned hw a b).trans (if_pos hshifts)
    case integer =>
      have table : ∀ m ∈ [MMod.is, .iss2, .ih], optUnsigned m = false ∧ m ≠ .w32 ∧ ¬ optShifts m = true := by decide
      obtain ⟨hsigned, hw, hshifts⟩ := table m hm
      exact (product_signed hsigned hw a b).trans (if_neg hshifts)
    case unsigned =>
      have table : ∀ m ∈ [MMod.fu, .tfu, .iu], optUnsigned m = true := by decide
      exact product_unsigned (table m hm) a b
  case accumulators =>
    intro m x y
    have hread : accInt m true x = x.toInt := by simp [accInt]
    have hclamp : accClamp m true y = nearest 40 y := by simp [accClamp, clampS_eq_nearest]
    refine ⟨hread, hclamp, ?_⟩
    cases m <;> simp [accInt, accClamp, optUnsigned, optExtract, optSigned, clampS_eq_nearest, clampU_eq]
  case rounding => exact fun x => ⟨rnd_biased x, rnd_unbiased x⟩
  case extraction =>
    intro biased x
    simp [extract16, extract32, clampS_eq_nearest, satU_eq, overU_eq, written]
  case scaling => exact fun x => ⟨rfl, rfl, rfl⟩

end Sys2Proof.Proofs
end

section
/-!
Instructions of the multiplier (42_mac.md R706, R712 to R714): what an accumulation, an extraction and the two results of a
dual form write, and for each way in which such an instruction ends, that it completes with just that changed.
-/

namespace Sys2Proof.Proofs

open Machine Laws

section

variable {s t u : State} {i : Instr} {len : Nat} {rs : List AllReg} {fs : List FlagName} {st : Nat → Prop}

/-! ## V and the sticky VS (R714) -/

theorem frame_setV (h : Frame s u rs fs st) (hfs : vNames ⊆ fs) (o : Bool) : Frame s (u.setV o) rs fs st :=
  Frame.flags h fun f hf => by
    cases f with
    | v | vs => exact absurd (hfs (by simp [vNames])) hf
    | _ => rfl

theorem overflows_setV (hvs : u.flag .vs = s.flag .vs) (o : Bool) : overflows s (u.setV o) o :=
  ⟨rfl, congrArg (· || o) hvs⟩

/-! ## What a frame says of an accumulator (R52) -/

theorem acc_ext {x y : Acc} (hx : accX x = accX y) (hw : accW x = accW y) : x = y := by
  have parts (z : Acc) : accX z ++ accW z = z :=
    (BitVec.extractLsb'_append_extractLsb'_eq_extractLsb' (w := 40) rfl).trans BitVec.extractLsb'_eq_self
  rw [← parts x, ← parts y, hx, hw]

/-- An accumulator whose parts are not named keeps its value. -/
theorem acc_eq_of_frame (h : Frame t u rs fs st) {a : AccN} (hx : .ax a ∉ rs) (hw : .aw a ∉ rs) : u.acc a = t.acc a := by
  have hext : (accX (u.acc a)).signExtend 32 = (accX (t.acc a)).signExtend 32 := h.regs (.ax a) hx nofun nofun
  refine acc_ext ?_ (h.regs (.aw a) hw nofun nofun)
  rw [← BitVec.toInt_inj] at hext ⊢
  rwa [BitVec.toInt_signExtend_of_le (by decide), BitVec.toInt_signExtend_of_le (by decide)] at hext

/-- A data register that is not named keeps its value. -/
theorem d_eq_of_frame (h : Frame t u rs fs st) {d : DReg} (hd : .d d ∉ rs) : u.d d = t.d d := h.regs (.d d) hd nofun nofun

/-- What an accumulator has taken stays while neither its parts nor its overflow flags are named. -/
theorem accTook_of_frame {m : MMod} {mm : Bool} {a : AccN} {x : Int} (h : s.accTook t m mm a x) (hu : Frame t u rs fs st)
    (hx : .ax a ∉ rs) (hw : .aw a ∉ rs) (hfs : ∀ f ∈ avNames a, f ∉ fs) : s.accTook u m mm a x := by
  obtain ⟨hval, hovf⟩ := h
  have flag_eq {f : FlagName} (hf : f ∈ avNames a) : u.flag f = t.flag f := hu.flags f (hfs f hf)
  refine ⟨(acc_eq_of_frame hu hx hw).trans hval, ?_⟩
  cases a with
  | a0 | a1 =>
    obtain ⟨hav, hsticky⟩ := hovf
    exact ⟨(flag_eq (by simp [avNames])).trans hav, (flag_eq (by simp [avNames])).trans hsticky⟩

/-! ## One accumulation (R706) -/

section

variable {m : MMod} {mm : Bool} {a : AccN} {op : MacOp} {p : Int}

/-- An accumulation writes the accumulator and its overflow flags. -/
theorem accumulate_eq (s : State) (hop : op ≠ .none) :
    let x := macValue op (accInt m mm (s.acc a)) p
    s.accumulate m mm a op p =
      (s.setAcc a (BitVec.ofInt 40 (accClamp m mm x))).flags fun f => f.setAv a (decide (accClamp m mm x ≠ x)) := by
  cases op with
  | set | add | sub => rfl
  | none => exact absurd rfl hop

theorem accumulate_accTook (s : State) (hop : op ≠ .none) :
    s.accTook (s.accumulate m mm a op p) m mm a (macValue op (accInt m mm (s.acc a)) p) := by
  rw [accumulate_eq s hop]
  cases a <;> exact ⟨rfl, rfl, rfl⟩

/-- AVn and AVnS are written, no other flag (R72). -/
theorem flag_setAv (u : State) (o : Bool) {f : FlagName} (hf : f ∉ avNames a) :
    (u.flags fun g => g.setAv a o).flag f = u.flag f := by
  cases a with
  | a0 =>
    cases f with
    | av0 | av0s => exact absurd (by simp [avNames]) hf
    | _ => rfl
  | a1 =>
    cases f with
    | av1 | av1s => exact absurd (by simp [avNames]) hf
    | _ => rfl

theorem frame_accumulate (h : Frame s t rs fs st) (hrs : op ≠ .none → accParts a ⊆ rs) (hfs : op ≠ .none → avNames a ⊆ fs) :
    Frame s (t.accumulate m mm a op p) rs fs st := by
  by_cases hop : op = .none
  · rw [hop]
    exact h
  have hacc := hrs hop
  have hav := hfs hop
  rw [accumulate_eq t hop]
  exact Frame.flags (Frame.setAcc h (hacc (by simp [accParts])) (hacc (by simp [accParts])) _) fun f hf =>
    flag_setAv _ _ fun hmem => hf (hav hmem)

theorem accumulate_frame (s : State) : Frame s (s.accumulate m mm a op p) (accParts a) (avNames a) noBytes :=
  frame_accumulate (Frame.refl _ _ _ _) (fun _ => List.Subset.refl _) (fun _ => List.Subset.refl _)

@[simp] theorem accumulate_issue (s : State) : (s.accumulate m mm a op p).issue = s.issue := by
  cases op <;> cases a <;> rfl

@[simp] theorem accumulate_rndMod (s : State) :
    (s.accumulate m mm a op p).cur.astat.rndMod = s.cur.astat.rndMod := by
  cases op <;> cases a <;> rfl

@[simp] theorem accumulate_vs (s : State) : (s.accumulate m mm a op p).flag .vs = s.flag .vs := by
  cases op <;> cases a <;> rfl

@[simp] theorem accumulate_d (s : State) (d : DReg) : (s.accumulate m mm a op p).d d = s.d d := by
  cases op <;> cases a <;> rfl

/-- An instruction that accumulates. -/
theorem completes_accumulate (hop : op ≠ .none) (e : exec i s = done len (s.accumulate m mm a op p)) :
    Completes i s len (accParts a) (avNames a) noBytes fun u =>
      s.accTook u m mm a (macValue op (accInt m mm (s.acc a)) p) :=
  ⟨_, e, congrArg Issue.slot (accumulate_issue s), accumulate_frame s, accumulate_accTook s hop⟩

end

/-! ## One half or one word, with V (R712 to R714) -/

theorem frame_resultHalf {o : MMod} {x : Int} {d : DReg} {h : Half} (hf : Frame s t rs fs st) (hrs : .d d ∈ rs)
    (hfs : vNames ⊆ fs) : Frame s (t.resultHalf o x d h) rs fs st :=
  frame_setV (Frame.setDh hf hrs h _) hfs _

/-- The half is extracted as the flags of `s` say, if the state it is written to has kept those flags and the register. -/
theorem resultHalf_extracted {o : MMod} {x : Int} {d : DReg} {h : Half} (hd : t.d d = s.d d)
    (hrnd : t.cur.astat.rndMod = s.cur.astat.rndMod) (hvs : t.flag .vs = s.flag .vs) :
    s.halfExtracted (t.resultHalf o x d h) o x d h := by
  rw [State.halfExtracted, ← hrnd]
  let y := extract16 t.cur.astat.rndMod o x
  have value : (t.resultHalf o x d h).d d = withHalf h (s.d d) y.1 := hd ▸ setD_d_same t d _
  exact ⟨halfTook_of_withHalf value, overflows_setV (u := t.setDh d h y.1) hvs y.2⟩

/-- An instruction that writes one half (R720, R721). -/
theorem completes_resultHalf {o : MMod} {x : Int} {d : DReg} {h : Half} (e : exec i s = done len (s.resultHalf o x d h)) :
    Completes i s len [.d d] vNames noBytes fun u => s.halfExtracted u o x d h :=
  ⟨_, e, rfl, frame_resultHalf (Frame.refl _ _ _ _) (List.mem_singleton.mpr rfl) (List.Subset.refl _),
    resultHalf_extracted rfl rfl rfl⟩

/-- A data register takes a word, and V follows; the counter of free values may go on (log entry 21). -/
theorem resultWord_eq (s : State) (o : MMod) (x : Int) (d : DReg) :
    ∃ n w v, s.resultWord o x d = (({ s with free := n } : State).setD d w).setV v ∧
      ∀ y, extract32 o x = some y → y = (w, v) := by
  obtain ⟨n, w, v, hput, hvalue⟩ := putWord_eq s o x d
  exact ⟨n, w, v, by rw [State.resultWord, hput], hvalue⟩

theorem frame_resultWord {o : MMod} {x : Int} {d : DReg} (hf : Frame s t rs fs st) (hrs : .d d ∈ rs) (hfs : vNames ⊆ fs) :
    Frame s (t.resultWord o x d) rs fs st := by
  obtain ⟨n, w, v, hword, -⟩ := resultWord_eq t o x d
  rw [hword]
  exact frame_setV (Frame.setD (Frame.setFree hf n) hrs w) hfs v

@[simp] theorem resultWord_issue (s : State) (o : MMod) (x : Int) (d : DReg) : (s.resultWord o x d).issue = s.issue := by
  obtain ⟨n, w, v, hword, -⟩ := resultWord_eq s o x d
  rw [hword]
  rfl

theorem resultWord_extracted {o : MMod} {x : Int} {d : DReg} (hvs : t.flag .vs = s.flag .vs) :
    s.wordExtracted (t.resultWord o x d) o x d := by
  obtain ⟨n, w, v, hword, hvalue⟩ := resultWord_eq t o x d
  rw [hword]
  exact ⟨w, v, hvalue, setD_d_same _ d w, overflows_setV (u := ({ t with free := n } : State).setD d w) hvs v⟩

/-- An instruction that writes one word (R722). -/
theorem completes_resultWord {o : MMod} {x : Int} {d : DReg} (e : exec i s = done len (s.resultWord o x d)) :
    Completes i s len [.d d] vNames noBytes fun u => s.wordExtracted u o x d :=
  ⟨_, e, congrArg Issue.slot (resultWord_issue s o x d),
    frame_resultWord (Frame.refl _ _ _ _) (List.mem_singleton.mpr rfl) (List.Subset.refl _), resultWord_extracted rfl⟩

/-! ## An accumulation and what is extracted of it (R727 to R735) -/

theorem notMem_vNames_of_avNames {a : AccN} : ∀ f ∈ avNames a, f ∉ vNames := by
  cases a <;> decide

section

variable {m o : MMod} {mm : Bool} {a : AccN} {op : MacOp} {p : Int} {d : DReg}

/-- An instruction that accumulates, and then writes a data register, V and VS with what it extracts of the new
accumulator. -/
theorem completes_accumulateThen {Q : Int → State → Prop} (hop : op ≠ .none) (e : exec i s = done len u)
    (hslot : u.issue = (s.accumulate m mm a op p).issue)
    (hframe : ∀ {v rs fs}, Frame v (s.accumulate m mm a op p) rs fs noBytes → .d d ∈ rs → vNames ⊆ fs →
      Frame v u rs fs noBytes)
    (hQ : Q (accInt m mm ((s.accumulate m mm a op p).acc a)) u) :
    Completes i s len ([.d d] ++ accParts a) (vNames ++ avNames a) noBytes fun u =>
      s.accTook u m mm a (macValue op (accInt m mm (s.acc a)) p) ∧ Q (accInt m mm (u.acc a)) u := by
  have extraction : Frame (s.accumulate m mm a op p) u [.d d] vNames noBytes :=
    hframe (Frame.refl _ _ _ _) (List.mem_singleton.mpr rfl) (List.Subset.refl _)
  have whole : Frame s u ([.d d] ++ accParts a) (vNames ++ avNames a) noBytes :=
    hframe (frame_accumulate (Frame.refl _ _ _ _) (fun _ => List.subset_append_right _ _)
      (fun _ => List.subset_append_right _ _)) (by simp) (List.subset_append_left _ _)
  have hacc : u.acc a = (s.accumulate m mm a op p).acc a := acc_eq_of_frame extraction (by simp) (by simp)
  refine ⟨u, e, congrArg Issue.slot (hslot.trans (accumulate_issue s)), whole, ?took, hacc ▸ hQ⟩
  case took =>
    exact accTook_of_frame (accumulate_accTook s hop) extraction (by simp) (by simp) notMem_vNames_of_avNames

/-- An accumulation whose result also goes to a half (R727 to R732). -/
theorem completes_macHalf {h : Half} (hop : op ≠ .none)
    (e : exec i s = done len ((s.accumulate m mm a op p).resultHalf o ((s.accumulate m mm a op p).accValue m mm a) d h)) :
    Completes i s len ([.d d] ++ accParts a) (vNames ++ avNames a) noBytes fun u =>
      s.accTook u m mm a (macValue op (accInt m mm (s.acc a)) p) ∧ s.halfExtracted u o (accInt m mm (u.acc a)) d h :=
  completes_accumulateThen (Q := fun x u => s.halfExtracted u o x d h) hop e rfl frame_resultHalf
    (resultHalf_extracted (accumulate_d s d) (accumulate_rndMod s) (accumulate_vs s))

/-- An accumulation whose result also goes to a register of a pair (R733 to R735). -/
theorem completes_macWord (hop : op ≠ .none)
    (e : exec i s = done len ((s.accumulate m mm a op p).resultWord o ((s.accumulate m mm a op p).accValue m mm a) d)) :
    Completes i s len ([.d d] ++ accParts a) (vNames ++ avNames a) noBytes fun u =>
      s.accTook u m mm a (macValue op (accInt m mm (s.acc a)) p) ∧ s.wordExtracted u o (accInt m mm (u.acc a)) d :=
  completes_accumulateThen (Q := fun x u => s.wordExtracted u o x d) hop e (resultWord_issue _ _ _ _) frame_resultWord
    (resultWord_extracted (accumulate_vs s))

end

/-! ## The two results of a dual form (R723, R740) -/

/-- The register of the pair of `d` that takes the word of one unit: MAC1's the odd one, MAC0's the even one. -/
def pairReg (d : DReg) : Half → DReg
  | .lo => d
  | .hi => DReg.pairHi d

/-- What one unit of a dual form does where it writes: the extraction of `x` to half `h` of `d`, or with `pair` to the
register of the pair; and whether it was saturated. -/
def unitPut (s : State) (o : MMod) (pair write : Bool) (x : Int) (d : DReg) (h : Half) : State × Bool :=
  match write, pair with
  | false, _ => (s, false)
  | true, false => ((s.putHalf o x d h).1, (s.putHalf o x d h).2.2)
  | true, true => ((s.putWord o x (pairReg d h)).1, (s.putWord o x (pairReg d h)).2.2)

/-- The data register that one unit writes. -/
def unitDest (pair write : Bool) (d : DReg) (h : Half) : List AllReg :=
  if write then [.d (if pair then pairReg d h else d)] else []

/-- MAC1's result is written first, then MAC0's, then the OR of their overflows. -/
theorem resultDual_eq (s : State) (m : MMod) (mm pair w1 w0 : Bool) (x1 x0 : Int) (d : DReg) :
    s.resultDual m mm pair (if w1 then some x1 else none) (if w0 then some x0 else none) d =
      let r1 := unitPut s (optExtract m mm) pair w1 x1 d .hi
      let r0 := unitPut r1.1 m pair w0 x0 d .lo
      if w1 || w0 then r0.1.setV (r1.2 || r0.2) else r0.1 := by
  cases pair <;> cases w1 <;> cases w0 <;> rfl

section

variable {o m : MMod} {mm pair write w1 w0 : Bool} {x x1 x0 : Int} {d : DReg} {h : Half}

/-- A unit of a dual form writes data registers alone. -/
theorem notMem_unitDest {r : AllReg} (hr : ∀ q, r ≠ .d q) : r ∉ unitDest pair write d h := by
  cases write <;> simp [unitDest, hr]

theorem frame_unitPut (hf : Frame s t rs fs st) (hrs : unitDest pair write d h ⊆ rs) :
    Frame s (unitPut t o pair write x d h).1 rs fs st := by
  cases write with
  | false => exact hf
  | true =>
    have hmem : .d (if pair then pairReg d h else d) ∈ rs := hrs (List.mem_singleton.mpr rfl)
    cases pair with
    | false => exact Frame.setDh hf hmem h _
    | true =>
      obtain ⟨n, w, v, hput, -⟩ := putWord_eq t o x (pairReg d h)
      rw [unitPut, hput]
      exact Frame.setD (Frame.setFree hf n) hmem w

@[simp] theorem unitPut_issue (s : State) : (unitPut s o pair write x d h).1.issue = s.issue := by
  cases write with
  | false => rfl
  | true =>
    cases pair with
    | false => rfl
    | true =>
      obtain ⟨n, w, v, hput, -⟩ := putWord_eq s o x (pairReg d h)
      rw [unitPut, hput]
      rfl

/-- The flags that a unit's extraction reads, and the sticky V, are not its own to write. -/
theorem unitPut_flag (s : State) (f : FlagName) : (unitPut s o pair write x d h).1.flag f = s.flag f :=
  (frame_unitPut (fs := []) (Frame.refl s _ _ noBytes) (List.Subset.refl _)).flags f List.not_mem_nil

theorem dh_setDh_other (s : State) (d : DReg) {h k : Half} (hk : k ≠ h) (v : HWord) :
    (s.setDh d h v).dh d k = s.dh d k := by
  cases h <;> cases k
  case lo.hi => exact dh_hi_setDh_lo s d v
  case hi.lo => exact dh_lo_setDh_hi s d v
  case lo.lo | hi.hi => exact absurd rfl hk

/-- One unit writes its half, the other half stays (R712). -/
theorem unitPut_half (s : State) :
    let y := extract16 s.cur.astat.rndMod o x
    let r := unitPut s o false write x d h
    r.1.dh d h = (if write then y.1 else s.dh d h) ∧ (∀ k, k ≠ h → r.1.dh d k = s.dh d k) ∧ r.2 = (write && y.2) := by
  cases write with
  | false => exact ⟨rfl, fun _ _ => rfl, rfl⟩
  | true =>
    exact ⟨dh_setDh_same s d h _, fun _ hk => dh_setDh_other s d hk _, rfl⟩

/-- One unit writes its register of the pair (R713); word and overflow are free where R713 gives none (log entry 21). -/
theorem unitPut_word (s : State) : ∃ w v, (∀ y, extract32 o x = some y → y = (w, v)) ∧
    (write = true → (unitPut s o true write x d h).1.d (pairReg d h) = w) ∧
      (unitPut s o true write x d h).2 = (write && v) := by
  obtain ⟨n, w, v, hput, hvalue⟩ := putWord_eq s o x (pairReg d h)
  refine ⟨w, v, hvalue, ?_⟩
  cases write with
  | false => exact ⟨nofun, rfl⟩
  | true =>
    rw [unitPut, hput]
    exact ⟨fun _ => setD_d_same _ _ w, rfl⟩

theorem frame_resultDual (hf : Frame s t rs fs st) (h1 : unitDest pair w1 d .hi ⊆ rs) (h0 : unitDest pair w0 d .lo ⊆ rs)
    (hfs : (w1 || w0) = true → vNames ⊆ fs) :
    Frame s (t.resultDual m mm pair (if w1 then some x1 else none) (if w0 then some x0 else none) d) rs fs st := by
  have units := frame_unitPut (o := m) (x := x0) (frame_unitPut (o := optExtract m mm) (x := x1) hf h1) h0
  rw [resultDual_eq]
  cases hw : w1 || w0 with
  | false => exact units
  | true => exact frame_setV units (hfs hw) _

@[simp] theorem resultDual_issue (s : State) :
    (s.resultDual m mm pair (if w1 then some x1 else none) (if w0 then some x0 else none) d).issue = s.issue := by
  rw [resultDual_eq]
  cases w1 || w0 <;> exact (unitPut_issue _).trans (unitPut_issue s)

/-- V of a dual form: the OR of its two results' overflows, where anything is written (R714). -/
theorem resultDual_overflows {v1 v0 : Bool} (hvs : t.flag .vs = s.flag .vs) (hw : (w1 || w0) = true)
    (h1 : (unitPut t (optExtract m mm) pair w1 x1 d .hi).2 = v1)
    (h0 : (unitPut (unitPut t (optExtract m mm) pair w1 x1 d .hi).1 m pair w0 x0 d .lo).2 = v0) :
    overflows s (t.resultDual m mm pair (if w1 then some x1 else none) (if w0 then some x0 else none) d) (v1 || v0) := by
  rw [resultDual_eq, hw, ← h1, ← h0]
  exact overflows_setV ((unitPut_flag _ .vs).trans ((unitPut_flag t .vs).trans hvs)) _

/-- The data registers after a dual form are those of its two units. -/
theorem resultDual_d (s : State) (q : DReg) :
    (s.resultDual m mm pair (if w1 then some x1 else none) (if w0 then some x0 else none) d).d q =
      (unitPut (unitPut s (optExtract m mm) pair w1 x1 d .hi).1 m pair w0 x0 d .lo).1.d q := by
  rw [resultDual_eq]
  cases w1 || w0 <;> rfl

/-- The halves of a dual form, extracted as the flags of `s` say. -/
theorem resultDual_halves (hd : t.d d = s.d d) (hrnd : t.cur.astat.rndMod = s.cur.astat.rndMod)
    (hvs : t.flag .vs = s.flag .vs) :
    let u := t.resultDual m mm false (if w1 then some x1 else none) (if w0 then some x0 else none) d
    let y1 := extract16 s.cur.astat.rndMod (optExtract m mm) x1
    let y0 := extract16 s.cur.astat.rndMod m x0
    u.dh d .hi = (if w1 then y1.1 else s.dh d .hi) ∧ u.dh d .lo = (if w0 then y0.1 else s.dh d .lo) ∧
      ((w1 || w0) = true → overflows s u ((w1 && y1.2) || (w0 && y0.2))) := by
  intro u y1 y0
  let t1 := (unitPut t (optExtract m mm) false w1 x1 d .hi).1
  have hdh (k : Half) : t.dh d k = s.dh d k := congrArg (half k) hd
  have hrnd1 : t1.cur.astat.rndMod = s.cur.astat.rndMod := (unitPut_flag t .rndMod).trans hrnd
  obtain ⟨hhi, hlo, hovf1⟩ := unitPut_half (o := optExtract m mm) (x := x1) (write := w1) (d := d) (h := .hi) t
  obtain ⟨hlo0, hhi0, hovf0⟩ := unitPut_half (o := m) (x := x0) (write := w0) (d := d) (h := .lo) t1
  have hu (k : Half) : u.dh d k = (unitPut t1 m false w0 x0 d .lo).1.dh d k := congrArg (half k) (resultDual_d t d)
  rw [hrnd, hdh] at hhi
  rw [hrnd1, hlo .lo nofun, hdh] at hlo0
  rw [hrnd] at hovf1
  rw [hrnd1] at hovf0
  exact ⟨(hu .hi).trans ((hhi0 .hi nofun).trans hhi), (hu .lo).trans hlo0,
    fun hw => resultDual_overflows hvs hw hovf1 hovf0⟩

/-- The words of a dual form, in the two registers of a pair. -/
theorem resultDual_pair (hvs : t.flag .vs = s.flag .vs) (hd : (w1 || w0) = false ∨ d.even = true) :
    let u := t.resultDual m mm true (if w1 then some x1 else none) (if w0 then some x0 else none) d
    ∃ y1 v1 y0 v0, (∀ y, extract32 (optExtract m mm) x1 = some y → y = (y1, v1)) ∧
      (∀ y, extract32 m x0 = some y → y = (y0, v0)) ∧ (w1 = true → u.d (DReg.pairHi d) = y1) ∧
      (w0 = true → u.d d = y0) ∧ ((w1 || w0) = true → overflows s u ((w1 && v1) || (w0 && v0))) := by
  intro u
  let t1 := (unitPut t (optExtract m mm) true w1 x1 d .hi).1
  obtain ⟨y1, v1, hvalue1, hreg1, hovf1⟩ :=
    unitPut_word (o := optExtract m mm) (x := x1) (write := w1) (d := d) (h := .hi) t
  obtain ⟨y0, v0, hvalue0, hreg0, hovf0⟩ := unitPut_word (o := m) (x := x0) (write := w0) (d := d) (h := .lo) t1
  have odd (hw : w1 = true) : u.d (DReg.pairHi d) = t1.d (DReg.pairHi d) := by
    have hne : d ≠ DReg.pairHi d := ne_pairHi (hd.resolve_left (by simp [hw]))
    have frame : Frame t1 (unitPut t1 m true w0 x0 d .lo).1 [.d d] [] noBytes :=
      frame_unitPut (Frame.refl _ _ _ _) (by cases w0 <;> simp [unitDest, pairReg])
    exact (resultDual_d t _).trans (d_eq_of_frame frame (by simp [hne.symm]))
  exact ⟨y1, v1, y0, v0, hvalue1, hvalue0, fun hw => (odd hw).trans (hreg1 hw),
    fun hw => (resultDual_d t d).trans (hreg0 hw), fun hw => resultDual_overflows hvs hw hovf1 hovf0⟩

end

end

end Sys2Proof.Proofs
end

section
/-!
The multiplier (42_mac.md): multiplications, multiply-accumulate, and the dual forms.
-/

namespace Sys2Proof.Proofs

open Machine Laws

/-! ## Multiplications without an accumulator (R720 to R723, R745) -/

/-- The dual multiplication, both of whose units write (R723). -/
theorem exec_mulDual {m : MMod} {mm pair : Bool} {d : DReg} {h1 h0 : HalfSel} {a b : DReg} {s : State}
    (hd : pair = false ∨ d.even = true) :
    exec (.mulDual m mm pair d h1 h0 a b) s =
      done 4 (s.resultDual m mm pair (if true then some (s.mul m mm (halfSrc h1 a b)) else none)
        (if true then some (s.mul m false (halfSrc h0 a b)) else none) d) :=
  legal_of (by simpa using hd) _

/-- Settles O27: the half or the word is the extraction of the product; a dual form extracts two. -/
theorem multiply : Obligations.Multiply := by
  refine ⟨?lo, ?hi, ?even, ?odd, ?dual, ?word⟩
  case lo => exact fun m d x s => completes_resultHalf rfl
  case hi => exact fun m mm d x s => completes_resultHalf rfl
  case even => exact fun m d x s heven => completes_resultWord (legal_of heven _)
  case odd => exact fun m mm d x s heven => completes_resultWord (legal_of heven _)
  case dual =>
    intro m mm pair d h1 h0 a b s hd x1 x0
    have frame : Frame s (s.resultDual m mm pair (if true then some x1 else none) (if true then some x0 else none) d)
        (dualDest pair d) vNames noBytes :=
      frame_resultDual (Frame.refl _ _ _ _) (by cases pair <;> simp [unitDest, dualDest, pairReg])
        (by cases pair <;> simp [unitDest, dualDest, pairReg]) fun _ => List.Subset.refl _
    refine ⟨_, exec_mulDual hd, congrArg Issue.slot (resultDual_issue s), frame, ?_⟩
    cases pair with
    | false =>
      obtain ⟨hhi, hlo, hv⟩ := resultDual_halves (s := s) (t := s) (m := m) (mm := mm) (w1 := true) (w0 := true) (x1 := x1)
        (x0 := x0) (d := d) rfl rfl rfl
      exact ⟨hhi, hlo, hv rfl⟩
    | true =>
      obtain ⟨w1, v1, w0, v0, hvalue1, hvalue0, hodd, heven, hv⟩ := resultDual_pair (s := s) (t := s) (m := m) (mm := mm)
        (w1 := true) (w0 := true) (x1 := x1) (x0 := x0) rfl (.inr (hd.resolve_left nofun))
      exact ⟨w1, v1, w0, v0, hvalue1, hvalue0, hodd rfl, heven rfl, hv rfl⟩
  case word => exact fun d r s => completes_setD rfl fun u hu => hu ▸ BitVec.toNat_mul _ _

/-! ## Single accumulations (R724 to R735) -/

/-- Settles O28: each form is one accumulation, with an extraction after it in the forms that also write a data register. -/
theorem multiplyAccumulate : Obligations.MultiplyAccumulate := by
  intro m mm d x s p0 p1 v0 v1 lo hi even odd
  refine ⟨?set0, ?add0, ?sub0, ?set1, ?add1, ?sub1, ?setLo, ?addLo, ?subLo, ?setHi, ?addHi, ?subHi, fun heven => ?pair⟩
  case set0 | add0 | sub0 | set1 | add1 | sub1 => exact completes_accumulate nofun rfl
  case setLo | addLo | subLo | setHi | addHi | subHi => exact completes_macHalf nofun rfl
  case pair =>
    refine ⟨?setEven, ?addEven, ?subEven, ?setOdd, ?addOdd, ?subOdd⟩
    case setEven | addEven | subEven | setOdd | addOdd | subOdd => exact completes_macWord nofun (legal_of heven _)

/-! ## The dual accumulation (R740) -/

/-- The dual form whose registers may be named: both accumulations, then both results. -/
theorem exec_macDual {m : MMod} {mm pair : Bool} {u1 u0 : MacUnit} {d a b : DReg} {s : State}
    (hd : pair = false ∨ (u1.write || u0.write) = false ∨ d.even = true) :
    let t := (s.accumulate m mm .a1 u1.op (s.mul m mm (halfSrc u1.sel a b))).accumulate m false .a0 u0.op
      (s.mul m false (halfSrc u0.sel a b))
    exec (.macDual m mm pair u1 u0 d a b) s =
      done 4 (t.resultDual m mm pair (if u1.write then some (t.accValue m mm .a1) else none)
        (if u0.write then some (t.accValue m false .a0) else none) d) := by
  have hlegal : (!pair || d.even || !(u1.write || u0.write)) = true := by
    rcases hd with h | h | h <;> simp [h]
  exact legal_of hlegal _

/-- Two accumulations, one in each accumulator, are the two of the state before them. -/
theorem accTook_both {m : MMod} {mm : Bool} {op1 op0 : MacOp} {p1 p0 : Int} (s : State) :
    let t := (s.accumulate m mm .a1 op1 p1).accumulate m false .a0 op0 p0
    (op1 ≠ .none → s.accTook t m mm .a1 (macValue op1 (accInt m mm (s.acc .a1)) p1)) ∧
      (op0 ≠ .none → s.accTook t m false .a0 (macValue op0 (accInt m false (s.acc .a0)) p0)) := by
  let t1 := s.accumulate m mm .a1 op1 p1
  have frame1 : Frame s t1 (accParts .a1) (avNames .a1) noBytes := accumulate_frame s
  refine ⟨fun h1 => ?first, fun h0 => ?second⟩
  case first =>
    exact accTook_of_frame (accumulate_accTook s h1) (accumulate_frame t1) (by decide) (by decide) (by decide)
  case second =>
    obtain ⟨hval, hav, hsticky⟩ := accumulate_accTook (m := m) (mm := false) (a := .a0) (p := p0) t1 h0
    have hacc : t1.acc .a0 = s.acc .a0 := acc_eq_of_frame frame1 (by decide) (by decide)
    have hflag : t1.flag .av0s = s.flag .av0s := frame1.flags .av0s (by decide)
    rw [hacc] at hval hav hsticky
    exact ⟨hval, hav, hflag ▸ hsticky⟩

/-- The registers that the two units write are those of the dual form. -/
theorem unitDest_subset (pair w1 w0 : Bool) (d : DReg) :
    let dest : List AllReg := if pair then (if w1 then [.d (DReg.pairHi d)] else []) ++ (if w0 then [.d d] else [])
      else if w1 || w0 then [.d d] else []
    unitDest pair w1 d .hi ⊆ dest ∧ unitDest pair w0 d .lo ⊆ dest := by
  cases pair with
  | true => exact ⟨List.subset_append_left _ _, List.subset_append_right _ _⟩
  | false => cases w1 <;> cases w0 <;> simp [unitDest]

/-- Settles O29: the accumulations are those of the state before, and the extractions see the new accumulators, which they
leave as they are; a unit without an operation extracts its old one (log entry 102). -/
theorem dualMac : Obligations.DualMac := by
  intro m mm pair u1 u0 d a b s hd p1 p0
  let t := (s.accumulate m mm .a1 u1.op p1).accumulate m false .a0 u0.op p0
  let u := t.resultDual m mm pair (if u1.write then some (t.accValue m mm .a1) else none)
    (if u0.write then some (t.accValue m false .a0) else none) d
  have hregs : t.d d = s.d d := (accumulate_d _ d).trans (accumulate_d s d)
  have hrnd : t.cur.astat.rndMod = s.cur.astat.rndMod := (accumulate_rndMod _).trans (accumulate_rndMod s)
  have hvs : t.flag .vs = s.flag .vs := (accumulate_vs _).trans (accumulate_vs s)
  have hissue : t.issue = s.issue := (accumulate_issue _).trans (accumulate_issue s)
  have results : Frame t u (unitDest pair u1.write d .hi ++ unitDest pair u0.write d .lo) vNames noBytes :=
    frame_resultDual (Frame.refl _ _ _ _) (List.subset_append_left _ _) (List.subset_append_right _ _)
      fun _ => List.Subset.refl _
  have notDest (r : AllReg) (hr : ∀ q, r ≠ .d q) : r ∉ unitDest pair u1.write d .hi ++ unitDest pair u0.write d .lo :=
    List.not_mem_append (notMem_unitDest hr) (notMem_unitDest hr)
  have acc_eq (c : AccN) : u.acc c = t.acc c := acc_eq_of_frame results (notDest _ nofun) (notDest _ nofun)
  have took_of {c : AccN} {mm : Bool} {x : Int} (h : s.accTook t m mm c x) : s.accTook u m mm c x :=
    accTook_of_frame h results (notDest _ nofun) (notDest _ nofun) notMem_vNames_of_avNames
  obtain ⟨took1, took0⟩ := accTook_both (m := m) (mm := mm) (op1 := u1.op) (op0 := u0.op) (p1 := p1) (p0 := p0) s
  refine ⟨u, exec_macDual hd, congrArg Issue.slot ((resultDual_issue t).trans hissue), ?frame, fun h => took_of (took1 h),
    fun h => took_of (took0 h), ?halves, ?pair⟩
  case frame =>
    obtain ⟨dest1, dest0⟩ := unitDest_subset pair u1.write u0.write d
    refine frame_resultDual (frame_accumulate (frame_accumulate (Frame.refl _ _ _ _) ?acc1 ?av1) ?acc0 ?av0)
      (List.subset_append_of_subset_right _ dest1) (List.subset_append_of_subset_right _ dest0) fun hw => by simp [hw]
    case acc1 | av1 | acc0 | av0 =>
      intro hop
      simp [hop]
  case halves =>
    rintro rfl
    rw [acc_eq, acc_eq]
    exact resultDual_halves hregs hrnd hvs
  case pair =>
    rintro rfl
    rw [acc_eq, acc_eq]
    exact resultDual_pair hvs (hd.resolve_left nofun)

end Sys2Proof.Proofs
end

section
/-!
Shifts, rotations and fields as the shifter sees them (43_shifter_video.md R760 to R762, R768 to R770, R794): the exact value
of a shift, where a rotation puts the places of a ring, and the bits of a field that is put in or taken out.
-/

namespace Sys2Proof.Proofs

open Machine Laws

/-! ## Shifts (R760 to R762) -/

/-- The exact value of a register is written as the register, and lies not outside its width. -/
theorem written_toInt {w : Nat} (sat : Bool) (a : BitVec w) :
    written w sat a.toInt = a ∧ outside w a.toInt = false := by
  have hlow := BitVec.le_toInt a
  have hhigh := BitVec.toInt_lt (x := a)
  have hnearest : nearest w a.toInt = a.toInt := by
    rw [nearest]
    omega
  constructor
  · rw [written, hnearest, ite_self, BitVec.ofInt_toInt]
  · rw [outside, decide_eq_false_iff_not]
    omega

/-- An arithmetic shift to the right divides, towards minus infinity. -/
theorem toInt_sshiftRight_eq_div {w : Nat} (a : BitVec w) (n : Nat) : (a.sshiftRight n).toInt = a.toInt / 2 ^ n := by
  rw [BitVec.toInt_sshiftRight, Int.shiftRight_eq_div_pow, Nat.cast_pow, Nat.cast_ofNat]

theorem toNat_shiftLeft_eq_mul {w : Nat} (a : BitVec w) (n : Nat) : (a <<< n).toNat = a.toNat * 2 ^ n % 2 ^ w := by
  rw [BitVec.toNat_shiftLeft, Nat.shiftLeft_eq]

theorem toNat_ushiftRight_eq_div {w : Nat} (a : BitVec w) (n : Nat) : (a >>> n).toNat = a.toNat / 2 ^ n := by
  rw [BitVec.toNat_ushiftRight, Nat.shiftRight_eq_div_pow]

theorem toNat_shl_one (a : Word) : (a <<< 1).toNat = 2 * a.toNat % 2 ^ 32 := by
  rw [toNat_shiftLeft_eq_mul, pow_one, Nat.mul_comm]

/-- An arithmetic shift writes the exact value; it overflows where that lies outside, which a shift to the right's never
does. -/
theorem shiftA_eq {w : Nat} (sat : Bool) (a : BitVec w) (n : Int) :
    (shiftA sat a n).val = written w sat (shifted a.toInt n) ∧ (shiftA sat a n).ovf = outside w (shifted a.toInt n) := by
  unfold shiftA shifted
  split
  · exact ⟨resultOf_val _ _ _ _, resultOf_ovf _ _ _ _⟩
  · rw [← toInt_sshiftRight_eq_div]
    obtain ⟨hval, hovf⟩ := written_toInt sat (a.sshiftRight (-n).toNat)
    exact ⟨hval.symm, hovf.symm⟩

theorem toNat_shiftL {w : Nat} (a : BitVec w) (n : Int) : (shiftL a n).toNat = shiftedL w a.toNat n := by
  unfold shiftL shiftedL
  split
  · exact toNat_shiftLeft_eq_mul a _
  · exact toNat_ushiftRight_eq_div a _

theorem shiftL_eq_ofNat {w : Nat} (a : BitVec w) (n : Int) : shiftL a n = BitVec.ofNat w (shiftedL w a.toNat n) := by
  rw [← toNat_shiftL, BitVec.ofNat_toNat, BitVec.setWidth_eq]

/-- A count of 32 or more shifts every bit of a word out (R761, R786, R787). -/
theorem toNat_lsrDreg (a : Word) (n : Nat) :
    (if 32 ≤ n then 0 else a >>> n).toNat = a.toNat / 2 ^ min n 32 := by
  split
  · rw [Nat.min_eq_right ‹_›, Nat.div_eq_of_lt a.isLt]
    rfl
  · rw [Nat.min_eq_left (by omega), toNat_ushiftRight_eq_div]

theorem toNat_lslDreg (a : Word) (n : Nat) :
    (if 32 ≤ n then 0 else a <<< n).toNat = a.toNat * 2 ^ min n 32 % 2 ^ 32 := by
  split
  · rw [Nat.min_eq_right ‹_›, Nat.mul_mod_left]
    rfl
  · rw [Nat.min_eq_left (by omega), toNat_shiftLeft_eq_mul]

/-! ## Rotations (R794) -/

/-- A rotation to the left by `n` takes place `k` to place `k + n` of the ring. -/
theorem getLsbD_rotateLeft_add {w k : Nat} (x : BitVec w) (n : Nat) (hk : k < w) :
    (x.rotateLeft n).getLsbD ((k + n) % w) = x.getLsbD k := by
  have hn : n % w < w := Nat.mod_lt _ (by omega)
  rw [BitVec.getLsbD_rotateLeft, Nat.add_mod_eq_ite, Nat.mod_eq_of_lt hk]
  generalize n % w = r at hn
  split
  · have hlow : k + r - w < r := by omega
    have hplace : w - r + (k + r - w) = k := by omega
    simp [hlow, hplace]
  · have hhigh : ¬ k + r < r := by omega
    have hin : k + r < w := by omega
    simp [hhigh, hin]

/-- To the right is to the left by what is left of the ring. -/
theorem rotateRight_eq_rotateLeft {w : Nat} (hw : 0 < w) (x : BitVec w) (n : Nat) :
    x.rotateRight n = x.rotateLeft (w - n % w) := by
  have hn : n % w < w := Nat.mod_lt _ hw
  refine BitVec.eq_of_getLsbD_eq fun i hi => ?_
  rw [BitVec.getLsbD_rotateRight, BitVec.getLsbD_rotateLeft]
  generalize n % w = r at hn
  rcases Nat.eq_zero_or_pos r with rfl | hr
  · simp [hi]
  · have hplace : w - (w - r) = r := by omega
    rw [Nat.mod_eq_of_lt (by omega), hplace]

/-- A ring turned by a signed count: place `k` goes to place `k + n`. -/
theorem getLsbD_turn {w k : Nat} (x : BitVec w) (n : Int) (hk : k < w) :
    (if 0 ≤ n then x.rotateLeft n.toNat else x.rotateRight (-n).toNat).getLsbD (((k : Int) + n) % w).toNat =
      x.getLsbD k := by
  split
  · have hplace : (((k : Int) + n) % w).toNat = (k + n.toNat) % w := by
      rw [Int.toNat_emod (by omega) (by omega)]
      congr 1
      omega
    rw [hplace, getLsbD_rotateLeft_add x _ hk]
  · have hplace : (((k : Int) + n) % w).toNat = (k + (w - (-n).toNat % w)) % w := by
      have hm := Nat.div_add_mod (-n).toNat w
      have hlt := Nat.mod_lt (-n).toNat (show w > 0 by omega)
      zify at hm
      have hshift : (k : Int) + n = ((k + (w - (-n).toNat % w) : Nat) : Int) + w * (-((-n).toNat / w : Nat) - 1) := by
        push_cast [hlt.le]
        have hneg : ((-n).toNat : Int) = -n := by omega
        rw [hneg] at hm ⊢
        linarith
      rw [hshift, Int.add_mul_emod_self_left, ← Int.natCast_emod, Int.toNat_natCast]
    rw [hplace, rotateRight_eq_rotateLeft (by omega), getLsbD_rotateLeft_add x _ hk]

/-- The ring of a value and CC is one number with CC on top. -/
theorem ringBit_eq {w k : Nat} (cc : Bool) (a : BitVec w) (hk : k < w + 1) :
    ringBit cc a k = (BitVec.cons cc a).getLsbD k := by
  rw [ringBit, BitVec.getLsbD_cons]
  rcases Nat.lt_or_eq_of_le (Nat.le_of_lt_succ hk) with hlt | rfl
  · rw [if_pos hlt, if_neg hlt.ne]
  · rw [if_neg (Nat.lt_irrefl k), if_pos rfl]

/-- A number taken apart into a value and CC. -/
theorem ringBit_parts {w k : Nat} (r : BitVec (w + 1)) (hk : k < w + 1) :
    ringBit r.msb (r.extractLsb' 0 w) k = r.getLsbD k := by
  rw [ringBit, BitVec.getLsbD_extractLsb', BitVec.msb_eq_getLsbD_last]
  split
  · simp [*]
  · have hlast : k = w := by omega
    rw [hlast, Nat.add_sub_cancel]

/-- The value and the new CC of a rotation: each place of the ring has gone on by the count (R794, R795). -/
theorem ringBit_rotateCc {w k : Nat} (cc : Bool) (a : BitVec w) (n : Int) (hk : k < w + 1) :
    ringBit (rotateCc cc a n).2 (rotateCc cc a n).1 (((k : Int) + n) % (w + 1 : Nat)).toNat = ringBit cc a k := by
  have hin : (((k : Int) + n) % (w + 1 : Nat)).toNat < w + 1 := by
    have := Int.emod_lt_of_pos ((k : Int) + n) (show (0 : Int) < (w + 1 : Nat) by omega)
    omega
  rw [ringBit_eq cc a hk, ← getLsbD_turn _ n hk]
  exact ringBit_parts _ hin

/-! ## Fields (R768, R769) -/

theorem getLsbD_fieldMask {len : Nat} (hlen : len ≤ 32) (k : Nat) : (fieldMask len).getLsbD k = decide (k < len) := by
  rw [fieldMask, BitVec.getLsbD_ofNat, Nat.testBit_two_pow_sub_one, ← Bool.decide_and]
  exact decide_eq_decide.mpr (by omega)

theorem fieldLen_lt (p : Word) : fieldLen p < 32 := (p.extractLsb' 0 5).isLt

/-- The bits of a deposit: the background, and in the field's place the low bits of the pattern's high half. -/
theorem getLsbD_depositValue_none (bg fg : Word) {k : Nat} (hk : k < 32) :
    (depositValue bg fg none).getLsbD k =
      if k < fieldPos fg then bg.getLsbD k
      else if k < fieldPos fg + fieldLen fg then fg.getLsbD (16 + (k - fieldPos fg))
      else bg.getLsbD k := by
  simp only [depositValue, BitVec.getLsbD_or, BitVec.getLsbD_and, BitVec.getLsbD_not, BitVec.getLsbD_shiftLeft,
    BitVec.getLsbD_ushiftRight, getLsbD_fieldMask (fieldLen_lt fg).le, hk]
  split
  · simp [*]
  · split
    · have hin : k - fieldPos fg < fieldLen fg := by omega
      simp [*]
    · have hout : ¬ k - fieldPos fg < fieldLen fg := by omega
      simp [*]

/-- With (X) every bit above the field is the one that fills. -/
theorem getLsbD_depositValue_some (bg fg : Word) (b : Bool) {k : Nat} (hk : k < 32) :
    (depositValue bg fg (some b)).getLsbD k =
      if k < fieldPos fg + fieldLen fg then (depositValue bg fg none).getLsbD k else b := by
  have hlow : (fieldMask (min 32 (fieldPos fg + fieldLen fg))).getLsbD k = decide (k < fieldPos fg + fieldLen fg) := by
    rw [getLsbD_fieldMask (Nat.min_le_left _ _)]
    exact decide_eq_decide.mpr (by omega)
  have hfill : (if b then ~~~ fieldMask (min 32 (fieldPos fg + fieldLen fg)) else 0).getLsbD k =
      (b && !decide (k < fieldPos fg + fieldLen fg)) := by
    cases b with
    | false => simp
    | true => rw [if_pos rfl, BitVec.getLsbD_not, hlow, decide_eq_true hk]
  have hvalue : depositValue bg fg (some b) =
      (depositValue bg fg none &&& fieldMask (min 32 (fieldPos fg + fieldLen fg))) |||
        (if b then ~~~ fieldMask (min 32 (fieldPos fg + fieldLen fg)) else 0) := rfl
  rw [hvalue, BitVec.getLsbD_or, BitVec.getLsbD_and, hfill, hlow]
  split <;> simp [*]

/-- The bits of a deposit without (X) and with it (R768). -/
theorem getLsbD_depositValue (x : Bool) (bg fg : Word) (top : Bool) {k : Nat} (hk : k < 32) :
    (depositValue bg fg (if x then some top else none)).getLsbD k =
      if k < fieldPos fg then bg.getLsbD k
      else if k < fieldPos fg + fieldLen fg then fg.getLsbD (16 + (k - fieldPos fg))
      else if x then top else bg.getLsbD k := by
  cases x with
  | false => exact getLsbD_depositValue_none bg fg hk
  | true =>
    rw [if_pos rfl, getLsbD_depositValue_some bg fg top hk, getLsbD_depositValue_none bg fg hk]
    by_cases hbelow : k < fieldPos fg
    · have hin : k < fieldPos fg + fieldLen fg := by omega
      simp only [hbelow, hin, if_true]
    · by_cases hin : k < fieldPos fg + fieldLen fg <;> simp only [hbelow, hin, if_true, if_false]

/-- The bits of an extraction: the field, and above it zeros, or with (X) its top bit, if it has one. -/
theorem getLsbD_extractValue (x : Bool) (scene pat : Word) {k : Nat} (hk : k < 32) :
    (extractValue x scene pat).getLsbD k =
      if k < fieldLen pat then scene.getLsbD (fieldPos pat + k)
      else x && decide (0 < fieldLen pat) && scene.getLsbD (fieldPos pat + fieldLen pat - 1) := by
  have hmask := getLsbD_fieldMask (fieldLen_lt pat).le
  have hfield (j : Nat) : ((scene >>> fieldPos pat) &&& fieldMask (fieldLen pat)).getLsbD j =
      (scene.getLsbD (fieldPos pat + j) && decide (j < fieldLen pat)) := by
    rw [BitVec.getLsbD_and, BitVec.getLsbD_ushiftRight, hmask]
  rw [extractValue]
  rcases Nat.eq_zero_or_pos (fieldLen pat) with hzero | hpos
  · rw [if_neg (by simp [hzero]), hfield]
    simp [hzero]
  · have htop : fieldPos pat + (fieldLen pat - 1) = fieldPos pat + fieldLen pat - 1 := by omega
    have hlast : fieldLen pat - 1 < fieldLen pat := by omega
    simp only [hfield, htop, hlast, hpos, decide_true, Bool.and_true]
    split
    · rw [BitVec.getLsbD_or, BitVec.getLsbD_not, hfield, hmask]
      split <;> simp [*]
    · rw [hfield]
      split <;> simp [*]

/-! ## BITMUX (R770) -/

/-- A0 shifted to the right, its two upper places taken by the low bits of the two registers. -/
theorem toNat_bitmuxRight (acc : Acc) (x y : Word) :
    BitVec.toNat (w := 40) (BitVec.ofBool (y.getLsbD 0) ++ BitVec.ofBool (x.getLsbD 0) ++ acc.extractLsb' 2 38) =
      acc.toNat / 4 + x.toNat % 2 * 2 ^ 38 + y.toNat % 2 * 2 ^ 39 := by
  have hacc := acc.isLt
  have hlow (a : Word) : (BitVec.ofBool (a.getLsbD 0)).toNat = a.toNat % 2 := by
    rw [BitVec.toNat_ofBool, BitVec.getLsbD, Nat.testBit_zero]
    rcases Nat.mod_two_eq_zero_or_one a.toNat with hbit | hbit <;> rw [hbit] <;> rfl
  rw [toNat_append (m := 2) (k := 38), toNat_append (m := 1) (k := 1), hlow, hlow, BitVec.extractLsb'_toNat,
    Nat.shiftRight_eq_div_pow]
  omega

/-- A0 shifted to the left, its two lower places taken by the top bits of the two registers. -/
theorem toNat_bitmuxLeft (acc : Acc) (x y : Word) :
    BitVec.toNat (w := 40) (acc.extractLsb' 0 38 ++ BitVec.ofBool y.msb ++ BitVec.ofBool x.msb) =
      4 * acc.toNat % 2 ^ 40 + x.toNat / 2 ^ 31 + y.toNat / 2 ^ 31 * 2 := by
  have htop (a : Word) : (BitVec.ofBool a.msb).toNat = a.toNat / 2 ^ 31 := by
    have ha := a.isLt
    rw [BitVec.toNat_ofBool, BitVec.msb_eq_decide]
    rcases Nat.lt_or_ge a.toNat (2 ^ (32 - 1)) with hpos | hneg
    · rw [decide_eq_false (by omega), Bool.toNat_false]
      omega
    · rw [decide_eq_true hneg, Bool.toNat_true]
      omega
  rw [toNat_append (m := 39) (k := 1), toNat_append (m := 38) (k := 1), htop, htop, BitVec.extractLsb'_toNat]
  omega

end Sys2Proof.Proofs
end

section
/-!
Instructions of the shifter (43_shifter_video.md): for each way in which such an instruction ends, that it completes with
just its registers and flags changed, and what they then hold.
-/

namespace Sys2Proof.Proofs

open Machine Laws

section

variable {s : State} {i : Instr} {len : Nat} {P : State → Prop}

/-! ## Shifts of data registers (R762) -/

/-- An immediate count in its range. -/
theorem immCount_of {w : Nat} {n : BitVec 6} (h : n.toInt.natAbs < w) (k : Outcome) : immCount w n k = k :=
  if_pos (decide_eq_true h)

/-- An arithmetic shift of a word. -/
theorem completes_shiftA {d : DReg} {sat : Bool} {a : Word} {n : Int}
    (e : exec i s = done len (s.shiftResultV d (shiftA sat a n))) :
    Completes i s len [.d d] znvNames noBytes fun u =>
      u.d d = written 32 sat (shifted a.toInt n) ∧ u.signs (u.d d) ∧ overflows s u (outside 32 (shifted a.toInt n)) := by
  obtain ⟨hval, hovf⟩ := shiftA_eq sat a n
  rw [← hval, ← hovf]
  exact completes_znvResult e

/-- A logical shift of a word. -/
theorem completes_shiftL {d : DReg} {a : Word} {n : Int} (e : exec i s = done len (s.shiftResult d (shiftL a n))) :
    Completes i s len [.d d] [.az, .an, .v] noBytes fun u =>
      (u.d d).toNat = shiftedL 32 a.toNat n ∧ u.signs (u.d d) ∧ u.flag .v = false :=
  completes_znResult e fun _ hu => hu ▸ toNat_shiftL a n

/-! ## Shifts of both halves (R779 to R781) -/

/-- Arithmetic shifts of the two halves of a register. -/
theorem completes_shiftVecA {d v : DReg} {sat : Bool} {n : Int}
    (e : exec i s = done len (s.shiftVecV d (shiftA sat (s.dh v .hi) n) (shiftA sat (s.dh v .lo) n))) :
    Completes i s len [.d d] znvNames noBytes fun u =>
      (∀ h, u.dh d h = written 16 sat (shifted (s.dh v h).toInt n)) ∧ u.signs2 (u.dh d .hi) (u.dh d .lo) ∧
        overflows s u (outside 16 (shifted (s.dh v .hi).toInt n) || outside 16 (shifted (s.dh v .lo).toInt n)) := by
  have value (h : Half) := shiftA_eq sat (s.dh v h) n
  refine completes_mono (completes_znvLanes e) fun u ⟨⟨hhi, hlo⟩, hsigns, hv⟩ => ⟨fun h => ?_, hsigns, ?_⟩
  · cases h with
    | lo => exact hlo.trans (value .lo).1
    | hi => exact hhi.trans (value .hi).1
  · rw [← (value .hi).2, ← (value .lo).2]
    exact hv

/-- Logical shifts of the two halves of a register. -/
theorem completes_shiftVecL {d v : DReg} {n : Int}
    (e : exec i s = done len (s.shiftVec d (shiftL (s.dh v .hi) n) (shiftL (s.dh v .lo) n))) :
    Completes i s len [.d d] [.az, .an, .v] noBytes fun u =>
      (∀ h, (u.dh d h).toNat = shiftedL 16 (s.dh v h).toNat n) ∧ u.signs2 (u.dh d .hi) (u.dh d .lo) ∧
        u.flag .v = false :=
  completes_vecZn e fun u hhi hlo h => by
    cases h with
    | lo => exact hlo ▸ toNat_shiftL _ n
    | hi => exact hhi ▸ toNat_shiftL _ n

/-! ## Shifts of one half (R782 to R784) -/

/-- An arithmetic shift into a half of a register. -/
theorem completes_shiftHalfA {d : DReg} {h : Half} {sat : Bool} {a : HWord} {n : Int}
    (e : exec i s = done len (s.shiftHalfV d h (shiftA sat a n))) :
    Completes i s len [.d d] znvNames noBytes fun u =>
      s.halfTook u d h (written 16 sat (shifted a.toInt n)) ∧ u.signs (written 16 sat (shifted a.toInt n)) ∧
        overflows s u (outside 16 (shifted a.toInt n)) := by
  obtain ⟨hval, hovf⟩ := shiftA_eq sat a n
  rw [State.shiftHalfV, hval, hovf] at e
  obtain ⟨hsigns, hv⟩ := znvFlags_one (s := s) (u := s.setDh d h _) rfl (written 16 sat (shifted a.toInt n))
    (outside 16 (shifted a.toInt n))
  have took := setDh_halfTook s d h (written 16 sat (shifted a.toInt n))
  exact ⟨_, e, rfl, frame_znvFlags (frame_setD s d _ _) (List.Subset.refl _) _, took, hsigns, hv⟩

/-- A logical shift into a half of a register. -/
theorem completes_shiftHalfL {d : DReg} {h : Half} {a : HWord} {n : Int}
    (e : exec i s = done len (s.shiftHalf d h (shiftL a n))) :
    Completes i s len [.d d] [.az, .an, .v] noBytes fun u =>
      s.halfTook u d h (BitVec.ofNat 16 (shiftedL 16 a.toNat n)) ∧ u.signs (BitVec.ofNat 16 (shiftedL 16 a.toNat n)) ∧
        u.flag .v = false := by
  rw [State.shiftHalf, shiftL_eq_ofNat] at e
  have took := setDh_halfTook s d h (BitVec.ofNat 16 (shiftedL 16 a.toNat n))
  exact ⟨_, e, rfl, frame_znFlags (frame_setD s d _ _) (List.Subset.refl _) _, took,
    ⟨Bool.or_false _, Bool.or_false _⟩, rfl⟩

/-! ## Shifts of accumulators (R796 to R799) -/

/-- An instruction that writes an accumulator with AZ, AN and its overflow flag. -/
theorem completes_accShift {a : AccN} {r : Result 40} (e : exec i s = done len (s.accShift a r)) :
    Completes i s len (accParts a) ([.az, .an] ++ avNames a) noBytes fun u =>
      u.acc a = r.val ∧ u.signs (u.acc a) ∧ accOverflows s u a r.ovf := by
  have frame : Frame s (s.setAcc a r.val) (accParts a) ([.az, .an] ++ avNames a) noBytes :=
    Frame.setAcc (Frame.refl _ _ _ _) (by simp [accParts]) (by simp [accParts]) _
  exact ⟨_, e, congrArg Issue.slot (setAcc_issue s a _), frame_accFlags frame (List.Subset.refl _) r,
    by cases a <;> exact ⟨rfl, ⟨rfl, rfl⟩, rfl, rfl⟩⟩

/-- An arithmetic shift of an accumulator. -/
theorem completes_accShiftA {a : AccN} {n : Int} (e : exec i s = done len (s.accShift a (shiftA false (s.acc a) n))) :
    Completes i s len (accParts a) ([.az, .an] ++ avNames a) noBytes fun u =>
      u.acc a = written 40 false (shifted (s.acc a).toInt n) ∧ u.signs (u.acc a) ∧
        accOverflows s u a (outside 40 (shifted (s.acc a).toInt n)) := by
  obtain ⟨hval, hovf⟩ := shiftA_eq false (s.acc a) n
  rw [← hval, ← hovf]
  exact completes_accShift e

/-! ## Rotations (R794, R795) -/

/-- A rotation of a data register with CC. -/
theorem completes_rot {d : DReg} {v : Word} {n : Int} (e : exec i s = done len (s.rotResult d v n)) :
    Completes i s len [.d d] [.cc] noBytes fun u => ∀ k : Nat, k < 33 →
      ringBit (u.flag .cc) (u.d d) (((k : Int) + n) % 33).toNat = ringBit (s.flag .cc) v k := by
  have value : (s.rotResult d v n).d d = (rotateCc s.cc v n).1 := setD_d_same s d _
  refine ⟨_, e, rfl, Frame.setCc (frame_setD s d _ _) (List.mem_singleton.mpr rfl) _, fun k hk => ?_⟩
  rw [value]
  exact ringBit_rotateCc s.cc v n hk

/-- A rotation of an accumulator with CC. -/
theorem completes_rotAcc {a : AccN} {n : Int} (e : exec i s = done len (s.rotAccResult a n)) :
    Completes i s len (accParts a) [.cc] noBytes fun u => ∀ k : Nat, k < 41 →
      ringBit (u.flag .cc) (u.acc a) (((k : Int) + n) % 41).toNat = ringBit (s.flag .cc) (s.acc a) k := by
  have frame (v : Acc) : Frame s (s.setAcc a v) (accParts a) [.cc] noBytes :=
    Frame.setAcc (Frame.refl _ _ _ _) (by simp [accParts]) (by simp [accParts]) v
  have value : (s.rotAccResult a n).acc a = (rotateCc s.cc (s.acc a) n).1 := (acc_setAcc s a a _).trans (if_pos rfl)
  refine ⟨_, e, congrArg Issue.slot (setAcc_issue s a _), Frame.setCc (frame _) (List.mem_singleton.mpr rfl) _,
    fun k hk => ?_⟩
  rw [value]
  exact ringBit_rotateCc s.cc (s.acc a) n hk

/-! ## DEPOSIT (R768) -/

/-- DEPOSIT writes the field in its background; with (X) the bits above take the field's top bit, or, of a field that has
none, a free bit, which is counted (log entry 22). -/
theorem exec_deposit (x : Bool) (d b f : DReg) (s : State) : ∃ n top,
    exec (.deposit x d b f) s = done 4 (({ s with free := n } : State).logicResult d
      (depositValue (s.d b) (s.d f) (if x then some top else none))) ∧
    (0 < fieldLen (s.d f) → top = (s.d f).getLsbD (15 + fieldLen (s.d f))) := by
  have top_eq (hpos : 0 < fieldLen (s.d f)) :
      ((s.d f >>> 16) &&& fieldMask (fieldLen (s.d f))).getLsbD (fieldLen (s.d f) - 1) =
        (s.d f).getLsbD (15 + fieldLen (s.d f)) := by
    have hlast : fieldLen (s.d f) - 1 < fieldLen (s.d f) := by omega
    have hplace : 16 + (fieldLen (s.d f) - 1) = 15 + fieldLen (s.d f) := by omega
    rw [BitVec.getLsbD_and, BitVec.getLsbD_ushiftRight, getLsbD_fieldMask (fieldLen_lt _).le, decide_eq_true hlast,
      Bool.and_true, hplace]
  change ∃ n top, execDeposit x d b f s = _ ∧ _
  unfold execDeposit
  cases x with
  | false => exact ⟨s.free, _, rfl, top_eq⟩
  | true =>
    by_cases hzero : fieldLen (s.d f) = 0
    · exact ⟨_, _, if_pos hzero, fun hpos => absurd hzero hpos.ne'⟩
    · exact ⟨s.free, _, if_neg hzero, top_eq⟩

/-- An instruction that writes a data register and the row that clears AC0, AC1 and V, and may take free values. -/
theorem completes_logicResult_free {n : Nat} {d : DReg} {v : Word}
    (e : exec i s = done len (({ s with free := n } : State).logicResult d v))
    (hP : ∀ u, u.d d = v → u.logicSigns (u.d d) → P u) : Completes i s len [.d d] logicNames noBytes P := by
  let t : State := { s with free := n }
  have value : (t.logicResult d v).d d = v := setD_d_same t d v
  have frame : Frame s (t.setD d v) [.d d] logicNames noBytes :=
    Frame.setD (Frame.setFree (Frame.refl _ _ _ _) n) (List.mem_singleton.mpr rfl) v
  refine ⟨_, e, rfl, frame_logicFlags frame (List.Subset.refl _) v, hP _ value ?signs⟩
  case signs =>
    rw [value]
    exact ⟨⟨rfl, rfl⟩, rfl, rfl, rfl⟩

/-! ## BITMUX (R770) -/

/-- An instruction that writes two data registers and A0. -/
theorem completes_bitmux {a b : DReg} (hne : a ≠ b) {x y : Word} {v : Acc}
    (e : exec i s = done len (((s.setAcc .a0 v).setD a x).setD b y)) :
    Completes i s len ([.d a, .d b] ++ accParts .a0) [] noBytes fun u => u.d a = x ∧ u.d b = y ∧ u.acc .a0 = v := by
  obtain ⟨ha, hb⟩ := setD_setD_reads (s.setAcc .a0 v) hne x y
  have frame : Frame s (s.setAcc .a0 v) ([.d a, .d b] ++ accParts .a0) [] noBytes :=
    Frame.setAcc (Frame.refl _ _ _ _) (by simp [accParts]) (by simp [accParts]) v
  exact ⟨_, e, rfl, Frame.setD (Frame.setD frame (by simp) x) (by simp) y, ha, hb, rfl⟩

end

end Sys2Proof.Proofs
end

section
/-!
The shifter (43_shifter_video.md): fields, packing, shifts and rotations.
-/

namespace Sys2Proof.Proofs

open Machine Laws

/-! ## Shifts of data registers by an immediate (R773 to R784) -/

/-- Settles O30: a count in its range is a shift; what it writes is the exact value, truncated or saturated. -/
theorem shiftsImmediate : Obligations.ShiftsImmediate := by
  refine ⟨?inPlace, ?word, ?vec, ?half⟩
  case inPlace =>
    intro d n s
    exact ⟨completes_znResult rfl fun _ hu => hu ▸ toInt_sshiftRight_eq_div _ _,
      completes_znResult rfl fun _ hu => hu ▸ toNat_ushiftRight_eq_div _ _,
      completes_znResult rfl fun _ hu => hu ▸ toNat_shiftLeft_eq_mul _ _⟩
  case word =>
    intro d r n s h
    exact ⟨completes_shiftA (immCount_of h _), completes_shiftA (immCount_of h _),
      completes_shiftA (immCount_of h _), completes_shiftL (immCount_of h _)⟩
  case vec =>
    intro d r n s h
    exact ⟨completes_shiftVecA (immCount_of h _), completes_shiftVecA (immCount_of h _),
      completes_shiftVecA (immCount_of h _), completes_shiftVecL (immCount_of h _)⟩
  case half =>
    intro dh d rh r n s h
    exact ⟨completes_shiftHalfA (immCount_of h _), completes_shiftHalfA (immCount_of h _),
      completes_shiftHalfA (immCount_of h _), completes_shiftHalfL (immCount_of h _)⟩

/-! ## Shifts of data registers by a register (R785 to R793) -/

/-- Settles O31: the forms in place shift by as many places as there are; the others as the immediate forms do. -/
theorem shiftsRegister : Obligations.ShiftsRegister := by
  refine ⟨?inPlace, ?whole, ?half⟩
  case inPlace =>
    intro d r s
    exact ⟨completes_znResult rfl fun _ hu => hu ▸ toInt_sshiftRight_eq_div _ _,
      completes_znResult rfl fun _ hu => hu ▸ toNat_lsrDreg _ _,
      completes_znResult rfl fun _ hu => hu ▸ toNat_lslDreg _ _⟩
  case whole =>
    intro d v c s
    exact ⟨completes_shiftA rfl, completes_shiftA rfl, completes_shiftL rfl,
      completes_shiftVecA rfl, completes_shiftVecA rfl, completes_shiftVecL rfl⟩
  case half =>
    intro dh d vh v c s
    exact ⟨completes_shiftHalfA rfl, completes_shiftHalfA rfl, completes_shiftHalfL rfl⟩

/-! ## Rotations, and shifts of accumulators (R794 to R799) -/

/-- Settles O32: each rotation turns the ring by its count, each shift writes the exact value's low bits. -/
theorem rotatesAccumulatorShifts : Obligations.RotatesAccumulatorShifts := by
  refine ⟨?rotImm, ?rotDreg, ?rotAccImm, ?rotAcc, ?shiftImm, ?shift⟩
  case rotImm => exact fun d r n s => completes_rot rfl
  case rotDreg =>
    intro d r c s
    exact completes_rot rfl
  case rotAccImm => exact fun a n s => completes_rotAcc rfl
  case rotAcc =>
    intro a c s
    exact completes_rotAcc rfl
  case shiftImm =>
    intro a n s h
    refine ⟨completes_accShiftA (immCount_of h _), completes_accShiftA (immCount_of h _), ?_⟩
    exact completes_mono (completes_accShift (immCount_of h _)) fun u ⟨hval, hsigns, hav⟩ =>
      ⟨(congrArg BitVec.toNat hval).trans (toNat_shiftL _ _), hsigns, hav⟩
  case shift =>
    intro a c s
    exact completes_accShiftA rfl

/-! ## Fields, BITMUX, ONES and PACK (R768 to R772) -/

/-- Settles O24: the fields bit by bit, and each of the others as the one write of its registers that it is. -/
theorem fieldsAndPacking : Obligations.FieldsAndPacking := by
  refine ⟨?deposit, ?extract, ?bitmux, ?ones, ?pack⟩
  case deposit =>
    intro x d b f s
    obtain ⟨n, top, e, htop⟩ := exec_deposit x d b f s
    refine completes_logicResult_free e fun u hu hsigns => ⟨hsigns, top, htop, fun k hk => ?_⟩
    exact hu ▸ getLsbD_depositValue x _ _ top hk
  case extract =>
    intro x d v p s
    exact completes_logicResult rfl fun u hu hsigns =>
      ⟨hsigns, fun k hk => hu ▸ getLsbD_extractValue x _ _ hk⟩
  case bitmux =>
    intro a b s hne
    refine ⟨completes_mono (completes_bitmux hne (legal_of (decide_eq_true hne) _)) fun u ⟨ha, hb, hacc⟩ => ?right,
      completes_mono (completes_bitmux hne (legal_of (decide_eq_true hne) _)) fun u ⟨ha, hb, hacc⟩ => ?left⟩
    case right =>
      exact ⟨(congrArg BitVec.toNat ha).trans (toNat_ushiftRight_eq_div _ 1),
        (congrArg BitVec.toNat hb).trans (toNat_ushiftRight_eq_div _ 1),
        (congrArg BitVec.toNat hacc).trans (toNat_bitmuxRight _ _ _)⟩
    case left =>
      exact ⟨(congrArg BitVec.toNat ha).trans (toNat_shl_one _), (congrArg BitVec.toNat hb).trans (toNat_shl_one _),
        (congrArg BitVec.toNat hacc).trans (toNat_bitmuxLeft _ _ _)⟩
  case ones =>
    refine fun d r s => completes_lowNumber ?_ rfl fun u hu => hu.trans List.countP_eq_length_filter.symm
    exact (List.length_filter_le _ _).trans_lt (by simp)
  case pack =>
    refine fun d ah bh a b s => completes_setD rfl fun u hu => ?_
    exact ⟨(congrArg (half .hi) hu).trans (half_hi_word _ _), (congrArg (half .lo) hu).trans (half_lo_word _ _)⟩

end Sys2Proof.Proofs
end

section
/-!
What the model refuses (30_encoding.md R503, R504, R528; 43_shifter_video.md R810, R811; 46_system.md R1004, R1007, R1010,
R1016, R1020): the instructions, forms and words that stop under their own names.
-/

namespace Sys2Proof.Proofs

open Machine Laws

section

variable {s : State}

/-! ## Operands outside their range (R503) -/

/-- An immediate count of too great a magnitude. -/
theorem immCount_refused {w : Nat} {n : BitVec 6} {k : Outcome} (h : w ≤ n.toInt.natAbs) :
    immCount w n k = .refused .operandRange := by
  rw [immCount, countOk, decide_eq_false (Nat.not_lt.mpr h)]
  rfl

/-! ## TESTSET (R1010) -/

/-- With the DCPLBs off an access of one byte is stopped by what no CPLB can allow alone. -/
theorem checkData_byte {a : Word} {write dag1 : Bool} (hoff : s.cur.dmem.endcplb = false)
    (hfixed : s.cur.fixedViolation a write dag1 = none) : s.checkData dag1 a 1 write = none := by
  simp [State.checkData, Core.dataCheck, hoff, hfixed, Nat.mod_one]

/-- MMR space is open to a supervisor on DAG0. -/
theorem fixedViolation_mmr {c : Core} {a : Word} (huser : c.user = false)
    (hreg : c.region a.toNat ∈ [Region.sysMmr, .coreMmr]) (write : Bool) : c.fixedViolation a write false = none := by
  simp only [List.mem_cons, List.not_mem_nil, or_false] at hreg
  rcases hreg with hreg | hreg <;> simp [Core.fixedViolation, hreg, huser]

/-- TESTSET may reach neither L1 memory nor MMR space. -/
theorem testsetRegion_l1OrMmr {r : Region} (h : r ∈ [Region.dataSram, .scratchpad, .sysMmr, .coreMmr]) :
    testsetRegion r = false := by
  simp only [List.mem_cons, List.not_mem_nil, or_false] at h
  rcases h with rfl | rfl | rfl | rfl <;> rfl

/-- A target that raises nothing, of an odd address or in memory that TESTSET may not reach. -/
theorem exec_testset_refused {p : PReg} (hoff : s.cur.dmem.endcplb = false)
    (hfixed : ∀ write, s.cur.fixedViolation (s.p p) write s.dag1 = none)
    (htarget : (s.p p).toNat % 2 = 1 ∨ testsetRegion (s.cur.region (s.p p).toNat) = false) :
    exec (.testset p) s = .refused .testsetTarget := by
  have hodd : (s.p p).getLsbD 0 = decide ((s.p p).toNat % 2 = 1) := by rw [BitVec.getLsbD, Nat.testBit_zero]
  have hstop : ((s.p p).getLsbD 0 || !testsetRegion (s.cur.region (s.p p).toNat)) = true := by
    rw [hodd]
    rcases htarget with htarget | htarget <;> simp [htarget]
  change execTestset p s = _
  simp only [execTestset, checkData_byte hoff (hfixed _), hstop, if_true]

/-! ## Words that are named and not defined (R504, R528, R545) -/

/-- The two units of a 32-bit instruction are decoded as they stand. -/
theorem decode_two_units (u v : Nat) :
    decode (unitBytes u ++ unitBytes v) = decodeUnits (u % 65536) (v % 65536) 0 0 := by
  simp [decode, unitBytes, unitOf_ofNat, unitOf_zero]

/-- No row of the shifter has the first unit of VIT_MAX or ALIGN, whatever the second one is. -/
theorem decodeUnits_notDefined {u : Nat} (hu : u ∈ [0xC609, 0xC629, 0xC60D, 0xC62D]) (v : Nat) :
    decodeUnits (u % 65536) v 0 0 = .notDefined := by
  simp only [List.mem_cons, List.not_mem_nil, or_false] at hu
  rcases hu with rfl | rfl | rfl | rfl <;> rfl

/-- The step at such a word is its refusal. -/
theorem step_notDefined {bs : List Byte} (hq : s.quietCore) (hdecode : decode bs = .notDefined)
    (hlen : bs.length = unitLen (unitOf (bs.getD 0 0) (bs.getD 1 0))) (hcode : s.codeAt bs)
    (hsync : s.cur.synced = false) : step s = .refused .notDefined := by
  obtain ⟨-, -, -, -, -, hccen, -, hperf, -, hwatch, hissue, hwait⟩ := id hq
  have hfetch : s.fetch = .ok .notDefined s := by rw [fetch_codeAt hcode hlen, hdecode]
  obtain ⟨-, hrefused, -⟩ :=
    instruction_of_fetch (begun_self hsync hwait) hccen hperf hwatch hissue hfetch rfl
  exact (step_quiet hq (readAhead_nil (aheads_nil hfetch rfl))).trans (hrefused _ rfl)

end

/-- Settles O56: each form answers its refusal once what else could stop it, the mode or an exception, is out of the way. -/
theorem stops : Obligations.Stops := by
  intro s
  refine ⟨?bxor, ?video, rfl, ?raise, ?idle, ?emudat, ?popSp, ?ownPointer, ?selfModify, ?testset, ?counts, ?link,
    ?words16, ?words32, ?step⟩
  case bxor => exact fun _ _ _ _ _ => ⟨rfl, rfl⟩
  case video => exact fun _ _ _ _ _ _ _ _ => ⟨rfl, rfl, rfl, rfl, rfl, rfl⟩
  case raise =>
    intro huser n hn
    refine (supervisor_ok huser _).trans ?_
    rcases hn with rfl | rfl | rfl <;> rfl
  case idle => exact fun huser => if_pos huser
  case emudat =>
    intro huser
    have allowed (b : Bool) : ¬ (s.user && b) = true := by simp [huser]
    refine ⟨(if_neg (allowed _)).trans (if_pos rfl), (if_neg (allowed _)).trans (if_pos rfl), fun r =>
      ⟨fun hlegal => ?dest, fun hlegal => ?source⟩⟩
    case dest => exact (legal_of hlegal _).trans ((if_neg (allowed _)).trans (if_pos (.inr rfl)))
    case source => exact (legal_of hlegal _).trans ((if_neg (allowed _)).trans (if_pos (.inl rfl)))
  case popSp =>
    have allowed : ¬ (s.user && supervisorDest (.p .sp)) = true := by simp [supervisorDest, supervisorReg]
    exact (if_neg allowed).trans ((if_neg nofun).trans (if_pos rfl))
  case ownPointer => exact fun a p hpost => if_pos ⟨rfl, hpost⟩
  case selfModify => exact fun d p => ⟨if_pos rfl, if_pos rfl, if_pos rfl, if_pos rfl⟩
  case testset =>
    rintro p hoff (⟨hodd, hreg⟩ | hreg | ⟨huser, hslot, hreg⟩)
    · have hmem := fixedViolation_memory (List.subset_def.mp (by simp) hreg)
      exact exec_testset_refused hoff (hmem · _) (.inl hodd)
    · have hmem := fixedViolation_memory (List.subset_def.mp (by simp) hreg)
      exact exec_testset_refused hoff (hmem · _) (.inr (testsetRegion_l1OrMmr (List.subset_def.mp (by simp) hreg)))
    · have hdag : s.dag1 = false := by
        rw [State.dag1, hslot]
        rfl
      exact exec_testset_refused hoff (fun write => hdag ▸ fixedViolation_mmr huser hreg write)
        (.inr (testsetRegion_l1OrMmr (List.subset_def.mp (by simp) hreg)))
  case counts =>
    exact fun n => ⟨fun h _ _ _ => ⟨immCount_refused h, immCount_refused h, immCount_refused h, immCount_refused h,
        immCount_refused h, immCount_refused h, immCount_refused h⟩,
      fun h _ _ _ _ => ⟨immCount_refused h, immCount_refused h, immCount_refused h, immCount_refused h,
        immCount_refused h, immCount_refused h, immCount_refused h, immCount_refused h⟩⟩
  case link => exact fun n hn => if_pos hn
  case words16 => decide +kernel
  case words32 => exact fun u v hu _ => (decode_two_units u v).trans (decodeUnits_notDefined hu _)
  case step => exact fun bs hq hdecode hlen hcode hsync => step_notDefined hq hdecode hlen hcode hsync

end Sys2Proof.Proofs
end

section
/-!
The move past an instruction (44_flow.md R830, R860): what one match at the bottom of a loop does, the cases of the
hardware-loop rule made of it, and what the move leaves as it was.
-/

namespace Sys2Proof.Proofs

open Machine Laws

section

variable {s t u : State} {len : Nat}

/-! ## One match at the bottom of a loop -/

@[simp] theorem count_pc (s : State) (e : Byte) : (s.count e).cur.pc = s.cur.pc := by
  have := congrArg Core.pc (count_counted s e).cur
  exact this

@[simp] theorem count_loopUnit (s : State) (e : Byte) (n : LoopN) : (s.count e).loopUnit n = s.loopUnit n := by
  have h0 := congrArg Core.loop0 (count_counted s e).cur
  have h1 := congrArg Core.loop1 (count_counted s e).cur
  cases n with
  | l0 => exact h0
  | l1 => exact h1

/-- The event of the performance monitor that a match of a loop unit is (R1882). -/
def loopEvent : LoopN → Byte
  | .l0 => 0x00
  | .l1 => 0x01

/-- One match of unit `n` at its bottom: its count goes down by one, and the monitor counts the match. -/
def loopMatch (n : LoopN) (s : State) : State := (s.setLoop n (s.loopUnit n).down).count (loopEvent n)

@[simp] theorem loopMatch_pc (n : LoopN) (s : State) : (loopMatch n s).cur.pc = s.cur.pc := by
  cases n <;> exact count_pc _ _

@[simp] theorem loopMatch_loopUnit (n q : LoopN) (s : State) :
    (loopMatch n s).loopUnit q = if q = n then (s.loopUnit n).down else s.loopUnit q := by
  rw [loopMatch, count_loopUnit, loopUnit_setLoop]

/-- The last pass of unit `n`: where the core is at its bottom with a count of one, a match that does not loop back. -/
def lastPass (n : LoopN) (s : State) : State :=
  if s.cur.pc = (s.loopUnit n).lb ∧ (s.loopUnit n).lc = 1 then loopMatch n s else s

theorem lastPass_eq (n : LoopN) (s : State) :
    lastPass n s = if s.cur.pc = (s.loopUnit n).lb ∧ (s.loopUnit n).lc = 1 then loopMatch n s else s := rfl

@[simp] theorem lastPass_pc (n : LoopN) (s : State) : (lastPass n s).cur.pc = s.cur.pc := by
  unfold lastPass
  split
  · exact loopMatch_pc n s
  · rfl

theorem lastPass_otherUnit {n q : LoopN} (h : q ≠ n) (s : State) : (lastPass n s).loopUnit q = s.loopUnit q := by
  unfold lastPass
  split
  · rw [loopMatch_loopUnit, if_neg h]
  · rfl

theorem lastPass_lc {n : LoopN} (hpc : s.cur.pc = (s.loopUnit n).lb) (hlc : (s.loopUnit n).lc = 1) :
    ((lastPass n s).loopUnit n).lc = 0 := by
  rw [lastPass, if_pos ⟨hpc, hlc⟩, loopMatch_loopUnit, if_pos rfl, LoopUnit.down, hlc]
  rfl

/-- Away from the bottom, and where the count has run out, there is no last pass. -/
theorem lastPass_none {n : LoopN} (h : s.cur.pc ≠ (s.loopUnit n).lb ∨ (s.loopUnit n).lc = 0) : lastPass n s = s := by
  refine if_neg fun ⟨hpc, hlc⟩ => ?_
  rcases h with h | h
  · exact h hpc
  · rw [h] at hlc
    exact absurd hlc (by decide)

/-! ## The hardware-loop rule (R860) -/

/-- Unit `n` loops back: the core is at its bottom, with a count of at least two. -/
def loopsBack (n : LoopN) (s : State) : Prop := s.cur.pc = (s.loopUnit n).lb ∧ 2 ≤ (s.loopUnit n).lc.toNat

theorem not_loopsBack {n : LoopN} (h : s.cur.pc ≠ (s.loopUnit n).lb ∨ (s.loopUnit n).lc.toNat < 2) : ¬ loopsBack n s :=
  fun ⟨hpc, hlc⟩ => h.elim (· hpc) (Nat.not_lt.mpr hlc)

theorem not_loopsBack_of_lc_eq_zero {n : LoopN} (h : s.cur.pc ≠ (s.loopUnit n).lb ∨ (s.loopUnit n).lc = 0) :
    ¬ loopsBack n s :=
  not_loopsBack (h.imp_right fun hlc => by rw [hlc]; decide)

theorem not_loopsBack_of_lc_eq_one {n : LoopN} (hlc : (s.loopUnit n).lc = 1) : ¬ loopsBack n s :=
  not_loopsBack (.inr (by rw [hlc]; decide))

/-- Unit 1 loops back, and unit 0 is not looked at. -/
theorem loopStep_back1 (h : loopsBack .l1 s) : s.loopStep len = (loopMatch .l1 s, s.cur.loop1.lt) := if_pos h

/-- Where unit 1 does not loop back, unit 0 is looked at after its last pass, if it is one. -/
theorem loopStep_unit0 (h1 : ¬ loopsBack .l1 s) :
    s.loopStep len = if s.cur.pc = s.cur.loop0.lb ∧ 2 ≤ s.cur.loop0.lc.toNat then
        (loopMatch .l0 (lastPass .l1 s), s.cur.loop0.lt)
      else (lastPass .l0 (lastPass .l1 s), s.cur.pc + BitVec.ofNat 32 len) := by
  have hunit : (lastPass .l1 s).cur.loop0 = s.cur.loop0 := lastPass_otherUnit (n := .l1) (q := .l0) (by decide) s
  refine (if_neg h1).trans ?_
  rw [← hunit, lastPass_eq .l0 (lastPass .l1 s), lastPass_pc]
  rfl

/-- Unit 0 loops back. -/
theorem loopStep_back0 (h1 : ¬ loopsBack .l1 s) (h0 : loopsBack .l0 s) :
    s.loopStep len = (loopMatch .l0 (lastPass .l1 s), s.cur.loop0.lt) := (loopStep_unit0 h1).trans (if_pos h0)

/-- No unit loops back: the next address follows. -/
theorem loopStep_past (h1 : ¬ loopsBack .l1 s) (h0 : ¬ loopsBack .l0 s) :
    s.loopStep len = (lastPass .l0 (lastPass .l1 s), s.cur.pc + BitVec.ofNat 32 len) :=
  (loopStep_unit0 h1).trans (if_neg h0)

/-- Unit 1 where it does not loop back: what unit 0 does leaves it. -/
theorem loopStep_unit1 (h1 : ¬ loopsBack .l1 s) : (s.loopStep len).1.loopUnit .l1 = (lastPass .l1 s).loopUnit .l1 := by
  by_cases h0 : loopsBack .l0 s
  · rw [loopStep_back0 h1 h0, loopMatch_loopUnit, if_neg (by decide)]
  · rw [loopStep_past h1 h0, lastPass_otherUnit (by decide)]

theorem finish_single (h : s.issue.slot = .single) : s.finish len = (s.loopStep len).1.setPc (s.loopStep len).2 := if_pos h

/-! ## What the sequencer may change -/

/-- State `s` with what the move past an instruction changes taken from `g`. -/
def withSequencer (s g : State) : State :=
  { s with
    cur := { s.cur with
      pc := g.cur.pc, loop0 := { s.cur.loop0 with lc := g.cur.loop0.lc }
      loop1 := { s.cur.loop1 with lc := g.cur.loop1.lc }
      perf := { s.cur.perf with cntr0 := g.cur.perf.cntr0, cntr1 := g.cur.perf.cntr1 }
      seqstat := { s.cur.seqstat with hwerrcause := g.cur.seqstat.hwerrcause }
      ev := { s.cur.ev with ilat := g.cur.ev.ilat } }
    issue := { s.issue with emu := g.issue.emu } }

/-- From `s` to `t` the core has been moved on: what else has changed, the performance monitor has counted (R1881). -/
structure Sequenced (s t : State) : Prop where
  frame : t = withSequencer s t
  error : t.cur.ev.ilat = s.cur.ev.ilat ∧ t.cur.seqstat = s.cur.seqstat ∨
    t.cur.ev.ilat = s.cur.ev.ilat ||| 0x20 ∧ t.cur.seqstat.hwerrcause = 0x12
  quiet : s.perfOff → t.cur.perf = s.cur.perf ∧ t.cur.seqstat = s.cur.seqstat ∧ t.cur.ev = s.cur.ev ∧ t.issue = s.issue

theorem Sequenced.refl (s : State) : Sequenced s s := ⟨rfl, .inl ⟨rfl, rfl⟩, fun _ => ⟨rfl, rfl, rfl, rfl⟩⟩

theorem Sequenced.trans (h : Sequenced s t) (k : Sequenced t u) : Sequenced s u where
  frame :=
    calc u = withSequencer t u := k.frame
      _ = withSequencer (withSequencer s t) u := congrArg (withSequencer · u) h.frame
      _ = withSequencer s u := rfl
  error := by
    rcases k.error with ⟨hilat, hseq⟩ | ⟨hilat, hcause⟩
    · rw [hilat, hseq]
      exact h.error
    · refine .inr ⟨?_, hcause⟩
      rcases h.error with ⟨h, -⟩ | ⟨h, -⟩
      · rw [hilat, h]
      · rw [hilat, h, BitVec.or_assoc, BitVec.or_self]
  quiet hperf := by
    obtain ⟨h1, h2, h3, h4⟩ := h.quiet hperf
    obtain ⟨k1, k2, k3, k4⟩ := k.quiet (by rw [State.perfOff, h1]; exact hperf)
    exact ⟨k1.trans h1, k2.trans h2, k3.trans h3, k4.trans h4⟩

theorem Sequenced.setPc (s : State) (a : Word) : Sequenced s (s.setPc a) :=
  ⟨rfl, .inl ⟨rfl, rfl⟩, fun _ => ⟨rfl, rfl, rfl, rfl⟩⟩

theorem Sequenced.down (n : LoopN) (s : State) : Sequenced s (s.setLoop n (s.loopUnit n).down) := by
  cases n <;> exact ⟨rfl, .inl ⟨rfl, rfl⟩, fun _ => ⟨rfl, rfl, rfl, rfl⟩⟩

theorem Sequenced.ite {p : Prop} [Decidable p] (h : Sequenced s t) (k : Sequenced s u) :
    Sequenced s (if p then t else u) := by
  split
  · exact h
  · exact k

/-- A state with other counts, and with what their wrap may ask for. -/
theorem Sequenced.wrap (hperf : ¬ s.perfOff) (a b : Word) (p q : Prop) [Decidable p] [Decidable q] :
    let v := s.setCur { s.cur with perf := { s.cur.perf with cntr0 := a, cntr1 := b } }
    Sequenced s (if p then (if q then { v with issue := { v.issue with emu := true } } else v.hwError 0x12) else v) :=
  .ite (.ite ⟨rfl, .inl ⟨rfl, rfl⟩, fun h => absurd h hperf⟩ ⟨rfl, .inr ⟨rfl, rfl⟩, fun h => absurd h hperf⟩)
    ⟨rfl, .inl ⟨rfl, rfl⟩, fun h => absurd h hperf⟩

theorem Sequenced.perfAdd (hperf : ¬ s.perfOff) (n : Bool) (k : Nat) : Sequenced s (s.perfAdd n k) := by
  cases n with
  | false => exact .wrap hperf _ s.cur.perf.cntr1 _ _
  | true => exact .wrap hperf s.cur.perf.cntr0 _ _ _

/-- A monitor that is off counts nothing; one that is on changes what `withSequencer` names. -/
theorem Sequenced.count (s : State) (e : Byte) : Sequenced s (s.count e) := by
  by_cases hperf : s.perfOff
  · rw [count_off hperf]
    exact .refl s
  · have first : Sequenced s (if s.cur.perfOn false && s.cur.perfMon false == e then s.perfAdd false 1 else s) :=
      .ite (.perfAdd hperf false 1) (.refl s)
    refine first.trans (.ite (.perfAdd (fun h => hperf ?_) true 1) (.refl _))
    rw [State.perfOff, first.frame] at h
    exact h

theorem Sequenced.loopMatch (n : LoopN) (s : State) : Sequenced s (loopMatch n s) :=
  (Sequenced.down n s).trans (.count _ _)

theorem Sequenced.lastPass (n : LoopN) (s : State) : Sequenced s (lastPass n s) := .ite (.loopMatch n s) (.refl s)

theorem Sequenced.loopStep (s : State) (len : Nat) : Sequenced s (s.loopStep len).1 := by
  by_cases h1 : loopsBack .l1 s
  · rw [loopStep_back1 h1]
    exact .loopMatch .l1 s
  · by_cases h0 : loopsBack .l0 s
    · rw [loopStep_back0 h1 h0]
      exact (Sequenced.lastPass .l1 s).trans (.loopMatch .l0 _)
    · rw [loopStep_past h1 h0]
      exact (Sequenced.lastPass .l1 s).trans (.lastPass .l0 _)

/-- The move past an instruction, of a part of a bundle too. -/
theorem Sequenced.finish (s : State) (len : Nat) : Sequenced s (s.finish len) := by
  by_cases h : s.issue.slot = .single
  · rw [finish_single h]
    exact (Sequenced.loopStep s len).trans (.setPc _ _)
  · rw [finish_bundle h]
    exact .refl s

end

/-- Settles O8: each match of a loop unit changes its count and what the monitor counts, and nothing else is done. -/
theorem sequencerFrame : Obligations.SequencerFrame := by
  intro s len
  obtain ⟨hframe, herror, hquiet⟩ := Sequenced.finish s len
  exact ⟨fun h => finish_bundle h len, hframe, herror, hquiet⟩

/-- Settles O7: unit 1 loops back, or unit 0 does after what may be the last pass of unit 1, or the next address follows. -/
theorem hardwareLoop : Obligations.HardwareLoop := by
  intro s len hslot
  have hframe := (Sequenced.finish s len).frame
  have none1 : s.cur.pc ≠ s.cur.loop1.lb ∨ s.cur.loop1.lc.toNat < 2 → ¬ loopsBack .l1 s := not_loopsBack (n := .l1)
  have hpc0 : (lastPass .l1 s).cur.pc = s.cur.pc := lastPass_pc .l1 s
  have hunit0 : (lastPass .l1 s).loopUnit .l0 = s.loopUnit .l0 := lastPass_otherUnit (by decide) s
  rw [finish_single hslot] at hframe ⊢
  refine ⟨fun h => (finish_single hslot).symm.trans (finish_linear hslot h len), ?back1, ?last1, ?keeps1, ?back0, ?last0,
    ?past, ?_, ?_, ?_, ?_⟩
  case back1 =>
    intro hpc hlc
    have hunits (q : LoopN) := loopMatch_loopUnit .l1 q s
    rw [loopStep_back1 ⟨hpc, hlc⟩]
    exact ⟨rfl, congrArg LoopUnit.lc (hunits .l1), hunits .l0⟩
  case last1 =>
    intro hpc hlc
    have hunit := loopStep_unit1 (len := len) (not_loopsBack_of_lc_eq_one (n := .l1) hlc)
    exact (congrArg LoopUnit.lc hunit).trans (lastPass_lc (n := .l1) hpc hlc)
  case keeps1 =>
    intro h
    have hunit := loopStep_unit1 (len := len) (not_loopsBack_of_lc_eq_zero (n := .l1) h)
    exact hunit.trans (congrArg (·.loopUnit .l1) (lastPass_none (n := .l1) h))
  case back0 =>
    intro h hpc hlc
    have hunit := loopMatch_loopUnit .l0 .l0 (lastPass .l1 s)
    rw [loopStep_back0 (none1 h) ⟨hpc, hlc⟩]
    exact ⟨rfl, congrArg LoopUnit.lc (hunit.trans (congrArg LoopUnit.down hunit0))⟩
  case last0 =>
    intro h hpc hlc
    rw [loopStep_past (none1 h) (not_loopsBack_of_lc_eq_one (n := .l0) hlc)]
    exact ⟨rfl, lastPass_lc (n := .l0) (hpc0 ▸ hunit0 ▸ hpc) (hunit0 ▸ hlc)⟩
  case past =>
    intro h h0
    rw [loopStep_past (none1 h) (not_loopsBack_of_lc_eq_zero (n := .l0) h0)]
    have hnone := lastPass_none (s := lastPass .l1 s) (n := .l0) (by rw [hpc0, hunit0]; exact h0)
    exact ⟨rfl, (congrArg (·.loopUnit .l0) hnone).trans hunit0⟩
  all_goals
    rw [hframe]
    rfl

end Sys2Proof.Proofs
end

section
/-!
Program flow (44_flow.md): transfers to even and odd targets, calls, returns from events, conditional branches and the
setup of hardware loops.
-/

namespace Sys2Proof.Proofs

open Machine Laws

section

variable {s t u : State} {len n : Nat} {a : Word}

/-! ## PC-relative targets (R832) -/

theorem relTarget_eq {w : Nat} (s : State) (o : BitVec w) : s.relTarget o = s.cur.pc + BitVec.ofInt 32 (2 * o.toInt) := by
  rw [State.relTarget, BitVec.signExtend, BitVec.shiftLeft_eq_mul_twoPow, BitVec.ofInt_mul, BitVec.mul_comm]
  rfl

/-- A PC-relative target is even where the pc is. -/
theorem relTarget_even {w : Nat} (hpc : s.cur.pc.getLsbD 0 = false) (o : BitVec w) : (s.relTarget o).getLsbD 0 = false := by
  rw [State.relTarget, BitVec.getLsbD_add (by decide), hpc, BitVec.getLsbD_shiftLeft, BitVec.carry_zero]
  rfl

/-- A taken PC-relative transfer, the trace buffer off. -/
theorem transfer_relTarget {w : Nat} (htrace : u.traceOff) (hpc : s.cur.pc.getLsbD 0 = false) (o : BitVec w) :
    transfer (s.relTarget o) u = .next (u.setPc (s.cur.pc + BitVec.ofInt 32 (2 * o.toInt))) := by
  rw [transfer_even htrace (relTarget_even hpc o), relTarget_eq]

/-! ## Calls (R838) -/

theorem Sequenced.traceOff (h : Sequenced s t) (htrace : s.traceOff) : t.traceOff := by
  rw [State.traceOff, h.frame]
  exact htrace

theorem saveRets_traceOff (htrace : s.traceOff) (len : Nat) : (s.saveRets len).traceOff :=
  (Sequenced.loopStep s len).traceOff htrace

/-- RETS takes the address at which the core would have gone on, and the core goes on elsewhere. -/
theorem saveRets_setPc (h : s.issue.slot = .single) (len : Nat) (a : Word) :
    (s.saveRets len).setPc a = ((s.finish len).writeReg .rets (s.finish len).cur.pc).setPc a := by
  rw [finish_single h]
  rfl

theorem call_even (htrace : s.traceOff) (h : s.issue.slot = .single) (ha : a.getLsbD 0 = false) :
    transfer a (s.saveRets len) = .next (((s.finish len).writeReg .rets (s.finish len).cur.pc).setPc a) := by
  rw [transfer_even (saveRets_traceOff htrace len) ha, saveRets_setPc h]

/-! ## What keeps the event controller but for its latches -/

/-- The event controller of `t` is that of `s` but for the latched events. -/
def sameEvents (s t : State) : Prop := { t.cur.ev with ilat := s.cur.ev.ilat } = s.cur.ev

theorem sameEvents_of_counted (h : Counted s t) : sameEvents s t := by
  have := congrArg Core.ev h.cur
  exact this

theorem sameEvents_of_sequenced (h : Sequenced s t) : sameEvents s t := by
  rw [h.frame]
  rfl

theorem sameEvents.ipend (h : sameEvents s t) : t.cur.ev.ipend = s.cur.ev.ipend := by
  have := congrArg EventCtl.ipend h
  exact this

/-- The entry of an exception is spoken of by the event controller, its latches left out. -/
theorem sameEvents.entered {code : BitVec 6} {ret : Word} (h : sameEvents s t) (he : t.entered u code ret) :
    s.entered u code ret := by
  have hevt : t.cur.ev.evt = s.cur.ev.evt := by
    have := congrArg EventCtl.evt h
    exact this
  have himask : t.cur.ev.imask = s.cur.ev.imask := by
    have := congrArg EventCtl.imask h
    exact this
  rwa [State.entered, hevt, h.ipend, himask] at he

theorem sameEvents.canTrap (h : sameEvents s t) (hslot : t.issue.slot = s.issue.slot) (hs : s.canTrap) : t.canTrap := by
  rwa [State.canTrap, Core.inException, hslot, h.ipend]

theorem sameEvents.withIpend (h : sameEvents s t) (x : HWord) : sameEvents (s.withIpend x) (t.withIpend x) := by
  have := congrArg (fun e : EventCtl => ({ e with ipend := x } : EventCtl)) h
  exact this

/-! ## Recording a transfer -/

/-- What a recorded and counted transfer keeps: the event controller but for its latches, the slot, and RETS. -/
theorem flow_keeps (s : State) (a : Word) :
    sameEvents s (s.flow a) ∧ (s.flow a).issue.slot = s.issue.slot ∧ (s.flow a).cur.rets = s.cur.rets := by
  have hcount : Counted s s.countBranch := by
    unfold State.countBranch
    split
    · exact count_counted s 0x09
    · exact .refl s
  obtain ⟨es, full, hrecord⟩ := recordFlow_only s.countBranch s.cur.ev.ipend s.cur.pc a
  have hev := sameEvents_of_counted hcount
  have hslot := congrArg Issue.slot hcount.issue
  have hrets := congrArg Core.rets hcount.cur
  rw [State.flow, hrecord]
  exact ⟨hev, hslot, hrets⟩

/-! ## Odd targets (R836) -/

theorem entered_rets {code : BitVec 6} (h : Entered (.next t) s code) : t.cur.rets = s.cur.rets := by
  obtain ⟨v, hv, -, -, -, -, -, -, hcore, -⟩ := h
  obtain rfl : t = v := by injection hv
  have := congrArg Core.rets hcore
  exact this

/-- The core goes on at an odd address: it takes the exception of a misaligned fetch there. -/
theorem goTo_odd (h : s.canTrap) (ha : a.getLsbD 0 = true) :
    ∃ t, goTo a s = .next t ∧ s.entered t 0x2A a ∧ t.cur.rets = s.cur.rets := by
  let u := (s.setPc a).count 0x0D
  have hcount : Counted (s.setPc a) u := count_counted _ _
  have hev := sameEvents_of_counted hcount
  have hcore := congrArg Core.rets hcount.cur
  have htrap : u.canTrap := hev.canTrap (count_slot (s.setPc a) 0x0D) h
  have hpc : u.cur.pc = a := count_pc (s.setPc a) 0x0D
  obtain ⟨t, hraise, hentered, -⟩ := entered_of_raise htrap .fetchMisaligned
  have hgoTo : goTo a s = raise .fetchMisaligned u := by
    rw [raise_takes htrap.1, hpc, goTo, if_pos ha]
  have hrets : t.cur.rets = u.cur.rets := entered_rets (hraise ▸ raise_entered htrap rfl : Entered (.next t) u 0x2A)
  exact ⟨t, hgoTo.trans hraise, hev.entered (hpc ▸ hentered), hrets.trans hcore⟩

theorem transfer_odd (h : s.canTrap) (ha : a.getLsbD 0 = true) :
    ∃ t, transfer a s = .next t ∧ s.entered t 0x2A a ∧ t.cur.rets = s.cur.rets := by
  obtain ⟨hev, hslot, hrets⟩ := flow_keeps s a
  obtain ⟨t, hgoTo, hentered, hkeeps⟩ := goTo_odd (hev.canTrap hslot h) ha
  exact ⟨t, hgoTo, hev.entered hentered, hkeeps.trans hrets⟩

/-- A call to an odd address has left its return address in RETS (D31 (d)). -/
theorem call_odd (h : s.canTrap) (ha : a.getLsbD 0 = true) :
    ∃ t, transfer a (s.saveRets len) = .next t ∧ s.entered t 0x2A a ∧ t.cur.rets = (s.finish len).cur.pc := by
  have hev := sameEvents_of_sequenced (Sequenced.loopStep s len)
  obtain ⟨t, htransfer, hentered, hrets⟩ := transfer_odd (s := s.saveRets len) (hev.canTrap (loopStep_slot s len) h) ha
  refine ⟨t, htransfer, hev.entered hentered, hrets.trans ?_⟩
  rw [finish_single h.1]
  rfl

/-! ## Returns from events (R842) -/

/-- The events in service are those of IPEND, bit 4 left out. -/
theorem getLsbD_evbits (c : Core) {k : Nat} (hk : k < 16) :
    c.evbits.getLsbD k = (c.ev.ipend.getLsbD k && decide (k ≠ 4)) := by
  have hmask : ∀ j : Fin 16, (0xFFEF : HWord).getLsbD j = decide (j.val ≠ 4) := by decide
  rw [Core.evbits, BitVec.getLsbD_and, hmask ⟨k, hk⟩]

theorem serves_level (h : s.serves n) : s.cur.level = n := by
  obtain ⟨hn, hn4, hset, hlower⟩ := h
  have hfind : (List.range 16).find? (fun i => s.cur.evbits.getLsbD i) = some n := by
    rw [List.find?_range_eq_some]
    refine ⟨?_, List.mem_range.mpr hn, fun j hj => ?_⟩
    · rw [getLsbD_evbits _ hn, hset]
      simp [hn4]
    · rw [getLsbD_evbits _ (hj.trans hn)]
      by_cases hj4 : j = 4
      · simp [hj4]
      · simp [hlower j hj hj4]
  rw [Core.level, lowestBit, hfind]
  rfl

/-- With an event in service the core is in Supervisor mode. -/
theorem serves_supervisor (h : s.serves n) : s.user = false := by
  obtain ⟨hn, hn4, hset, -⟩ := h
  rw [State.user, Core.user, beq_eq_false_iff_ne]
  intro hzero
  have hbit := getLsbD_evbits s.cur hn
  rw [hzero, hset] at hbit
  simp [hn4] at hbit

theorem serves_leaveEvent (h : s.serves n) : s.cur.leaveEvent = s.cur.ev.ipend &&& ~~~ BitVec.ofNat 16 (2 ^ n) := by
  rw [Core.leaveEvent, serves_level h]
  rfl

/-- IPEND after the return from event `n`; `enable`: bit 4 is cleared too. -/
def returnIpend (s : State) (n : Nat) (enable : Bool) : HWord :=
  let rest := s.cur.ev.ipend &&& ~~~ BitVec.ofNat 16 (2 ^ n)
  if enable then rest &&& 0xFFEF else rest

/-- A return is a transfer from the state with the event's bit cleared, which fetches anew. -/
theorem returnTo_eq (h : s.serves n) (a : Word) (enable : Bool) :
    returnTo a enable s = goTo a (((s.flow a).withIpend (returnIpend s n enable)).refetched) := by
  have hipend := (flow_keeps s a).1.ipend
  have hserves : (s.flow a).serves n := by rwa [State.serves, hipend]
  rw [returnIpend, ← hipend, ← serves_leaveEvent hserves]
  rfl

theorem return_even (htrace : s.traceOff) (h : s.serves n) (ha : a.getLsbD 0 = false) (enable : Bool) :
    supervisor s (returnTo a enable s) = .next ((s.withIpend (returnIpend s n enable)).refetched.setPc a) := by
  rw [supervisor_ok (serves_supervisor h), returnTo_eq h, State.flow, countBranch_off htrace, recordFlow_off htrace, goTo, ha]
  rfl

theorem return_odd (h : s.serves n) (hslot : s.issue.slot = .single) (ha : a.getLsbD 0 = true) {enable : Bool}
    (hnone : returnIpend s n enable &&& 0xF = 0) :
    ∃ t, supervisor s (returnTo a enable s) = .next t ∧ (s.withIpend (returnIpend s n enable)).entered t 0x2A a := by
  obtain ⟨hev, hkeeps, -⟩ := flow_keeps s a
  let u := ((s.flow a).withIpend (returnIpend s n enable)).refetched
  have hsame : sameEvents (s.withIpend (returnIpend s n enable)) u := hev.withIpend _
  have htrap : u.canTrap := ⟨hkeeps.trans hslot, by
    change (returnIpend s n enable &&& 0xF != 0) = false
    rw [hnone]
    rfl⟩
  obtain ⟨t, ht, hentered, -⟩ := goTo_odd htrap ha
  exact ⟨t, (supervisor_ok (serves_supervisor h) _).trans ((returnTo_eq h a enable).trans ht), hsame.entered hentered⟩

/-! ## Conditional branches (R847 to R849) -/

theorem branch_eq (htrace : s.traceOff) (hperf : s.perfOff) (hpc : s.cur.pc.getLsbD 0 = false) (taken : Bool)
    (o : BitVec 10) :
    s.branch taken o =
      .next (if taken then s.setPc (s.cur.pc + BitVec.ofInt 32 (2 * o.toInt)) else s.finish 2) := by
  rw [State.branch, count_off hperf]
  cases taken with
  | false => rfl
  | true => exact transfer_relTarget htrace hpc o

/-- The negated form takes the other way. -/
theorem branch_not_eq (htrace : s.traceOff) (hperf : s.perfOff) (hpc : s.cur.pc.getLsbD 0 = false) (b : Bool)
    (o : BitVec 10) :
    s.branch (!b) o = .next (if b then s.finish 2 else s.setPc (s.cur.pc + BitVec.ofInt 32 (2 * o.toInt))) := by
  rw [branch_eq htrace hperf hpc]
  cases b with
  | false => rfl
  | true => rfl

/-! ## The setup of a loop (R851) -/

/-- The address that the offset field `o` names, `o` halfwords after the pc. -/
def loopAddress {w : Nat} (s : State) (o : BitVec w) : Word := s.cur.pc + BitVec.ofNat 32 (2 * o.toNat)

theorem toNat_loopAddress {w : Nat} (s : State) (o : BitVec w) :
    (loopAddress s o).toNat = (s.cur.pc.toNat + 2 * o.toNat) % 2 ^ 32 := by
  rw [loopAddress, BitVec.toNat_add, BitVec.toNat_ofNat, Nat.add_mod_mod]

theorem loopUnit_loopSetup (s : State) (q : LoopN) (top : BitVec 4) (bot : BitVec 10) (lc : Word) :
    (s.loopSetup q top bot lc).loopUnit q = ⟨lc, loopAddress s top, loopAddress s bot⟩ :=
  (loopUnit_setLoop s q q _).trans (if_pos rfl)

/-- The setup of a loop writes the three registers of its unit. -/
theorem loopSetup_eq_writeReg (s : State) (q : LoopN) (top : BitVec 4) (bot : BitVec 10) (lc : Word) :
    s.loopSetup q top bot lc =
      ((s.writeReg (.lc q) lc).writeReg (.lt q) (loopAddress s top)).writeReg (.lb q) (loopAddress s bot) := by
  cases q <;> rfl

/-- The top and the bottom of a loop unit are written. -/
theorem frame_topAndBottom {rs : List AllReg} {fs : List FlagName} {st : Nat → Prop} (h : Frame s u rs fs st) {q : LoopN}
    (hlt : .lt q ∈ rs) (hlb : .lb q ∈ rs) (x y : Word) :
    Frame s ((u.writeReg (.lt q) x).writeReg (.lb q) y) rs fs st := by
  have htop : Frame s (u.writeReg (.lt q) x) rs fs st :=
    Frame.writeReg (r := .lt q) h (fun _ hr => List.eq_of_mem_singleton hr ▸ hlt) nofun nofun x
  exact Frame.writeReg (r := .lb q) htop (fun _ hr => List.eq_of_mem_singleton hr ▸ hlb) nofun nofun y

theorem frame_loopSetup (s : State) (q : LoopN) (top : BitVec 4) (bot : BitVec 10) (lc : Word) :
    Frame s (s.loopSetup q top bot lc) [.lc q, .lt q, .lb q] [] noBytes := by
  have hcount : Frame s (s.writeReg (.lc q) lc) [.lc q, .lt q, .lb q] [] noBytes :=
    Frame.writeReg (r := .lc q) (Frame.refl ..) (fun _ hr => List.eq_of_mem_singleton hr ▸ List.mem_cons_self) nofun nofun lc
  rw [loopSetup_eq_writeReg]
  exact frame_topAndBottom hcount (by simp) (by simp) _ _

/-- Where the count is what it was, only the top and the bottom change. -/
theorem frame_loopSetup_sameCount (s : State) (q : LoopN) (top : BitVec 4) (bot : BitVec 10) :
    Frame s (s.loopSetup q top bot (s.loopUnit q).lc) [.lt q, .lb q] [] noBytes := by
  have hsame : s.writeReg (.lc q) (s.loopUnit q).lc = s := by cases q <;> rfl
  rw [loopSetup_eq_writeReg, hsame]
  exact frame_topAndBottom (Frame.refl ..) (by simp) (by simp) _ _

/-- What the registers of unit `q` read after its setup with the count `c`. -/
def loopIsSet (s : State) (q : LoopN) (top : BitVec 4) (bot : BitVec 10) (c : Word) (u : State) : Prop :=
  (u.readReg (.lt q)).toNat = (s.cur.pc.toNat + 2 * top.toNat) % 2 ^ 32 ∧
    (u.readReg (.lb q)).toNat = (s.cur.pc.toNat + 2 * bot.toNat) % 2 ^ 32 ∧ u.readReg (.lc q) = c

theorem loopSetup_isSet (s : State) (q : LoopN) (top : BitVec 4) (bot : BitVec 10) (lc : Word) :
    loopIsSet s q top bot lc (s.loopSetup q top bot lc) := by
  have hunit := loopUnit_loopSetup s q top bot lc
  refine ⟨?_, ?_, congrArg LoopUnit.lc hunit⟩
  · rw [← toNat_loopAddress]
    exact congrArg (fun v : LoopUnit => v.lt.toNat) hunit
  · rw [← toNat_loopAddress]
    exact congrArg (fun v : LoopUnit => v.lb.toNat) hunit

theorem loopSetup_issue (s : State) (q : LoopN) (top : BitVec 4) (bot : BitVec 10) (lc : Word) :
    (s.loopSetup q top bot lc).issue = s.issue := setLoop_issue s q _

end

/-- Settles O33: each is a taken transfer to an even address, a call from the state with RETS written. -/
theorem jumpsAndCalls : Obligations.JumpsAndCalls := by
  intro s htrace
  refine ⟨fun hpc => ⟨?short, ?long, ?any, ?call⟩, fun p hp => ⟨?jumpP, ?callP⟩, fun p hp => ⟨?jumpPcP, ?callPcP⟩, ?rts⟩
  case short | long | any => exact transfer_relTarget htrace hpc
  case call =>
    intro o hslot
    rw [← relTarget_eq]
    exact call_even htrace hslot (relTarget_even hpc o)
  case jumpP | jumpPcP => exact transfer_even htrace hp
  case callP | callPcP => exact fun hslot => call_even htrace hslot hp
  case rts => exact transfer_even htrace

/-- Settles O34: the transfer is recorded, RETS or IPEND has been written, and the core takes the exception of a misaligned
fetch at the target. -/
theorem oddTargets : Obligations.OddTargets := by
  refine ⟨fun s htrap => ?transfers, ?returns⟩
  case transfers =>
    have jump {a : Word} (ha : a.getLsbD 0 = true) : ∃ t, transfer a s = .next t ∧ s.entered t 0x2A a := by
      obtain ⟨t, ht, hentered, -⟩ := transfer_odd htrap ha
      exact ⟨t, ht, hentered⟩
    exact ⟨fun p => jump, fun p => jump, fun p => call_odd htrap, fun p => call_odd htrap, jump⟩
  case returns =>
    intro s n hslot hserves rest hnone
    have hrti : returnIpend s n true &&& 0xF = 0 := by
      change rest &&& 0xFFEF &&& 0xF = 0
      rw [BitVec.and_assoc]
      exact hnone
    exact ⟨(return_odd hserves hslot · hrti), (return_odd (enable := false) hserves hslot · hnone),
      (return_odd (enable := false) hserves hslot · hnone)⟩

/-- Settles O35: an event in service makes the mode Supervisor, and the event that the return leaves is that event. -/
theorem eventReturns : Obligations.EventReturns := by
  intro s n htrace hserves rest
  exact ⟨(return_even htrace hserves · true), (return_even htrace hserves · false),
    (return_even htrace hserves · false), fun x => rfl, rfl⟩

/-- Settles O36: a branch is a transfer or the move past the instruction, and a setup writes the registers of its unit. -/
theorem branchesAndLoopSetup : Obligations.BranchesAndLoopSetup := by
  refine ⟨fun s o htrace hperf hpc => ?branches, fun q top p bot s => ⟨?preg, ?same, ?preghalf⟩⟩
  case branches =>
    have hcc := branch_eq htrace hperf hpc s.cc o
    have hncc := branch_not_eq htrace hperf hpc s.cc o
    exact ⟨hcc, hncc, hcc, hncc⟩
  case preg => exact ⟨_, rfl, congrArg Issue.slot (loopSetup_issue ..), frame_loopSetup .., loopSetup_isSet ..⟩
  case same => exact ⟨_, rfl, congrArg Issue.slot (loopSetup_issue ..), frame_loopSetup_sameCount .., loopSetup_isSet ..⟩
  case preghalf =>
    have hhalf : s.p p >>> 1 = BitVec.ofNat 32 ((s.p p).toNat / 2) := by
      apply BitVec.eq_of_toNat_eq
      rw [BitVec.toNat_ushiftRight, BitVec.toNat_ofNat, Nat.shiftRight_one, Nat.mod_eq_of_lt (by omega)]
    rw [← hhalf]
    exact ⟨_, rfl, congrArg Issue.slot (loopSetup_issue ..), frame_loopSetup .., loopSetup_isSet ..⟩

end Sys2Proof.Proofs
end

section
/-!
Address arithmetic (45_loadstore.md R930 to R935): where a circular update leads, sums whose carries go down, and the
instructions that write an index register alone.
-/

namespace Sys2Proof.Proofs

open Machine Laws

section

variable {s : State} {i : Instr} {len : Nat} {P : State → Prop}

/-! ## The circular update (R930) -/

theorem circ_noLength {l : Word} (hl : l = 0) (i b : Word) (m : Int) : circ i b l m = BitVec.ofInt 32 (i.toNat + m) :=
  if_pos hl

theorem circ_up {l : Word} (hl : l ≠ 0) {m : Int} (hm : 0 ≤ m) (i b : Word) :
    circ i b l m = BitVec.ofInt 32 (if (i.toNat : Int) + m < b.toNat + l.toNat then i.toNat + m else i.toNat + m - l.toNat) :=
  (if_neg hl).trans (if_pos hm)

theorem circ_down {l : Word} (hl : l ≠ 0) {m : Int} (hm : m < 0) (i b : Word) :
    circ i b l m = BitVec.ofInt 32 (if (b.toNat : Int) ≤ i.toNat + m then i.toNat + m else i.toNat + m + l.toNat) :=
  (if_neg hl).trans (if_neg (by omega))

/-- An address that exists, as a word. -/
theorem toNat_ofInt_address {x : Int} (h0 : 0 ≤ x) (h : x < 2 ^ 32) : ((BitVec.ofInt 32 x).toNat : Int) = x := by
  rw [BitVec.toNat_ofInt]
  omega

/-- A step that is no longer than the buffer leaves the index in it, one length taken off or added where it leaves it. -/
theorem circ_inBuffer {i b l : Word} {m : Int} (hbase : b ≤ i) (hend : i.toNat < b.toNat + l.toNat)
    (hspace : b.toNat + l.toNat ≤ 2 ^ 32) (hstep : m.natAbs ≤ l.toNat) :
    b.toNat ≤ (circ i b l m).toNat ∧ (circ i b l m).toNat < b.toNat + l.toNat := by
  have hbase : b.toNat ≤ i.toNat := hbase
  have hl : l ≠ 0 := by
    rintro rfl
    exact absurd hend (Nat.not_lt.mpr hbase)
  rcases lt_or_ge m 0 with hm | hm
  · rw [circ_down hl hm]
    split
    · have := toNat_ofInt_address (x := i.toNat + m) (by omega) (by omega)
      omega
    · have := toNat_ofInt_address (x := i.toNat + m + l.toNat) (by omega) (by omega)
      omega
  · rw [circ_up hl hm]
    split
    · have := toNat_ofInt_address (x := i.toNat + m) (by omega) (by omega)
      omega
    · have := toNat_ofInt_address (x := i.toNat + m - l.toNat) (by omega) (by omega)
      omega

/-! ## Bits in reverse order (R933) -/

/-- Bits that are shifted in one after the other: the first one is the highest. -/
theorem testBit_foldl_shiftIn (p : Nat → Bool) (n k : Nat) :
    ((List.range n).foldl (fun r j => 2 * r + (p j).toNat) 0).testBit k = (decide (k < n) && p (n - 1 - k)) := by
  induction n generalizing k with
  | zero => simp
  | succ n ih =>
    rw [List.range_succ, List.foldl_append, List.foldl_cons, List.foldl_nil, ← Nat.bit_val]
    cases k with
    | zero => simp
    | succ k =>
      rw [Nat.testBit_bit_succ, ih]
      simp [show n - (k + 1) = n - 1 - k by omega]

theorem getLsbD_rev32 (v : Word) {k : Nat} (hk : k < 32) : (rev32 v).getLsbD k = v.getLsbD (31 - k) := by
  rw [rev32, BitVec.getLsbD_ofNat, testBit_foldl_shiftIn v.getLsbD]
  simp [hk]

theorem rev32_rev32 (v : Word) : rev32 (rev32 v) = v := by
  apply BitVec.eq_of_getLsbD_eq
  intro k hk
  rw [getLsbD_rev32 _ hk, getLsbD_rev32 _ (by omega), show 31 - (31 - k) = k by omega]

/-- Where the carries go down, the sum in reverse order is that of the operands in reverse order. -/
theorem rev32_addBrev (a b : Word) : rev32 (addBrev a b) = rev32 a + rev32 b := rev32_rev32 _

/-! ## One index register -/

/-- An instruction that writes one index register. -/
theorem completes_setI {d : DagN} {v : Word} (e : exec i s = done len (s.setI d v)) (hP : ∀ u, u.i d = v → P u) :
    Completes i s len [.i d] [] noBytes P :=
  completes_writeReg (r := .i d) e nofun nofun hP

end

/-- Settles O47: the cases of the circular update, and each instruction as one write of its register. -/
theorem indexArithmetic : Obligations.IndexArithmetic := by
  refine ⟨fun i b l m => ⟨?noLength, ?up, ?wrapUp, ?down, ?wrapDown, circ_inBuffer⟩, fun v k => getLsbD_rev32 v, ?brevP,
    fun i m s => ⟨?add, ?sub, ?brev, ?add2, ?sub2, ?add4, ?sub4⟩⟩
  case noLength => exact fun hl => circ_noLength hl i b m
  case up => exact fun hl hm hin => (circ_up hl hm i b).trans (by rw [if_pos hin])
  case wrapUp => exact fun hl hm hout => (circ_up hl hm i b).trans (by rw [if_neg (Int.not_lt.mpr hout)])
  case down => exact fun hl hm hin => (circ_down hl hm i b).trans (by rw [if_pos hin])
  case wrapDown => exact fun hl hm hout => (circ_down hl hm i b).trans (by rw [if_neg (Int.not_le.mpr hout)])
  case brevP => exact fun d r s => completes_setP rfl fun u hu => hu ▸ rev32_addBrev _ _
  case brev => exact completes_setI rfl fun u hu => hu ▸ rev32_addBrev _ _
  case add | sub | add2 | sub2 | add4 | sub4 => exact completes_setI rfl fun u hu => hu

end Sys2Proof.Proofs
end

section
/-!
Loads and stores that nothing stands in the way of (45_loadstore.md R900 to R928): what a load gives as a word, a half word
or a byte, the update of the address register, and how an instruction with one access completes.
-/

namespace Sys2Proof.Proofs

open Machine Laws

section

variable {s t u : State} {a : Word} {x n : Nat}

/-! ## What a load gives (R330, R900, R918, R922) -/

/-- The number of the `n` bytes at `x` as the current core sees them. -/
def loaded (s : State) (x n : Nat) : Nat := overlay s.cur.stores x n (s.mem.loadN x n)

theorem loaded_half (s : State) (x : Nat) : loaded s x 2 = (s.half x).toNat := by
  have h0 := (s.byte x).isLt
  have h1 := (s.byte (x + 1)).isLt
  rw [State.half, toNat_append, loaded, overlay_succ s x 1, overlay_succ s (x + 1) 0, overlay]
  omega

theorem loaded_byte (s : State) (x : Nat) : loaded s x 1 = (s.byte x).toNat := by
  rw [loaded, overlay_succ s x 0, overlay]
  rfl

theorem loadZ_loaded_word (s : State) (x : Nat) : loadZ (loaded s x 4) = s.word x := loadZ_word s x

theorem ofNat_loaded_half (s : State) (x : Nat) : BitVec.ofNat 16 (loaded s x 2) = s.half x := loadN_half s x

theorem toNat_loadZ_half (s : State) (x : Nat) : (loadZ (loaded s x 2)).toNat = (s.half x).toNat := by
  have h := (s.half x).isLt
  rw [loaded_half, loadZ, BitVec.toNat_ofNat]
  omega

theorem toNat_loadZ_byte (s : State) (x : Nat) : (loadZ (loaded s x 1)).toNat = (s.byte x).toNat := by
  have h := (s.byte x).isLt
  rw [loaded_byte, loadZ, BitVec.toNat_ofNat]
  omega

theorem toInt_loadX_half (s : State) (x : Nat) : (loadX16 (loaded s x 2)).toInt = (s.half x).toInt := by
  rw [loadX16, ofNat_loaded_half, BitVec.toInt_signExtend_of_le (by decide)]

theorem toInt_loadX_byte (s : State) (x : Nat) : (loadX8 (loaded s x 1)).toInt = (s.byte x).toInt := by
  rw [loadX8, loaded_byte, BitVec.ofNat_toNat, BitVec.setWidth_eq, BitVec.toInt_signExtend_of_le (by decide)]

/-- A half load keeps the other half (R919, R920). -/
theorem halfTook_loaded {d : DReg} {h : Half} (hd : u.d d = withHalf h (s.d d) (BitVec.ofNat 16 (loaded s x 2))) :
    s.halfTook u d h (s.half x) :=
  halfTook_of_withHalf (ofNat_loaded_half s x ▸ hd)

/-! ## What a store leaves to be read (R331) -/

theorem byte_of_seen {b : Byte} (h : s.seen x = some b) : s.byte x = b := by
  unfold State.seen at h
  unfold State.byte
  cases hp : pendByte s.cur.stores x with
  | some c =>
    rw [hp, Option.some_or] at h
    exact Option.some.inj h
  | none =>
    rw [hp, Option.none_or] at h
    simp [Mem.load, h]

theorem half_of_holds {v : Word} (h : s.holds x 2 v) : s.half x = half .lo v := by
  rw [State.half, byte_of_seen (h 1 (by decide)), byte_of_seen (x := x) (h 0 (by decide))]
  exact BitVec.extractLsb'_append_extractLsb'_eq_extractLsb' rfl

/-- A half register, extended with zeros to be stored. -/
theorem half_lo_zeroExtend (v : HWord) : half .lo (v.zeroExtend 32) = v := by
  apply BitVec.eq_of_toNat_eq
  simpa [half] using v.isLt

/-! ## The address register (R901 to R909) -/

/-- From `t` to `u` the address register `r` has come to hold `v`; it alone is written, and `rs` names it, or it is kept and
`rs` is empty. -/
inductive AddressStep (t : State) : State → List AllReg → AllReg → Word → Prop
  | kept (r : AllReg) : AddressStep t t [] r (t.readReg r)
  | pointer (p : PReg) (v : Word) : AddressStep t (t.setP p v) [.p p] (.p p) v
  | index (i : DagN) (v : Word) : AddressStep t (t.setI i v) [.i i] (.i i) v

section

variable {rs names : List AllReg} {fs : List FlagName} {st : Nat → Prop} {r : AllReg} {v : Word}

theorem setP_p_other {p q : PReg} (hne : q ≠ p) (s : State) (w : Word) : (s.setP p w).p q = s.p q :=
  (PRegs.get_set s.cur.p s.user p q w).trans (if_neg hne)

theorem AddressStep.readReg (h : AddressStep t u rs r v) : u.readReg r = v := by
  cases h with
  | kept r => rfl
  | pointer p v => exact setP_p_same t p v
  | index i v => exact (Dag4.get_set t.cur.i i i v).trans (if_pos rfl)

theorem AddressStep.issue (h : AddressStep t u rs r v) : u.issue = t.issue := by
  cases h <;> rfl

theorem AddressStep.frame (h : AddressStep t u rs r v) (hf : Frame s t names fs st) (hrs : rs ⊆ names) :
    Frame s u names fs st := by
  cases h with
  | kept r => exact hf
  | pointer p v => exact Frame.setP hf (hrs List.mem_cons_self) v
  | index i v => exact Frame.setI hf (hrs List.mem_cons_self) v

theorem AddressStep.holds {w : Word} (h : AddressStep t u rs r v) (hw : t.holds x n w) : u.holds x n w := by
  cases h <;> exact hw

/-- A data register, or another pointer register than the one that is updated, keeps what it holds. -/
theorem AddressStep.dp (h : AddressStep t u rs r v) {d : DPReg} (hd : dpAll d ≠ r) : u.dp d = t.dp d := by
  cases h with
  | kept r => rfl
  | pointer p v =>
    cases d with
    | d d => rfl
    | p d => exact setP_p_other (fun e => hd (congrArg AllReg.p e)) t v
  | index i v => cases d <;> rfl

/-- Post-modification of a pointer by the size of the access (R901 to R903). -/
theorem addressStep_postP (t : State) (m : PostMod) (p : PReg) (n : Nat) :
    AddressStep t (t.postP m p n) (ifPost m (.p p)) (.p p) (postValue m (t.p p) n) := by
  cases m with
  | inc | dec => exact .pointer p _
  | keep => exact .kept (.p p)

/-- Post-modification of an index by the size of the access, in its circular buffer (R907, R908). -/
theorem addressStep_postI (t : State) (m : PostMod) (i : DagN) (n : Nat) :
    AddressStep t (t.postI m i n) (ifPost m (.i i)) (.i i) (postIndex t m i n) := by
  cases m with
  | inc | dec => exact .index i _
  | keep => exact .kept (.i i)

/-- Post-modification by another pointer; the pattern with one pointer twice keeps it (R906, R920). -/
theorem addressStep_addPOrKeep (t : State) (p q : PReg) :
    AddressStep t (t.addPOrKeep p q) (if p = q then [] else [.p p]) (.p p) (if p = q then t.p p else t.p p + t.p q) := by
  unfold State.addPOrKeep
  split
  · exact .kept (.p p)
  · exact .pointer p _

end

/-! ## One access -/

section

variable {i : Instr} {len : Nat} {rs : List AllReg} {r : AllReg} {v w : Word} {P : State → Prop}

/-- An instruction that loads a data or pointer register and updates its address register. -/
theorem completes_load {d : DPReg} (h : s.plain a n) {f : Nat → State → State} (e : exec i s = s.loading len a n f)
    (hstep : AddressStep (s.setDp d w) (f (loaded s a.toNat n) s) rs r v) (hd : dpAll d ≠ r)
    (hP : ∀ u, u.dp d = w → u.readReg r = v → P u) : Completes i s len ([dpAll d] ++ rs) [] noBytes P := by
  have written : Frame s (s.setDp d w) ([dpAll d] ++ rs) [] noBytes :=
    Frame.setDp (Frame.refl _ _ _ _) (fun _ hx => hx ▸ List.mem_cons_self) (fun _ hx => hx ▸ List.mem_cons_self) w
  have taken : (s.setDp d w).dp d = w := (dp_setDp s d d w).trans (if_pos rfl)
  exact ⟨_, e.trans (loading_plain h len f), congrArg Issue.slot (hstep.issue.trans (setDp_issue s d w)),
    hstep.frame written (List.subset_cons_self _ _), hP _ ((hstep.dp hd).trans taken) hstep.readReg⟩

/-- An instruction that loads a data or pointer register and does nothing else. -/
theorem completes_loadOnly {d : DPReg} (h : s.plain a n) {value : Nat → Word}
    (e : exec i s = s.loading len a n fun v s => s.setDp d (value v))
    (hP : ∀ u, u.dp d = value (loaded s a.toNat n) → P u) : Completes i s len [dpAll d] [] noBytes P := by
  have hname : dpName d = dpAll d := by cases d <;> rfl
  exact hname ▸ completes_setDp (e.trans (loading_plain h len _)) hP

/-- An instruction that stores a register and updates its address register. -/
theorem completes_store (hn : 0 < n ∧ n ≤ 4) (h : s.plain a n) {f : State → State}
    (e : exec i s = s.storing len a n w f)
    (hstep : AddressStep (s.pend a.toNat n (w.toNat % 2 ^ (8 * n))) (f (s.pend a.toNat n (w.toNat % 2 ^ (8 * n)))) rs r v)
    (hP : ∀ u, u.holds a.toNat n w → u.readReg r = v → P u) : Completes i s len rs [] (bytesAt a.toNat n) P :=
  ⟨_, e.trans (storing_plain h len w f), congrArg Issue.slot hstep.issue,
    hstep.frame (Frame.pend (Frame.refl _ _ _ _) hn.1 (fun _ hx => hx) _) (List.Subset.refl _),
    hP _ (hstep.holds (pend_holds s _ n w hn.2)) hstep.readReg⟩

end

/-- The long offset of a byte access counts bytes (R542). -/
theorem eaLong_one (s : State) (p : PReg) (o : BitVec 16) : s.eaLong p o 1 = s.p p + BitVec.ofInt 32 o.toInt := by
  rw [State.eaLong, Nat.cast_one, one_mul]

end
/-! ## Loads (R901 to R909, R912, R915 to R922) -/

/-- Settles O40: each form takes what the access gives and moves its pointer on; a pointer loaded through itself, which the
form then keeps, is written once. -/
theorem loadsPostModified : Obligations.LoadsPostModified := by
  intro a d p s x rs
  refine ⟨fun h => ⟨?word, fun q hq => ?pointer⟩, fun h => ⟨?halfZ, ?halfX⟩, fun h => ⟨?byteZ, ?byteX⟩⟩
  case word =>
    exact completes_load (d := .d d) h rfl (addressStep_postP _ a p 4) nofun fun _ hd hp =>
      ⟨hd.trans (loadZ_loaded_word s _), hp⟩
  case pointer =>
    have allowed : ¬ (q = p ∧ a ≠ .keep) := fun ⟨hsame, hpost⟩ => hq.elim (· hsame) hpost
    have e : exec (.loadP a q p) s = s.loading 2 (s.p p) 4 fun v s => (s.setP q (loadZ v)).postP a p 4 := if_neg allowed
    rcases eq_or_ne q p with rfl | hne
    · obtain rfl : a = .keep := hq.resolve_left (· rfl)
      exact completes_loadOnly (d := .p q) h e fun _ hd => ⟨hd.trans (loadZ_loaded_word s _), absurd rfl⟩
    · refine completes_load (d := .p q) h e (addressStep_postP _ a p 4) (fun hname => hne (AllReg.p.inj hname)) ?_
      exact fun _ hd hp =>
        ⟨hd.trans (loadZ_loaded_word s _), fun _ => hp.trans (congrArg (postValue a · 4) (setP_p_other hne.symm s _))⟩
  case halfZ =>
    exact completes_load (d := .d d) h rfl (addressStep_postP _ a p 2) nofun fun _ hd hp =>
      ⟨(congrArg BitVec.toNat hd).trans (toNat_loadZ_half s _), hp⟩
  case halfX =>
    exact completes_load (d := .d d) h rfl (addressStep_postP _ a p 2) nofun fun _ hd hp =>
      ⟨(congrArg BitVec.toInt hd).trans (toInt_loadX_half s _), hp⟩
  case byteZ =>
    exact completes_load (d := .d d) h rfl (addressStep_postP _ a p 1) nofun fun _ hd hp =>
      ⟨(congrArg BitVec.toNat hd).trans (toNat_loadZ_byte s _), hp⟩
  case byteX =>
    exact completes_load (d := .d d) h rfl (addressStep_postP _ a p 1) nofun fun _ hd hp =>
      ⟨(congrArg BitVec.toInt hd).trans (toInt_loadX_byte s _), hp⟩

/-- Settles O41: each form is one write of its destination with what the access gives. -/
theorem loadsOffset : Obligations.LoadsOffset := by
  intro d q p s
  refine ⟨fun o => ⟨fun h => ⟨?shortD, ?shortP⟩, fun h => ⟨?shortWZ, ?shortWX⟩⟩,
    fun o => ⟨fun h => ⟨?longD, ?longP⟩, fun h => ⟨?longWZ, ?longWX⟩, fun h => ?longB⟩, fun r o h => ?fp⟩
  case shortD | longD => exact completes_loadOnly (d := .d d) h rfl fun _ hd => hd.trans (loadZ_loaded_word s _)
  case shortP | longP => exact completes_loadOnly (d := .p q) h rfl fun _ hd => hd.trans (loadZ_loaded_word s _)
  case shortWZ | longWZ =>
    exact completes_loadOnly (d := .d d) h rfl fun _ hd => (congrArg BitVec.toNat hd).trans (toNat_loadZ_half s _)
  case shortWX | longWX =>
    exact completes_loadOnly (d := .d d) h rfl fun _ hd => (congrArg BitVec.toInt hd).trans (toInt_loadX_half s _)
  case longB =>
    rw [← eaLong_one] at h ⊢
    exact ⟨completes_loadOnly (d := .d d) h rfl fun _ hd => (congrArg BitVec.toNat hd).trans (toNat_loadZ_byte s _),
      completes_loadOnly (d := .d d) h rfl fun _ hd => (congrArg BitVec.toInt hd).trans (toInt_loadX_byte s _)⟩
  case fp => exact completes_loadOnly h rfl fun _ hd => hd.trans (loadZ_loaded_word s _)

/-- Settles O42: each form takes what the access gives, a half form keeping the other half, and moves its address register
on. -/
theorem loadsIndexed : Obligations.LoadsIndexed := by
  refine ⟨fun d p q s => ⟨fun h hne => ?word, fun h => ⟨?lo, ?hi, fun hne => ⟨?halfZ, ?halfX⟩⟩⟩,
    fun a d i m s => ⟨fun h => ⟨?wordI, ?wordIM⟩, fun h => ⟨?loI, ?hiI⟩⟩⟩
  case word =>
    exact completes_load (d := .d d) h (if_neg hne) (.pointer p _) nofun fun _ hd hp =>
      ⟨hd.trans (loadZ_loaded_word s _), hp⟩
  case halfZ =>
    exact completes_load (d := .d d) h (if_neg hne) (.pointer p _) nofun fun _ hd hp =>
      ⟨(congrArg BitVec.toNat hd).trans (toNat_loadZ_half s _), hp⟩
  case halfX =>
    exact completes_load (d := .d d) h (if_neg hne) (.pointer p _) nofun fun _ hd hp =>
      ⟨(congrArg BitVec.toInt hd).trans (toInt_loadX_half s _), hp⟩
  case lo | hi =>
    have names : [AllReg.d d] ++ (if p = q then [] else [.p p]) = if p = q then [.d d] else [.d d, .p p] :=
      apply_ite ([AllReg.d d] ++ ·) (p = q) [] [.p p]
    rw [← names]
    exact completes_load (d := .d d) h rfl (addressStep_addPOrKeep _ p q) nofun fun _ hd hp => ⟨halfTook_loaded hd, hp⟩
  case wordI =>
    exact completes_load (d := .d d) h rfl (addressStep_postI _ a i 4) nofun fun _ hd hi =>
      ⟨hd.trans (loadZ_loaded_word s _), hi⟩
  case wordIM =>
    exact completes_load (d := .d d) h rfl (.index i _) nofun fun _ hd hi => ⟨hd.trans (loadZ_loaded_word s _), hi⟩
  case loI | hiI =>
    exact completes_load (d := .d d) h rfl (addressStep_postI _ a i 2) nofun fun _ hd hi => ⟨halfTook_loaded hd, hi⟩

/-! ## Stores (R901 to R909, R923 to R928) -/

/-- Settles O43: each form adds its register's bytes to the pending stores and moves its address register on. -/
theorem stores : Obligations.Stores := by
  refine ⟨fun a r q p s => ⟨fun h => ⟨?word, ?pointer, fun hne => ?wordIdx⟩, fun h => ⟨?half, ?lo, ?hi⟩, fun h => ?byte⟩,
    fun p o r q s => ⟨fun h => ⟨?shortD, ?shortP⟩, fun h => ?shortW⟩,
    fun p o r q s => ⟨fun h => ⟨?longD, ?longP⟩, fun h => ?longW, fun h => ?longB⟩, fun o r s h => ?fp,
    fun a i m r s => ⟨fun h => ⟨?wordI, ?wordIM⟩, fun h => ⟨?loI, ?hiI⟩⟩⟩
  case word | pointer | half | byte =>
    exact completes_store (by decide) h rfl (addressStep_postP _ a p _) fun _ hm hp => ⟨hm, hp⟩
  case wordIdx => exact completes_store (by decide) h (if_neg hne) (.pointer p _) fun _ hm hp => ⟨hm, hp⟩
  case lo =>
    exact completes_store (by decide) h rfl (addressStep_addPOrKeep _ p q) fun _ hm hp => ⟨half_of_holds hm, hp⟩
  case hi =>
    exact completes_store (by decide) h rfl (addressStep_addPOrKeep _ p q) fun _ hm hp =>
      ⟨(half_of_holds hm).trans (half_lo_zeroExtend _), hp⟩
  case shortD | shortP | shortW | longD | longP | longW | fp =>
    exact completes_store (by decide) h rfl (.kept (.p .fp)) fun _ hm _ => hm
  case longB =>
    rw [← eaLong_one] at h ⊢
    exact completes_store (by decide) h rfl (.kept (.p p)) fun _ hm _ => hm
  case wordI => exact completes_store (by decide) h rfl (addressStep_postI _ a i 4) fun _ hm hi => ⟨hm, hi⟩
  case wordIM => exact completes_store (by decide) h rfl (.index i _) fun _ hm hi => ⟨hm, hi⟩
  case loI =>
    exact completes_store (by decide) h rfl (addressStep_postI _ a i 2) fun _ hm hi => ⟨half_of_holds hm, hi⟩
  case hiI =>
    exact completes_store (by decide) h rfl (addressStep_postI _ a i 2) fun _ hm hi =>
      ⟨(half_of_holds hm).trans (half_lo_zeroExtend _), hi⟩

end Sys2Proof.Proofs
end

section
/-!
Push and pop multiple, LINK and UNLINK (46_system.md R1018 to R1020): the registers of a push or pop multiple, words that
are pushed below an address or popped above it where nothing stands in the way of the accesses, and how the instructions
complete.
-/

namespace Sys2Proof.Proofs

open Machine Laws

section

variable {s t : State} {a : Word} {rs : List AllReg} {fs : List FlagName} {st : Nat → Prop}

/-! ## The registers of a push or pop multiple (R1018) -/

section

variable {m : MultiRegs} {d : DReg} {p : PReg} {k : Nat}

theorem dRange_some (d : DReg) :
    dRange (some d) = (List.range (8 - d.num)).map fun k => DReg.ofField (d.num + k) := by
  cases d <;> rfl

theorem pRange_some (hp : p.num ≤ 5) :
    pRange (some p) = (List.range (6 - p.num)).map fun k => PReg.ofField (p.num + k) := by
  revert hp
  cases p <;> decide

theorem dRange_sublist (d : Option DReg) : (dRange d).Sublist [.r0, .r1, .r2, .r3, .r4, .r5, .r6, .r7] := by
  cases d with
  | none => exact List.nil_sublist _
  | some d => exact List.dropWhile_sublist _

theorem pRange_sublist (p : Option PReg) : (pRange p).Sublist [.p0, .p1, .p2, .p3, .p4, .p5] := by
  cases p with
  | none => exact List.nil_sublist _
  | some p => exact List.dropWhile_sublist _

theorem multiList_length (m : MultiRegs) : (multiList m).length = (dRange m.d).length + (pRange m.p).length := by
  simp [multiList]

theorem multiList_length_le (m : MultiRegs) : (multiList m).length ≤ 14 := by
  have hd := (dRange_sublist m.d).length_le
  have hp := (pRange_sublist m.p).length_le
  simp only [List.length_cons, List.length_nil] at hd hp
  rw [multiList_length]
  omega

theorem multiList_data (hd : m.d = some d) (hk : k < 8 - d.num) :
    (multiList m)[k]? = some (.d (DReg.ofField (d.num + k))) := by
  rw [multiList, hd, dRange_some, List.getElem?_append_left (by simpa using hk)]
  simp [hk]

/-- The pointer registers follow the data registers. -/
theorem multiList_pointer (hp : m.p = some p) (hp5 : p.num ≤ 5) (hk : k < 6 - p.num) :
    (multiList m)[(dRange m.d).length + k]? = some (.p (PReg.ofField (p.num + k))) := by
  rw [multiList, hp, pRange_some hp5, List.getElem?_append_right (by simp)]
  simp [hk]

theorem multiList_nodup (m : MultiRegs) : (multiList m).Nodup := by
  have hd := (dRange_sublist m.d).nodup (by decide)
  have hp := (pRange_sublist m.p).nodup (by decide)
  refine (hd.map fun _ _ => DPReg.d.inj).append (hp.map fun _ _ => DPReg.p.inj) fun r hr hr' => ?_
  obtain ⟨d, -, rfl⟩ := List.mem_map.mp hr
  obtain ⟨p, -, hp⟩ := List.mem_map.mp hr'
  exact nomatch hp

/-- SP is none of the registers. -/
theorem sp_notMem_multiList (m : MultiRegs) : DPReg.p .sp ∉ multiList m := by
  intro h
  rcases List.mem_append.mp h with h | h
  · obtain ⟨d, -, hd⟩ := List.mem_map.mp h
    exact nomatch hd
  · obtain ⟨p, hp, hsp⟩ := List.mem_map.mp h
    obtain rfl := DPReg.p.inj hsp
    exact absurd ((pRange_sublist m.p).subset hp) (by decide)

end

/-! ## Words pushed (R1018, R1020) -/

/-- The `k`-th word below the address `a`. -/
def wordBelow (a : Word) (k : Nat) : Word := a - BitVec.ofNat 32 (4 * (k + 1))

theorem four_add_ofNat (n : Nat) : 4 + BitVec.ofNat 32 (4 * n) = BitVec.ofNat 32 (4 * (n + 1)) := by
  rw [Nat.mul_succ, Nat.add_comm, BitVec.ofNat_add]
  rfl

theorem wordBelow_next (a : Word) (k : Nat) : wordBelow (a - 4) k = wordBelow a (k + 1) := by
  rw [wordBelow, wordBelow, sub_sub, four_add_ofNat]

/-- Words at different aligned places below an address have no byte in common. -/
theorem wordBelow_apart {j k : Nat} (hjk : j ≠ k) (hj : j < 2 ^ 29) (hk : k < 2 ^ 29)
    (haj : (wordBelow a j).toNat % 4 = 0) (hak : (wordBelow a k).toNat % 4 = 0) {x : Nat}
    (hx : bytesAt (wordBelow a j).toNat 4 x) : ¬ bytesAt (wordBelow a k).toNat 4 x := by
  simp only [wordBelow, bytesAt, BitVec.toNat_sub, BitVec.toNat_ofNat] at *
  omega

/-- The state in which stores of the words `vs`, one below the other from `a` down, have joined the pending ones. -/
def pushed (s : State) (a : Word) : List Word → State
  | [] => s
  | v :: vs => pushed (s.pend (a - 4).toNat 4 v.toNat) (a - 4) vs

theorem pushWords_plain {vs : List Word} (h : ∀ k < vs.length, s.plain (wordBelow a k) 4) :
    s.pushWords a vs = .ok (a - BitVec.ofNat 32 (4 * vs.length)) (pushed s a vs) := by
  induction vs generalizing s a with
  | nil => simp [State.pushWords, pushed]
  | cons v vs ih =>
    have rest : ∀ k < vs.length, (s.pend (a - 4).toNat 4 v.toNat).plain (wordBelow (a - 4) k) 4 := fun k hk =>
      wordBelow_next a k ▸ h (k + 1) (Nat.succ_lt_succ hk)
    have first : s.store (a - 4) 4 v.toNat = _ := store_plain (h 0 (Nat.succ_pos _)) v.toNat
    rw [State.pushWords, first, List.length_cons, ← four_add_ofNat, ← sub_sub]
    exact ih rest

theorem pushed_issue (s : State) (a : Word) (vs : List Word) : (pushed s a vs).issue = s.issue := by
  induction vs generalizing s a with
  | nil => rfl
  | cons v vs ih => exact ih _ _

theorem frame_pushed {vs : List Word} (h : Frame s t rs fs st)
    (hst : ∀ k < vs.length, ∀ x, bytesAt (wordBelow a k).toNat 4 x → st x) : Frame s (pushed t a vs) rs fs st := by
  induction vs generalizing t a with
  | nil => exact h
  | cons v vs ih =>
    exact ih (Frame.pend h (by decide) (hst 0 (Nat.succ_pos _)) _) fun k hk =>
      wordBelow_next a k ▸ hst (k + 1) (Nat.succ_lt_succ hk)

/-- Stores to other bytes leave a value to be seen where it is. -/
theorem holds_of_frame {x n : Nat} {v : Word} (h : s.holds x n v) (hf : Frame s t rs fs st)
    (hst : ∀ k < n, ¬ st (x + k)) : t.holds x n v := by
  intro k hk
  obtain ⟨-, -, same⟩ := hf.mem
  rw [(same _ (hst k hk)).1, h k hk]

theorem pend_word_holds (s : State) (x : Nat) (v : Word) : (s.pend x 4 v.toNat).holds x 4 v := by
  have whole := pend_holds s x 4 v (Nat.le_refl 4)
  rwa [Nat.mod_eq_of_lt v.isLt] at whole

/-- Each word that has been pushed is seen at its place. -/
theorem pushed_holds {vs : List Word} (hlen : vs.length < 2 ^ 29)
    (hal : ∀ k < vs.length, (wordBelow a k).toNat % 4 = 0) {k : Nat} {v : Word} (hv : vs[k]? = some v) :
    (pushed s a vs).holds (wordBelow a k).toNat 4 v := by
  induction vs generalizing s a k with
  | nil => exact nomatch hv
  | cons w vs ih =>
    rw [List.length_cons] at hlen hal
    have hnext : ∀ k < vs.length, (wordBelow (a - 4) k).toNat % 4 = 0 := fun k hk =>
      wordBelow_next a k ▸ hal (k + 1) (Nat.succ_lt_succ hk)
    cases k with
    | zero =>
      obtain rfl : w = v := Option.some.inj hv
      have below : Frame (s.pend (a - 4).toNat 4 w.toNat) (pushed (s.pend (a - 4).toNat 4 w.toNat) (a - 4) vs) [] []
          fun x => ∃ k < vs.length, bytesAt (wordBelow a (k + 1)).toNat 4 x :=
        frame_pushed (Frame.refl _ _ _ _) fun k hk x hx => ⟨k, hk, wordBelow_next a k ▸ hx⟩
      refine holds_of_frame (pend_word_holds s (a - 4).toNat w) below ?_
      rintro j hj ⟨k, hk, hx⟩
      exact wordBelow_apart (Nat.succ_ne_zero k) (by omega) (by omega) (hal (k + 1) (by omega)) (hal 0 (by omega)) hx
        ⟨Nat.le_add_right _ _, Nat.add_lt_add_left hj _⟩
    | succ k =>
      rw [← wordBelow_next]
      exact ih (by omega) hnext hv

/-! ## Words popped (R1019, R1020) -/

/-- The `k`-th word from the address `a` up. -/
def wordAbove (a : Word) (k : Nat) : Word := a + BitVec.ofNat 32 (4 * k)

theorem wordAbove_next (a : Word) (k : Nat) : wordAbove (a + 4) k = wordAbove a (k + 1) := by
  rw [wordAbove, wordAbove, add_assoc, four_add_ofNat]

theorem popWords_plain {n : Nat} (h : ∀ k < n, s.plain (wordAbove a k) 4) :
    s.popWords a n = .ok ((List.range n).map fun k => s.word (wordAbove a k).toNat) s := by
  induction n generalizing a with
  | zero => rfl
  | succ n ih =>
    have first : wordAbove a 0 = a := BitVec.add_zero a
    have rest := ih fun k hk => wordAbove_next a k ▸ h (k + 1) (Nat.succ_lt_succ hk)
    rw [State.popWords, load_plain (first ▸ h 0 (Nat.succ_pos _)), List.range_succ_eq_map, List.map_cons, List.map_map,
      first]
    simp only [Res.bind, rest, loadZ_word, wordAbove_next]
    rfl

/-! ## Several registers written at once (R1019) -/

theorem frame_setDps {l : List (DPReg × Word)} (h : Frame s t rs fs st) (hrs : ∀ x ∈ l, dpAll x.1 ∈ rs) :
    Frame s (t.setDps l) rs fs st := by
  induction l generalizing t with
  | nil => exact h
  | cons x l ih =>
    have hx := hrs x List.mem_cons_self
    exact ih (Frame.setDp h (fun d hd => by rwa [hd] at hx) (fun p hp => by rwa [hp] at hx) x.2) fun y hy =>
      hrs y (List.mem_cons_of_mem _ hy)

theorem setDps_issue (s : State) (l : List (DPReg × Word)) : (s.setDps l).issue = s.issue := by
  induction l generalizing s with
  | nil => rfl
  | cons x l ih => exact (ih _).trans (setDp_issue s x.1 x.2)

theorem dp_setDps_other {l : List (DPReg × Word)} {r : DPReg} (h : r ∉ l.map Prod.fst) (s : State) :
    (s.setDps l).dp r = s.dp r := by
  induction l generalizing s with
  | nil => rfl
  | cons x l ih =>
    rw [List.map_cons, List.mem_cons, not_or] at h
    exact (ih h.2 _).trans ((dp_setDp s x.1 r x.2).trans (if_neg h.1))

theorem dp_setDps {l : List (DPReg × Word)} (hl : (l.map Prod.fst).Nodup) {r : DPReg} {v : Word} (h : (r, v) ∈ l)
    (s : State) : (s.setDps l).dp r = v := by
  induction l generalizing s with
  | nil => exact absurd h List.not_mem_nil
  | cons x l ih =>
    rw [List.map_cons, List.nodup_cons] at hl
    rcases List.mem_cons.mp h with rfl | h
    · exact (dp_setDps_other hl.1 _).trans ((dp_setDp s r r v).trans (if_pos rfl))
    · exact ih hl.2 h _

/-! ## The instructions (R1018 to R1020) -/

/-- What push multiple pushes lies apart, so each word is still seen when the last has been pushed. -/
theorem completes_pushMulti (m : MultiRegs) (h : ∀ k < (multiList m).length, s.plain (wordBelow (s.p .sp) k) 4) :
    Completes (.pushMulti m) s 2 [.p .sp] []
      (fun x => ∃ k, k < (multiList m).length ∧ bytesAt (wordBelow (s.p .sp) k).toNat 4 x) fun u =>
        (∀ k r, (multiList m)[k]? = some r → u.holds (wordBelow (s.p .sp) k).toNat 4 (s.dp r)) ∧
          u.p .sp = s.p .sp - BitVec.ofNat 32 (4 * (multiList m).length) := by
  let vs := (multiList m).map s.dp
  have hlen : vs.length = (multiList m).length := List.length_map _
  have hplain : ∀ k < vs.length, s.plain (wordBelow (s.p .sp) k) 4 := fun k hk => h k (hlen ▸ hk)
  have hshort := multiList_length_le m
  refine ⟨(pushed s (s.p .sp) vs).setP .sp (s.p .sp - BitVec.ofNat 32 (4 * vs.length)), ?exec,
    congrArg Issue.slot (pushed_issue s _ vs), ?frame, ?held, ?sp⟩
  case exec =>
    change execPushMulti m s = _
    rw [execPushMulti, pushWords_plain hplain]
    rfl
  case frame =>
    exact Frame.setP (frame_pushed (Frame.refl _ _ _ _) fun k hk x hx => ⟨k, hlen ▸ hk, hx⟩) List.mem_cons_self _
  case held =>
    intro k r hr
    have hv : vs[k]? = some (s.dp r) := by simp [vs, hr]
    exact pushed_holds (s := s) (by omega) (fun k hk => (hplain k hk).1) hv
  case sp => rw [setP_p_same, hlen]

/-- The registers of pop multiple are all different and none is SP, so each keeps the word that it takes. -/
theorem completes_popMulti (m : MultiRegs)
    (h : ∀ k < (multiList m).reverse.length, s.plain (wordAbove (s.p .sp) k) 4) :
    Completes (.popMulti m) s 2 (.p .sp :: (multiList m).reverse.map dpAll) [] noBytes fun u =>
      (∀ k r, (multiList m).reverse[k]? = some r → u.dp r = s.word (wordAbove (s.p .sp) k).toNat) ∧
        u.p .sp = s.p .sp + BitVec.ofNat 32 (4 * (multiList m).reverse.length) := by
  let regs := (multiList m).reverse
  let vs := (List.range regs.length).map fun k => s.word (wordAbove (s.p .sp) k).toNat
  let t := s.setDps (regs.zip vs)
  have hkeys : (regs.zip vs).map Prod.fst = regs := List.map_fst_zip (by simp [vs])
  refine ⟨t.setP .sp (s.p .sp + BitVec.ofNat 32 (4 * regs.length)), ?exec, congrArg Issue.slot (setDps_issue s _), ?frame,
    fun k r hr => ?taken, setP_p_same t .sp _⟩
  case exec =>
    change execPopMulti m s = _
    simp only [execPopMulti, popWords_plain h]
    rfl
  case frame =>
    refine Frame.setP (frame_setDps (Frame.refl _ _ _ _) fun x hx => ?_) List.mem_cons_self _
    exact List.mem_cons_of_mem _ (List.mem_map_of_mem (List.of_mem_zip (a := x.1) (b := x.2) hx).1)
  case taken =>
    have hv : vs[k]? = some (s.word (wordAbove (s.p .sp) k).toNat) := by
      rw [List.getElem?_map, List.getElem?_range (List.getElem?_eq_some_iff.mp hr).1, Option.map_some]
    have hmem : (r, s.word (wordAbove (s.p .sp) k).toNat) ∈ regs.zip vs :=
      List.mem_of_getElem? (List.getElem?_zip_eq_some.mpr ⟨hr, hv⟩)
    have hsp : dpAll r ≠ .p .sp := by
      intro e
      obtain rfl : r = .p .sp := by
        cases r with
        | d d => exact nomatch e
        | p p => exact congrArg DPReg.p (AllReg.p.inj e)
      exact sp_notMem_multiList m (List.mem_reverse.mp (List.mem_of_getElem? hr))
    exact ((AddressStep.pointer .sp _).dp hsp).trans
      (dp_setDps (hkeys.symm ▸ List.nodup_reverse.mpr (multiList_nodup m)) hmem s)

/-- LINK pushes RETS and FP; FP marks the frame and SP goes below it. -/
theorem completes_link {n : BitVec 16} (hn : 2 ≤ n.toNat) (h0 : s.plain (s.p .sp - 4) 4) (h1 : s.plain (s.p .sp - 8) 4) :
    Completes (.link n) s 4 [.p .sp, .p .fp] []
      (fun x => bytesAt (s.p .sp - 4).toNat 4 x ∨ bytesAt (s.p .sp - 8).toNat 4 x) fun u =>
        u.holds (s.p .sp - 4).toNat 4 s.cur.rets ∧ u.holds (s.p .sp - 8).toNat 4 (s.p .fp) ∧ u.p .fp = s.p .sp - 8 ∧
          u.p .sp = s.p .sp - 8 - BitVec.ofNat 32 (4 * n.toNat) := by
  let vs := [s.cur.rets, s.p .fp]
  let t := pushed s (s.p .sp) vs
  have hplain : ∀ k < vs.length, s.plain (wordBelow (s.p .sp) k) 4
    | 0, _ => h0
    | 1, _ => h1
  have held {k : Nat} {v : Word} (hv : vs[k]? = some v) : t.holds (wordBelow (s.p .sp) k).toNat 4 v :=
    pushed_holds (by simp [vs]) (fun k hk => (hplain k hk).1) hv
  refine ⟨(t.setP .fp (s.p .sp - 8)).setP .sp (s.p .sp - 8 - BitVec.ofNat 32 (4 * n.toNat)), ?exec, rfl, ?frame,
    held (k := 0) rfl, held (k := 1) rfl, ?fp, setP_p_same _ _ _⟩
  case exec =>
    change execLink n s = _
    rw [execLink, if_neg (Nat.not_lt.mpr hn), pushWords_plain hplain]
    rfl
  case frame =>
    refine Frame.setP (Frame.setP (frame_pushed (Frame.refl _ _ _ _) ?_) (by simp) _) (by simp) _
    exact fun
      | 0, _, _, hx => .inl hx
      | 1, _, _, hx => .inr hx
  case fp => exact (setP_p_other (by decide) _ _).trans (setP_p_same t .fp _)

/-- UNLINK restores FP and RETS from the frame, and SP to what it was before LINK. -/
theorem completes_unlink (h0 : s.plain (s.p .fp) 4) (h1 : s.plain (s.p .fp + 4) 4) :
    Completes .unlink s 4 [.p .sp, .p .fp, .rets] [] noBytes fun u =>
      u.p .fp = s.word (s.p .fp).toNat ∧ u.cur.rets = s.word (s.p .fp + 4).toNat ∧ u.p .sp = s.p .fp + 8 := by
  let t := s.setP .fp (s.word (s.p .fp).toNat)
  have first : wordAbove (s.p .fp) 0 = s.p .fp := BitVec.add_zero _
  have hplain : ∀ k < 2, s.plain (wordAbove (s.p .fp) k) 4
    | 0, _ => first.symm ▸ h0
    | 1, _ => h1
  refine ⟨(t.setP .sp (s.p .fp + 8)).writeReg .rets (s.word (s.p .fp + 4).toNat), ?exec, rfl, ?frame, ?fp, rfl,
    setP_p_same t .sp _⟩
  case exec =>
    change execUnlink s = _
    rw [execUnlink, popWords_plain hplain, List.range_succ_eq_map, List.map_cons, first]
    rfl
  case frame =>
    exact Frame.writeReg (r := .rets) (Frame.setP (Frame.setP (Frame.refl _ _ _ _) (by simp) _) (by simp) _)
      (by simp [changedBy]) nofun nofun _
  case fp => exact (setP_p_other (by decide) _ _).trans (setP_p_same s .fp _)

end

/-- Settles O54: the list of the registers is read off its two ranges, and each instruction is one of the cases above. -/
theorem stackFrames : Obligations.StackFrames := by
  refine ⟨fun m => ⟨?none, fun d hd => ⟨fun k hk => multiList_data hd hk, ?dataOnly, ?both⟩, ?pointerOnly⟩,
    fun m _ h => completes_pushMulti m h, fun m _ _ h => completes_popMulti m h, fun _ _ hn h0 h1 => completes_link hn h0 h1,
    fun _ h0 h1 => completes_unlink h0 h1⟩
  case none =>
    intro hd hp
    rw [multiList, hd, hp]
    rfl
  case dataOnly =>
    intro hp
    simp [multiList_length, hd, hp, dRange_some, pRange]
  case both =>
    intro p hp hp5
    have hlen : (dRange m.d).length = 8 - d.num := by simp [hd, dRange_some]
    exact ⟨by simp [multiList_length, hlen, hp, pRange_some hp5], fun k hk => hlen ▸ multiList_pointer hp hp5 hk⟩
  case pointerOnly =>
    intro p hd hp hp5
    have hlen : (dRange m.d).length = 0 := by rw [hd]; rfl
    refine ⟨by simp [multiList_length, hlen, hp, pRange_some hp5], fun k hk => ?_⟩
    have place := multiList_pointer hp hp5 hk
    rwa [hlen, Nat.zero_add] at place

end Sys2Proof.Proofs
end

section
/-!
The push and the pop of one register (46_system.md R1015 to R1017): what the update of SP and the effect on IPEND[4] leave,
and how the two instructions complete.
-/

namespace Sys2Proof.Proofs

open Machine Laws

section

variable {s t : State} {r : AllReg} {b : Bool}

/-! ## The mode and SP (R54, R1702) -/

/-- IPEND[4] is no event in service. -/
theorem user_setIntDisable (s : State) (r : AllReg) (b : Bool) : (s.setIntDisable r b).user = s.user := by
  have events (x : HWord) : (if b then x ||| 0x10 else x &&& 0xFFEF) &&& 0xFFEF = x &&& 0xFFEF := by
    cases b with
    | false => exact BitVec.and_assoc x 0xFFEF 0xFFEF
    | true =>
      have apart : ∀ j : Fin 16, ((0x10 : HWord).getLsbD j && (0xFFEF : HWord).getLsbD j) = false := by decide
      apply BitVec.eq_of_getLsbD_eq
      intro k hk
      simp only [if_true, BitVec.getLsbD_and, BitVec.getLsbD_or, Bool.and_or_distrib_right, apart ⟨k, hk⟩, Bool.or_false]
  unfold State.setIntDisable
  split
  · exact congrArg (· == 0) (events _)
  · rfl

theorem user_writeReg (s : State) (r : AllReg) (v : Word) : (s.writeReg r v).user = s.user := by
  cases r with
  | ax n | aw n | lc n | lt n | lb n => cases n <;> rfl
  | _ => rfl

/-- The stack pointer of the mode, after it has been written in that mode. -/
theorem sp_setP (ht : t.user = s.user) (v : Word) : (t.setP .sp v).cur.p.get s.user .sp = v :=
  ht ▸ setP_p_same t .sp v

/-- The effect on IPEND[4] and the update of a pointer register do not meet. -/
theorem setIntDisable_setP (t : State) (p : PReg) (v : Word) (r : AllReg) (b : Bool) :
    (t.setP p v).setIntDisable r b = (t.setIntDisable r b).setP p v := by
  have huser := user_setIntDisable t r b
  unfold State.setP
  rw [huser]
  unfold State.setIntDisable
  split <;> rfl

/-- RETI and IPEND[4] do not meet. -/
theorem setIntDisable_writeReg (t : State) (v : Word) (r : AllReg) (b : Bool) :
    (t.writeReg r v).setIntDisable r b = (t.setIntDisable r b).writeReg r v := by
  unfold State.setIntDisable
  split
  · next hr =>
    subst hr
    rfl
  · rfl

theorem setIntDisable_pend (t : State) (a n v : Nat) (r : AllReg) (b : Bool) :
    (t.pend a n v).setIntDisable r b = (t.setIntDisable r b).pend a n v := by
  unfold State.setIntDisable
  split <;> rfl

theorem setIntDisable_slot (t : State) (r : AllReg) (b : Bool) : (t.setIntDisable r b).issue.slot = t.issue.slot := by
  unfold State.setIntDisable
  split <;> rfl

/-- What a register other than SP has taken is there after SP has been updated. -/
theorem took_setP_sp {v w : Word} (h : t.took r v) (hr : r ≠ .p .sp) (husp : r = .usp → t.user = false) :
    (t.setP .sp w).took r v := by
  cases r with
  | p p => exact (setP_p_other (fun e => hr (congrArg AllReg.p e)) t w).trans h
  | usp =>
    have hsup := husp rfl
    change (t.cur.p.set t.user .sp w).usp = v
    rw [hsup, PRegs.usp_set_sup]
    exact h
  | _ => exact h

end

/-- Settles O53: the effect on IPEND[4] comes apart from the rest, which is a store or a load and an update of SP. -/
theorem pushPopRegister : Obligations.PushPopRegister := by
  refine ⟨fun r s hemu hmode h => ?push, fun r s hemu hsp hmode h => ?pop⟩
  case push =>
    let v := s.setIntDisable r false
    let x := (s.readReg r).toNat % 2 ^ (8 * 4)
    have allowed : ¬ (s.user && supervisorReg r) = true := by rcases hmode with e | e <;> simp [e]
    have hu : ((s.pend (s.p .sp - 4).toNat 4 x).setP .sp (s.p .sp - 4)).setIntDisable r false =
        (v.pend (s.p .sp - 4).toNat 4 x).setP .sp (s.p .sp - 4) := by
      rw [setIntDisable_setP, setIntDisable_pend]
    refine ⟨(v.pend (s.p .sp - 4).toNat 4 x).setP .sp (s.p .sp - 4), ?exec, setIntDisable_slot s r false, ?frame, ?held,
      sp_setP (user_setIntDisable s r false) _⟩
    case exec =>
      change execPushReg r s = _
      rw [execPushReg, if_neg allowed, if_neg hemu, ← hu]
      exact storing_plain h 2 _ _
    case frame => exact Frame.setP (Frame.pend (Frame.refl _ _ _ _) (by decide) (fun _ hx => hx) _) List.mem_cons_self _
    case held => exact pend_holds v _ 4 _ (Nat.le_refl 4)
  case pop =>
    let v := s.setIntDisable r true
    let w := s.word (s.p .sp).toNat
    have hvuser : v.user = s.user := user_setIntDisable s r true
    have allowed : ¬ (s.user && supervisorDest r) = true := by rcases hmode with e | e <;> simp [e]
    have husp : r = .usp → s.user = false := by
      rintro rfl
      exact hmode.resolve_right nofun
    have hu : ((s.writeReg r w).setP .sp (s.p .sp + 4)).setIntDisable r true =
        (v.writeReg r w).setP .sp (s.p .sp + 4) := by
      rw [setIntDisable_setP, setIntDisable_writeReg]
    have hwuser : (v.writeReg r w).user = s.user := (user_writeReg v r w).trans hvuser
    refine ⟨(v.writeReg r w).setP .sp (s.p .sp + 4), ?exec, ?slot, ?frame, ?taken, sp_setP hwuser _⟩
    case exec =>
      change execPopReg r s = _
      rw [execPopReg, if_neg allowed, if_neg hemu, if_neg hsp, ← hu]
      refine (loading_plain h 2 _).trans ?_
      rw [loadZ_word]
    case slot => exact (congrArg Issue.slot (writeReg_issue v r w)).trans (setIntDisable_slot s r true)
    case frame =>
      exact Frame.setP (Frame.writeReg (Frame.refl _ _ _ _) (fun _ hx => List.mem_append_left _ hx) (fun _ hf => hf)
        (fun e => hvuser.trans (husp e)) w) (List.mem_append_right _ List.mem_cons_self) _
    case taken => exact took_setP_sp (writeReg_took v hemu w) hsp fun e => hwuser.trans (husp e)

end Sys2Proof.Proofs
end

section
/-!
No-operations, synchronisation and the event system's instructions (46_system.md R1000 to R1004, R1007 to R1009): when a core
or the system is synchronised, and the core-only reset of RAISE 1 (70_reset_and_hazards.md R1924).
-/

namespace Sys2Proof.Proofs

open Machine Laws

section

variable {s v t : State} {i : Instr} {len : Nat} {rs : List AllReg} {fs : List FlagName} {st : Nat → Prop}
  {P : State → Prop}

/-! ## Synchronisation (R1008, R1009) -/

/-- A pending store to L1 memory or to a core MMR, which CSYNC waits for. -/
theorem inCore_iff (q : PendStore) :
    q.inCore = true ↔ (0xFF400000 ≤ q.addr ∧ q.addr < 0xFFC00000) ∨ 0xFFE00000 ≤ q.addr := by
  simp [PendStore.inCore]

theorem coreSynced_iff (c : Core) :
    c.coreSynced = true ↔ (∀ q ∈ c.stores, ¬ q.inCore = true) ∧ ∀ f, c.dfill = some f → f.stores = [] := by
  cases h : c.dfill <;> simp [Core.coreSynced, h]

theorem systemSynced_iff (s : State) :
    s.systemSynced = true ↔
      s.cur.stores = [] ∧ s.cur.dfill = none ∧ s.cur.ifill = none ∧ s.staleLine s.cur.id = false := by
  simp [State.systemSynced, and_assoc]

/-- While a store, a fill or a withdrawn request is under way the system is not synchronised. -/
theorem not_systemSynced
    (h : s.cur.stores ≠ [] ∨ s.cur.dfill ≠ none ∨ s.cur.ifill ≠ none ∨ s.staleLine s.cur.id = true) :
    ¬ s.systemSynced = true := by
  rw [systemSynced_iff]
  rintro ⟨hstores, hdfill, hifill, hstale⟩
  rcases h with h | h | h | h
  · exact h hstores
  · exact h hdfill
  · exact h hifill
  · exact absurd (hstale.symm.trans h) Bool.false_ne_true

/-! ## How the event system's instructions complete -/

/-- An instruction that is done in the state `v`, its only change. -/
theorem completesVia_done (e : exec i s = done len v) (hslot : v.issue.slot = s.issue.slot) (hP : P v) :
    CompletesVia i s v len rs fs st P :=
  ⟨v, e, hslot, Frame.refl _ _ _ _, hP⟩

theorem frame_setSeqstat (h : Frame s t rs fs st) (hr : .seqstat ∈ rs) (q : Seqstat) :
    Frame s (t.setCur { t.cur with seqstat := q }) rs fs st := by
  obtain ⟨hregs, hsp, hflags, hcore, hoth, hsys, hinputs, hmem, hout⟩ := h
  refine ⟨fun r hrs hastat husp => ?_, hsp, hflags, hcore, hoth, hsys, hinputs, hmem, hout⟩
  rw [← hregs r hrs hastat husp]
  cases r with
  | seqstat => exact absurd hr hrs
  | _ => rfl

/-- RAISE of an interrupt or of the NMI latches it (R1004). -/
theorem exec_raiseInt (huser : s.user = false) {n : BitVec 4} (hn : n = 2 ∨ 6 ≤ n.toNat) :
    exec (.raiseInt n) s = done 2 (s.latchRaise n.toNat) := by
  refine (supervisor_ok huser _).trans ?_
  rcases hn with rfl | hn
  · rfl
  · split <;> first | omega | rfl

/-! ## The core-only reset (R1924) -/

/-- That a cache becomes SRAM is a matter of memory alone. -/
theorem scrubCaches_only (s : State) (c : Core) : ∃ m k, s.scrubCaches c = { s with mem := m, free := k } := by
  have bank (on : Bool) (lo hi : Nat) (t : State) (ht : ∃ m k, t = { s with mem := m, free := k }) :
      ∃ m k, (if on then t.scrub lo hi else t) = { s with mem := m, free := k } := by
    obtain ⟨m, k, rfl⟩ := ht
    split
    · exact ⟨_, _, rfl⟩
    · exact ⟨m, k, rfl⟩
  exact bank _ _ _ _ (bank _ _ _ _ (bank _ _ _ _ ⟨s.mem, s.free, rfl⟩))

/-- The core is as a reset of the cores leaves it, in the values that the spec gives (R1928). -/
def atReset (c : Core) : Prop :=
  c.ev.imask = 0x001F ∧ c.ev.ilat = 0 ∧ c.seqstat.sftreset = true ∧ c.seqstat.excause = 0 ∧ c.stores = [] ∧
    c.idle = false ∧ c.dead = false ∧ c.dmem.endcplb = false ∧ c.imem.enicplb = false ∧ c.dmem.dmc = 0 ∧
    c.imem.imc = false ∧ c.tmr.tmpwr = false

theorem atReset_reset (u : Nat → Word) (id : CoreId) (pc : Word) : atReset (.reset u id pc true) :=
  ⟨rfl, rfl, rfl, rfl, rfl, rfl, rfl, rfl, rfl, rfl, rfl, rfl⟩

/-- What a reset of the cores does: both are as after a reset, the PLL Wakeup line falls, an access that a core has under way
on the external bus is abandoned; memory changes where caches become SRAM, and free values are drawn. -/
theorem resetCores_only (s : State) (again : Bool) : ∃ u w m k, s.resetCores again =
    { s with
      cur := .reset u .a (s.sys.ctl.resetVector again) again
      oth := .reset w .b 0xFF600000 again
      sys := { s.sys with ctl := { s.sys.ctl with coreBInit := true }
                          ebiu := { s.sys.ebiu with busy := s.sys.ebiu.busy.filter BusAccess.byDma }
                          power := { s.sys.power with wakeA := false, wakeB := false }
                          sic := { s.sys.sic with isr0 := s.sys.sic.isr0 &&& 0xFFFFFFFE }
                          sicB := { s.sys.sicB with isr0 := s.sys.sicB.isr0 &&& 0xFFFFFFFE } }
      mem := m, free := k, issue := .idle } := by
  obtain ⟨m, k, h⟩ := scrubCaches_only s s.cur
  obtain ⟨m', k', h'⟩ := scrubCaches_only (s.scrubCaches s.cur) s.oth
  rw [h] at h'
  simp only [State.resetCores, h, h']
  exact ⟨_, _, _, _, rfl⟩

/-- The state after the draw of the free value that SICA_SWRST bit 15 takes at a reset of the cores alone (R1923 (c)). -/
def drawResetStatus (s : State) : State :=
  let st := s.sys.ctl.stat
  { s with
    free := s.free + 1
    sys := { s.sys with ctl := { s.sys.ctl with stat := if Config.freeBit s.free then st ||| 0x10 else st &&& 0x0F } } }

theorem coreOnlyReset_eq (s : State) : s.coreOnlyReset = (drawResetStatus s).resetCores true := rfl

end

/-- Settles O48: CSYNC, SSYNC and IDLE go on just where the model's tests for a synchronised core and system say so; the rest
is read off the instruction, RAISE 1 off what a reset of the cores does. -/
theorem systemInstructions : Obligations.SystemInstructions := by
  intro s
  refine ⟨completes_unchanged rfl trivial, completes_unchanged rfl trivial, ?noAlign,
    ⟨?csync, ?csyncWaits, ?synced, ?waits⟩,
    fun huser => ⟨fun d => ?cli, fun r => ?sti, fun n hn => ?raise, ?raise5, ?raise1⟩⟩
  case noAlign =>
    exact ⟨{ s with issue := { s.issue with noAlign := true } }, rfl, rfl,
      Frame.of_same (Frame.refl s _ _ _) rfl rfl rfl rfl rfl rfl rfl, rfl⟩
  case csync =>
    intro hstores hfill hperf
    refine (if_pos ((coreSynced_iff _).mpr ⟨fun q hq h => hstores q hq ((inCore_iff q).mp h), hfill⟩)).trans ?_
    rw [count_off hperf]
    rfl
  case csyncWaits =>
    intro h
    refine if_neg fun hsync => ?_
    obtain ⟨hstores, hfill⟩ := (coreSynced_iff _).mp hsync
    rcases h with ⟨q, hq, hnear⟩ | ⟨f, hf, hne⟩
    · exact hstores q hq ((inCore_iff q).mpr hnear)
    · exact hne (hfill f hf)
  case synced =>
    intro hstores hdfill hifill hstale
    have hsync : s.systemSynced = true := (systemSynced_iff s).mpr ⟨hstores, hdfill, hifill, hstale⟩
    refine ⟨fun hperf => (if_pos hsync).trans ?_, fun huser => ?_⟩
    · rw [count_off hperf]
      rfl
    · exact (if_neg (by rw [huser]; decide)).trans (if_pos hsync)
  case waits =>
    intro h
    have hwait := not_systemSynced h
    exact ⟨if_neg hwait, fun huser => (if_neg (by rw [huser]; decide)).trans (if_neg hwait)⟩
  case cli =>
    refine ⟨(s.setEv { s.cur.ev with imask := s.cur.ev.imask &&& 0x001F }).setD d (s.cur.ev.imask.zeroExtend 32),
      supervisor_ok huser _, rfl, frame_setD _ d _ _, ?_, rfl⟩
    rw [setD_d_same]
    exact BitVec.toNat_setWidth_of_le (by decide)
  case sti => exact completesVia_done (supervisor_ok huser _) rfl trivial
  case raise => exact completesVia_done (exec_raiseInt huser hn) rfl trivial
  case raise5 =>
    exact ⟨_, supervisor_ok huser _, rfl, frame_setSeqstat (Frame.refl _ _ _ _) List.mem_cons_self _, rfl⟩
  case raise1 =>
    obtain ⟨u, w, m, k, h⟩ := resetCores_only (drawResetStatus s) true
    have hreset := (coreOnlyReset_eq s).trans h
    refine ⟨_, (supervisor_ok huser _).trans (congrArg Host.Outcome.next hreset), rfl, rfl, rfl, rfl, rfl,
      fun c hc => ?cores, rfl, rfl, rfl, rfl⟩
    case cores =>
      simp only [List.mem_cons, List.not_mem_nil, or_false] at hc
      rcases hc with rfl | rfl
      · exact atReset_reset _ _ _
      · exact atReset_reset _ _ _

end Sys2Proof.Proofs
end

section
/-!
TESTSET and cache control (46_system.md R1010 to R1014): the byte that TESTSET sets, the line fill of PREFETCH, what FLUSH,
FLUSHINV and IFLUSH leave of a line.
-/

namespace Sys2Proof.Proofs

open Machine Laws

section

variable {s t u v : State} {a : Word} {x : Nat}

/-! ## The byte of TESTSET (R1010) -/

theorem pendByte_none {ps : List PendStore} (h : ∀ q ∈ ps, ¬ (q.addr ≤ x ∧ x < q.addr + q.size)) :
    pendByte ps x = none := by
  induction ps using List.reverseRecOn with
  | nil => rfl
  | append_singleton ps q ih =>
    rw [pendByte_append, if_neg (h q (by simp))]
    exact ih fun p hp => h p (List.mem_append_left _ hp)

theorem pendByte_of_not_pendingIn (h : s.cur.pendingIn x 1 = false) : pendByte s.cur.stores x = none := by
  refine pendByte_none fun q hq => ?_
  have apart := List.any_eq_false.mp h q hq
  simp only [Bool.and_eq_true, decide_eq_true_eq] at apart
  omega

theorem loadN_one (m : Mem) (x : Nat) : m.loadN x 1 = (m.load x).toNat := rfl

theorem byte_of_not_pendingIn (h : s.cur.pendingIn x 1 = false) : s.byte x = s.mem.load x := by
  rw [State.byte, pendByte_of_not_pendingIn h]
  rfl

/-- A byte that has been stored to memory. -/
theorem load_storeN_byte (m : Mem) (a : Word) (b : Byte) : (m.storeN a.toNat 1 b.toNat).load a.toNat = b := by
  have hread : (m.storeN a.toNat 1 b.toNat).read a.toNat = some b := by
    rw [Mem.read_storeN, if_pos ⟨Nat.le_refl _, Nat.lt_succ_self _, a.isLt⟩]
    simp
  rw [Mem.load, hread]

/-- With the DCPLBs off, memory behind L1 of an even address raises nothing (R1010), and TESTSET is the locked access. -/
theorem exec_testset {p : PReg} (heven : (s.p p).getLsbD 0 = false) (hoff : s.cur.dmem.endcplb = false)
    (hwatch : s.cur.wp.iactl.getLsbD 0 = false)
    (hreg : s.cur.region (s.p p).toNat = .l2 ∨ s.cur.region (s.p p).toNat = .external) :
    exec (.testset p) s = (s.testset (s.p p).toNat).run fun _ t => done 2 t := by
  have hfixed (write : Bool) : s.cur.fixedViolation (s.p p) write s.dag1 = none := by
    rcases hreg with hreg | hreg <;> exact fixedViolation_memory (by simp [hreg]) _ _
  have htarget : testsetRegion (s.cur.region (s.p p).toNat) = true := by
    rcases hreg with hreg | hreg <;> rw [hreg] <;> rfl
  have unseen (write : Bool) : s.dataWatch (s.p p) write s.dag1 = s :=
    if_neg (by rw [hwatch]; decide)
  change execTestset p s = _
  simp only [execTestset, checkData_byte hoff (hfixed _), heven, htarget, unseen, Bool.not_true, Bool.or_self,
    Bool.false_eq_true, if_false]

/-- The state in which TESTSET has set its byte in memory, `v` being the one in which memory has answered. -/
def byteSet (v s : State) (x : Nat) : State := v.memStore x 1 ((s.byte x).toNat ||| 0x80)

/-- A TESTSET that has reached the byte of memory. -/
theorem completes_testset {p : PReg} (hpend : s.cur.pendingIn (s.p p).toNat 1 = false)
    (hmem : v.mem = s.mem) (hstores : v.cur.stores = s.cur.stores) (hissue : v.issue = s.issue)
    (e : exec (.testset p) s =
      done 2 ((v.memStore (s.p p).toNat 1 (s.mem.loadN (s.p p).toNat 1 ||| 0x80)).setCc
        (s.mem.loadN (s.p p).toNat 1 == 0))) :
    CompletesVia (.testset p) s (byteSet v s (s.p p).toNat) 2 [] [.cc] noBytes fun u =>
      u.flag .cc = decide (s.byte (s.p p).toNat = 0) ∧ u.byte (s.p p).toNat = s.byte (s.p p).toNat ||| 0x80 ∧
        ∀ x, x ≠ (s.p p).toNat → u.mem.read x = s.mem.read x ∧ u.byte x = s.byte x := by
  have hbyte := byte_of_not_pendingIn hpend
  have hor : (s.byte (s.p p).toNat).toNat ||| 0x80 = (s.byte (s.p p).toNat ||| 0x80).toNat := by
    rw [BitVec.toNat_or]
    rfl
  rw [loadN_one, ← hbyte] at e
  refine ⟨_, e, congrArg Issue.slot hissue, Frame.setCc (Frame.refl _ _ _ _) List.mem_cons_self _, ?cc, ?set,
    fun x hx => ?other⟩
  case cc =>
    change ((s.byte (s.p p).toNat).toNat == 0) = _
    rw [Bool.eq_iff_iff, beq_iff_eq, decide_eq_true_eq]
    exact ⟨fun h => BitVec.eq_of_toNat_eq h, fun h => congrArg BitVec.toNat h⟩
  case set =>
    change (pendByte v.cur.stores _).getD ((v.mem.storeN _ 1 _).load _) = _
    rw [hstores, pendByte_of_not_pendingIn hpend, hor]
    exact load_storeN_byte _ _ _
  case other =>
    have outside : ¬ ((s.p p).toNat ≤ x ∧ x < (s.p p).toNat + 1) := by omega
    refine ⟨?_, ?_⟩
    · change (v.mem.storeN _ 1 _).read x = _
      rw [Mem.read_storeN, if_neg fun h => outside ⟨h.1, h.2.1⟩, hmem]
    · change (pendByte v.cur.stores x).getD ((v.mem.storeN _ 1 _).load x) = _
      rw [Mem.load_storeN_other _ _ _ _ _ outside, hstores, hmem]
      rfl

/-- RAM behind the EBIU, once it has answered in the state `v`. -/
theorem testset_external {loc : Nat} (hpend : s.cur.pendingIn x 1 = false) (hreg : s.cur.region x = .external)
    (hram : v.extMap x = (.ram, x)) (e : s.extAccess (.load s.cur.id) x = .ok loc v) :
    s.testset x = .ok () ((v.memStore x 1 (v.mem.loadN x 1 ||| 0x80)).setCc (v.mem.loadN x 1 == 0)) := by
  simp [State.testset, hpend, hreg, e, State.boardRead, State.boardWrite, hram]

/-- SDRAM that is powered up or not at rest answers at once where nothing else has the bus (R1644, R1650). -/
theorem extAccess_sdram {k : Nat} (hclass : s.sys.ebiu.extClass x = .sdram k) (htiming : s.sys.ebiu.timingOk = true)
    (hbus : s.sys.ebiu.granted = false) (hfree : s.sys.ebiu.busy = none) (u : BusUser) :
    s.extAccess u x = .ok (if s.sys.ebiu.x16 then 2 else 4) (s.sdramAccess u false) := by
  simp only [State.extAccess, hclass, htiming, serve_idle hbus hfree]
  rfl

/-! ## The pointer of the `++` forms (section 5 of 46_system.md) -/

theorem addressStep_postLine (t : State) (inc : Bool) (p : PReg) :
    AddressStep t (t.postLine inc p) (if inc then [.p p] else []) (.p p) (if inc then t.p p + 32 else t.p p) := by
  cases inc with
  | true => exact .pointer p _
  | false => exact .kept (.p p)

/-- A cache-control instruction that leaves the pointer registers to the update of its own. -/
theorem completes_postLine {i : Instr} {inc : Bool} {p : PReg} (e : exec i s = done 2 (u.postLine inc p))
    (hframe : ∀ rs, Frame v u rs [] noBytes) (hp : u.p p = s.p p) (hslot : u.issue.slot = s.issue.slot) :
    CompletesVia i s v 2 (if inc then [.p p] else []) [] noBytes fun w => w.p p = if inc then s.p p + 32 else s.p p := by
  have step := addressStep_postLine u inc p
  exact ⟨_, e, (congrArg Issue.slot step.issue).trans hslot, step.frame (hframe _) (List.Subset.refl _),
    hp ▸ step.readReg⟩

/-! ## PREFETCH (R1011) -/

theorem startFill_fields (s : State) (x : Nat) :
    (s.startFill x).issue = s.issue ∧ ∀ p, (s.startFill x).p p = s.p p := by
  unfold State.startFill
  split <;> exact ⟨rfl, fun _ => rfl⟩

theorem startFill_free (s : State) (x n : Nat) :
    ({ s with free := n } : State).startFill x = { s.startFill x with free := n } := by
  unfold State.startFill
  split <;> rfl

/-- A prefetch begins the fill of the line of a cacheable page that the cache does not hold, or does nothing; a free value
may have been drawn. -/
theorem prefetchLine_only (s : State) (a : Word) : ∃ (b : Bool) (n : Nat),
    (b = true → (s.cur.dataPage a).isSome = true ∧ s.cur.dmem.hitWay a.toNat = none) ∧
      s.prefetchLine a = { (if b then s.startFill a.toNat else s) with free := n } := by
  unfold State.prefetchLine
  dsimp only
  split_ifs with huseful hgo
  · simp only [Bool.and_eq_true, Option.isNone_iff_eq_none] at huseful
    obtain ⟨⟨⟨-, hpage⟩, -⟩, hmiss⟩ := huseful
    exact ⟨true, s.free + 1, fun _ => ⟨hpage, hmiss⟩, startFill_free s a.toNat (s.free + 1)⟩
  · exact ⟨false, s.free + 1, nofun, rfl⟩
  · exact ⟨false, s.free, nofun, rfl⟩

/-! ## Lines replaced (R401, R411) -/

/-- From the lines `old` to `new` the one under `k` alone has changed; it is `l` now. -/
def replaced (k : LineKey) (l : Line) (new old : List (LineKey × Line)) : Prop :=
  lineAt new k = l ∧ ∀ j, j ≠ k → lineAt new j = lineAt old j

theorem lineAt_setLine_other {j k : LineKey} (hj : j ≠ k) (ls : List (LineKey × Line)) (l : Line) :
    lineAt (setLine ls k l) j = lineAt ls j := by
  have hfind : (setLine ls k l).find? (fun y => y.1 == j) = ls.find? fun y => y.1 == j := by
    rw [setLine, List.find?_cons_of_neg (by simpa using hj.symm), List.find?_filter]
    congr 1
    funext y
    by_cases hy : y.1 = j <;> simp [hy, hj]
  rw [lineAt, hfind]
  rfl

theorem replaced_setLine {k : LineKey} {l l' : Line} {new old : List (LineKey × Line)} (h : replaced k l new old) :
    replaced k l' (setLine new k l') old :=
  ⟨lineAt_setLine new k l', fun j hj => (lineAt_setLine_other hj new l').trans (h.2 j hj)⟩

theorem replaced_refl (k : LineKey) (ls : List (LineKey × Line)) : replaced k (lineAt ls k) ls ls :=
  ⟨rfl, fun _ _ => rfl⟩

/-! ## FLUSH and FLUSHINV (R1012, R1013, R412, R413) -/

/-- The way that holds an address has a valid line with its tag. -/
theorem hitWay_line {d : DMem} {w : Nat} (h : d.hitWay x = some w) :
    (lineAt d.lines (d.key x w)).valid = true ∧ (lineAt d.lines (d.key x w)).tag = dataTag x := by
  simpa using List.find?_some h

/-- The line of an address begins at the address with its low five bits cleared (R411). -/
theorem dataLineAddr_key (d : DMem) (a : Word) (w : Nat) :
    dataLineAddr (d.key a.toNat w) (dataTag a.toNat) = a.toNat / 32 * 32 := by
  have ha := a.isLt
  simp only [dataLineAddr, DMem.key, dataTag, addrBits, BitVec.toNat_ofNat]
  omega

/-- The data cache of the current core has these lines. -/
def withLines (s : State) (ls : List (LineKey × Line)) : State :=
  s.setCur { s.cur with dmem := { s.cur.dmem with lines := ls } }

/-- The line `l` of the address `a` has been written back, if it was dirty, and the data cache has the lines `ls`. -/
def writtenBack (s : State) (a : Word) (l : Line) (ls : List (LineKey × Line)) : State :=
  if l.dirty then (withLines s ls).pend (a.toNat / 32 * 32) 32 (l.read 0 32) else withLines s ls

theorem writtenBack_fields (s : State) (a : Word) (l : Line) (ls : List (LineKey × Line)) :
    (writtenBack s a l ls).issue = s.issue ∧ (∀ p, (writtenBack s a l ls).p p = s.p p) ∧
      (writtenBack s a l ls).cur.dmem.lines = ls ∧
      ∀ ls', (writtenBack s a l ls).setDmem { (writtenBack s a l ls).cur.dmem with lines := ls' } =
        writtenBack s a l ls' := by
  unfold writtenBack
  split <;> exact ⟨rfl, fun _ => rfl, rfl, fun _ => rfl⟩

/-- What FLUSH, or with `inv` FLUSHINV, leaves of a line. -/
def flushed (l : Line) (inv : Bool) : Line :=
  if inv then { l with dirty := false, valid := false } else { l with dirty := false }

theorem flushed_clean {l : Line} (h : l.dirty = false) : flushed l false = l := by
  cases l
  exact congrArg (Line.mk _ · _ _ _ _ _) h.symm

section

variable {w : Nat} (hhit : s.cur.dmem.hitWay a.toNat = some w)

include hhit

theorem writeBack_hit : ∃ ls,
    replaced (s.cur.dmem.key a.toNat w) (flushed (lineAt s.cur.dmem.lines (s.cur.dmem.key a.toNat w)) false) ls
      s.cur.dmem.lines ∧
    s.writeBack (s.cur.dmem.key a.toNat w) =
      writtenBack s a (lineAt s.cur.dmem.lines (s.cur.dmem.key a.toNat w)) ls := by
  obtain ⟨hvalid, htag⟩ := hitWay_line hhit
  cases hdirty : (lineAt s.cur.dmem.lines (s.cur.dmem.key a.toNat w)).dirty with
  | true =>
    have haddr := (congrArg (dataLineAddr _) htag).trans (dataLineAddr_key s.cur.dmem a w)
    refine ⟨_, replaced_setLine (replaced_refl _ _), ?_⟩
    rw [State.writeBack, writtenBack, if_pos hdirty, ← haddr]
    exact if_pos (by rw [hvalid, hdirty]; rfl)
  | false =>
    refine ⟨s.cur.dmem.lines, (flushed_clean hdirty).symm ▸ replaced_refl _ _, ?_⟩
    simp only [State.writeBack, hdirty, writtenBack, Bool.and_false, Bool.false_eq_true, if_false]
    rfl

theorem flushLine_hit (hoff : s.cur.dmem.endcplb = false) (inv : Bool) : ∃ ls,
    replaced (s.cur.dmem.key a.toNat w) (flushed (lineAt s.cur.dmem.lines (s.cur.dmem.key a.toNat w)) inv) ls
      s.cur.dmem.lines ∧
    s.flushLine a inv = writtenBack s a (lineAt s.cur.dmem.lines (s.cur.dmem.key a.toNat w)) ls := by
  obtain ⟨ls, hls, hback⟩ := writeBack_hit hhit
  obtain ⟨-, -, hlines, hset⟩ := writtenBack_fields s a (lineAt s.cur.dmem.lines (s.cur.dmem.key a.toNat w)) ls
  have noPage := (noPage_of_off hoff a).2
  cases inv with
  | false =>
    refine ⟨ls, hls, ?_⟩
    simp [State.flushLine, hhit, noPage, hback]
  | true =>
    refine ⟨_, replaced_setLine hls, ?_⟩
    simp only [State.flushLine, hhit, noPage, hback, Option.any_none, Bool.false_and, Bool.false_eq_true, if_false, if_true,
      hlines, hset, hls.1]
    rfl

end

theorem flushAt_free (hoff : s.cur.dmem.endcplb = false)
    (hreg : s.cur.region a.toNat ∈ [Region.external, .l2, .dataSram, .scratchpad])
    (hfill : s.cur.filling a.toNat = none) (inv : Bool) : s.flushAt a inv = .ok () (s.flushLine a inv) := by
  have hcheck : s.cur.dataCheck a 1 false s.dag1 0 = none := by
    simp [Core.dataCheck, hoff, fixedViolation_memory hreg, Nat.mod_one]
  rw [State.flushAt, hcheck, hfill]
  rfl

/-- FLUSH and FLUSHINV, once nothing stands in the way of the access and its line is not being filled. -/
theorem exec_flush {p : PReg} (inc : Bool) (hoff : s.cur.dmem.endcplb = false)
    (hreg : s.cur.region (s.p p).toNat ∈ [Region.external, .l2, .dataSram, .scratchpad])
    (hfill : s.cur.filling (s.p p).toNat = none) (inv : Bool) :
    exec (if inv then .flushinv inc p else .flush inc p) s = done 2 ((s.flushLine (s.p p) inv).postLine inc p) := by
  have free := flushAt_free hoff hreg hfill inv
  cases inv with
  | true =>
    change execFlushinv inc p s = _
    rw [execFlushinv, free]
    rfl
  | false =>
    change execFlush inc p s = _
    rw [execFlush, free]
    rfl

/-- FLUSH and FLUSHINV of a line that the data cache holds. -/
theorem completes_flush {p : PReg} {w : Nat} (inc : Bool) (hoff : s.cur.dmem.endcplb = false)
    (hreg : s.cur.region (s.p p).toNat ∈ [Region.external, .l2, .dataSram, .scratchpad])
    (hfill : s.cur.filling (s.p p).toNat = none) (hhit : s.cur.dmem.hitWay (s.p p).toNat = some w) (inv : Bool) :
    let l := lineAt s.cur.dmem.lines (s.cur.dmem.key (s.p p).toNat w)
    ∃ ls, replaced (s.cur.dmem.key (s.p p).toNat w) (flushed l inv) ls s.cur.dmem.lines ∧
      CompletesVia (if inv then .flushinv inc p else .flush inc p) s (writtenBack s (s.p p) l ls) 2
        (if inc then [.p p] else []) [] noBytes fun u => u.p p = if inc then s.p p + 32 else s.p p := by
  intro l
  obtain ⟨ls, hls, hline⟩ := flushLine_hit hhit hoff inv
  obtain ⟨hissue, hp, -, -⟩ := writtenBack_fields s (s.p p) l ls
  exact ⟨ls, hls, completes_postLine (hline ▸ exec_flush inc hoff hreg hfill inv) (fun rs => Frame.refl _ rs [] noBytes)
    (hp p) (congrArg Issue.slot hissue)⟩

theorem flushLine_miss (hmiss : s.cur.dmem.hitWay a.toNat = none) (inv : Bool) : s.flushLine a inv = s := by
  simp only [State.flushLine, hmiss]

/-! ## IFLUSH (R1014, R349) -/

/-- A line that goes out of use leaves what it held of code, where memory has something else. -/
theorem outdateLine_only (s : State) (k : LineKey) (l : Line) : ∃ olds : List OldHalf,
    (∀ h ∈ olds, h ≠ s.mem.halfAt h.addr) ∧
      s.outdateLine k l = s.setCur { s.cur with stale := olds ++ s.cur.stale } := by
  unfold State.outdateLine
  split
  · exact ⟨[], nofun, rfl⟩
  · exact ⟨_, fun h hh => by simpa using (List.mem_filter.mp hh).2, rfl⟩

theorem iflushLine_hit {w : Nat} (hhit : s.cur.imem.hitWay x = some w) : ∃ ls olds,
    replaced (instKey x w) { lineAt s.cur.imem.lines (instKey x w) with valid := false } ls s.cur.imem.lines ∧
      (∀ h ∈ olds, h ≠ s.mem.halfAt h.addr) ∧
      s.iflushLine x = s.setCur
        { s.cur with imem := { s.cur.imem with lines := ls }, stale := olds ++ s.cur.stale } := by
  obtain ⟨olds, holds, hout⟩ := outdateLine_only s (instKey x w) (lineAt s.cur.imem.lines (instKey x w))
  refine ⟨_, olds, replaced_setLine (replaced_refl _ _), holds, ?_⟩
  simp only [State.iflushLine, hhit, hout]
  rfl

theorem iflushLine_miss (hmiss : s.cur.imem.hitWay x = none) : s.iflushLine x = s := by
  simp only [State.iflushLine, hmiss]

/-- IFLUSH of a line that the instruction cache does not fill. -/
theorem exec_iflush {p : PReg} {inc : Bool} (h : ∀ f, s.cur.ifill = some f → f.base ≠ (s.p p).toNat / 32 * 32) :
    exec (.iflush inc p) s = done 2 ((s.iflushLine (s.p p).toNat).postLine inc p) := by
  have idle : (s.cur.ifill.any fun f => f.base == (s.p p).toNat / 32 * 32) = false := by
    cases hf : s.cur.ifill with
    | none => rfl
    | some f => simpa using h f hf
  change execIflush inc p s = _
  simp only [execIflush, idle, Bool.false_eq_true, if_false]

end

/-- Settles O52: TESTSET is one access to the byte of memory that answers; each cache-control instruction is what its
operation leaves of the line, and the update of its pointer. -/
theorem testsetAndCacheControl : Obligations.TestsetAndCacheControl := by
  refine ⟨fun p s => ?testset, fun inc p s => ⟨?prefetch, ?flush, ?iflush⟩⟩
  case testset =>
    dsimp only
    intro heven hoff hwatch hpend
    refine ⟨fun hreg => ?l2, fun hreg hram => ⟨fun k hready => ?bank, fun k hclass htiming hbus hfree => ?sdram⟩⟩
    case l2 =>
      refine completes_testset hpend rfl rfl rfl ?_
      rw [exec_testset heven hoff hwatch (.inl hreg)]
      simp only [State.testset, hpend, hreg, Bool.false_eq_true, if_false]
      rfl
    case bank =>
      refine completes_testset hpend rfl rfl rfl ?_
      rw [exec_testset heven hoff hwatch (.inr hreg), testset_external hpend hreg hram (extAccess_ready hready _)]
      rfl
    case sdram =>
      refine completes_testset hpend rfl rfl rfl ?_
      rw [exec_testset heven hoff hwatch (.inr hreg),
        testset_external (v := s.sdramAccess (.load s.cur.id) false) hpend hreg hram
          (extAccess_sdram hclass htiming hbus hfree _)]
      rfl
  case prefetch =>
    obtain ⟨b, n, hb, hline⟩ := prefetchLine_only s (s.p p)
    have e : exec (.prefetch inc p) s = done 2 ((s.prefetchLine (s.p p)).postLine inc p) := rfl
    rw [hline] at e
    obtain ⟨hissue, hp⟩ := startFill_fields s (s.p p).toNat
    have hframe (v : State) (rs : List AllReg) : Frame v { v with free := n } rs [] noBytes :=
      Frame.setFree (Frame.refl v _ _ _) n
    cases b with
    | false => exact ⟨false, hb, completes_postLine e (hframe s) rfl rfl⟩
    | true => exact ⟨true, hb, completes_postLine e (hframe _) (hp p) (congrArg Issue.slot hissue)⟩
  case flush =>
    intro hoff hreg hfill
    refine ⟨fun hmiss => ?miss, fun w hhit =>
      ⟨completes_flush inc hoff hreg hfill hhit false, completes_flush inc hoff hreg hfill hhit true⟩⟩
    case miss =>
      have complete (inv : Bool) := completes_postLine (v := s)
        (flushLine_miss hmiss inv ▸ exec_flush inc hoff hreg hfill inv) (fun rs => Frame.refl s rs [] noBytes) rfl rfl
      exact ⟨complete false, complete true⟩
  case iflush =>
    intro hfill
    have e := exec_iflush (inc := inc) hfill
    refine ⟨fun hmiss => ?missI, fun w hhit => ?hitI⟩
    case missI =>
      rw [iflushLine_miss hmiss] at e
      exact completes_postLine e (fun rs => Frame.refl s rs [] noBytes) rfl rfl
    case hitI =>
      obtain ⟨ls, olds, hls, holds, hline⟩ := iflushLine_hit hhit
      rw [hline] at e
      exact ⟨ls, olds, hls, holds, completes_postLine e (fun rs => Frame.refl _ rs [] noBytes) rfl rfl⟩

end Sys2Proof.Proofs
end

section
/-!
What an instruction of User mode may not change (60_exceptions.md R1703), as a part of both cores that most
operations of the model leave alone, and the predicates over outcomes that carry such facts. First the operations on the
current core alone.
-/

namespace Sys2Proof.Proofs

open Machine Laws

/-- What of a core an instruction of User mode may not change: its identity, the supervisor's registers, the event
controller but for ILAT, the CPLBs and their switches (60_exceptions.md R1703). -/
structure Guarded where
  id : CoreId
  ssp : Word
  reti : Word
  retx : Word
  retn : Word
  rete : Word
  syscfg : Syscfg
  evt : Vector Word 16
  imask : HWord
  ipend : HWord
  dcplb : Vector Cplb 16
  endcplb : Bool
  icplb : Vector Cplb 16
  enicplb : Bool

/-- That part of a core. -/
def guardedCore (c : Core) : Guarded :=
  { id := c.id, ssp := c.p.ssp, reti := c.reti, retx := c.retx, retn := c.retn, rete := c.rete, syscfg := c.syscfg,
    evt := c.ev.evt, imask := c.ev.imask, ipend := c.ev.ipend, dcplb := c.dmem.cplb, endcplb := c.dmem.endcplb,
    icplb := c.imem.cplb, enicplb := c.imem.enicplb }

/-- The guarded parts of both cores, the current one's first. -/
def guardedOf (s : State) : Guarded × Guarded := (guardedCore s.cur, guardedCore s.oth)

/-- The guarded parts of both cores are `g`. -/
def guards (g : Guarded × Guarded) (s : State) : Prop := guardedOf s = g

/-! ## What the answers of the model's operations leave -/

/-- The state that an outcome leaves has the property `P`. -/
def outcomeKeeps (P : State → Prop) : Outcome → Prop
  | .next t => P t
  | .fault _ | .refused _ => True

/-- The same of an access to a memory-mapped register. -/
def mmrKeeps (P : State → Prop) : MmrRes → Prop
  | .ok _ t => P t
  | .error | .refused _ => True

/-- The same of an access behind L1. -/
def busKeeps {α : Type} (P : State → Prop) : BusRes α → Prop
  | .ok _ t | .error t | .wait t => P t
  | .refused _ => True

/-- The same of an access of a core. -/
def resKeeps {α : Type} (P : State → Prop) : Res α → Prop
  | .ok _ t | .exc _ t | .stall t => P t
  | .refused _ | .fault _ => True

section

variable {s t : State} {g : Guarded × Guarded} {P Q : State → Prop}

theorem outcomeKeeps.imp (hPQ : ∀ t, P t → Q t) {x : Outcome} (h : outcomeKeeps P x) : outcomeKeeps Q x := by
  cases x
  case next t => exact hPQ t h
  all_goals trivial

theorem mmrKeeps.imp (hPQ : ∀ t, P t → Q t) {x : MmrRes} (h : mmrKeeps P x) : mmrKeeps Q x := by
  cases x
  case ok w t => exact hPQ t h
  all_goals trivial

theorem mmrKeeps.of_ok {x : MmrRes} (hx : mmrKeeps P x) {w : Word} (e : x = .ok w t) : P t := by
  rw [e] at hx
  exact hx

theorem resKeeps.bind {α β : Type} {x : Res α} {f : α → State → Res β} (hx : resKeeps P x)
    (hf : ∀ a t, P t → resKeeps P (f a t)) : resKeeps P (x.bind f) := by
  cases x with
  | ok a t => exact hf a t hx
  | exc e t => exact hx
  | stall t => exact hx
  | refused r => trivial
  | fault f => trivial

/-- What holds on both branches holds of the choice. -/
theorem ite_keeps {α : Type} {Q : α → Prop} {c : Prop} [Decidable c] {x y : α} (hx : Q x) (hy : Q y) :
    Q (if c then x else y) :=
  iteInduction (motive := Q) (fun _ => hx) fun _ => hy

/-- A list of steps keeps what each of them keeps. -/
theorem foldl_keeps {α : Type} {f : State → α → State} (hf : ∀ t x, P t → P (f t x)) (l : List α) (h : P s) :
    P (l.foldl f s) := by
  induction l generalizing s with
  | nil => exact h
  | cons x l ih => exact ih (hf s x h)

/-! ## The parts of the current core -/

theorem setCur_guards (h : guards g s) {c : Core} (e : guardedCore c = guardedCore s.cur) : guards g (s.setCur c) := by
  rw [guards, guardedOf, setCur_cur, e]
  exact h

theorem setImem_guards (h : guards g s) {m : IMem} (hc : m.cplb = s.cur.imem.cplb)
    (he : m.enicplb = s.cur.imem.enicplb) : guards g (s.setImem m) := by
  refine setCur_guards h ?_
  rw [guardedCore, hc, he]
  rfl

/-! ## Counting, and the trace buffer -/

theorem count_guards (h : guards g s) (e : Byte) : guards g (s.count e) := by
  have hc := count_counted s e
  have hcur : guardedCore (s.count e).cur = guardedCore s.cur := by
    have := congrArg guardedCore hc.cur
    exact this
  rw [guards, guardedOf, hcur, hc.oth]
  exact h

theorem recordFlow_guards (h : guards g s) (ip : HWord) (a b : Word) : guards g (s.recordFlow ip a b) := by
  obtain ⟨es, full, e⟩ := recordFlow_only s ip a b
  rw [e]
  exact h

theorem flow_guards (h : guards g s) (a : Word) : guards g (s.flow a) :=
  recordFlow_guards (ite_keeps (count_guards h 0x09) h) _ _ _

theorem setLoop_guards (h : guards g s) (n : LoopN) (u : LoopUnit) : guards g (s.setLoop n u) := by
  cases n <;> exact h

theorem loopStep_guards (h : guards g s) (len : Nat) : guards g (s.loopStep len).1 := by
  have down : ∀ (t : State) (n : LoopN) (u : LoopUnit) (e : Byte), guards g t → guards g ((t.setLoop n u).count e) :=
    fun t n u e ht => count_guards (setLoop_guards ht n u) e
  have passed : guards g (if s.cur.pc = s.cur.loop1.lb ∧ s.cur.loop1.lc = 1 then
      (s.setLoop .l1 s.cur.loop1.down).count 0x01 else s) := ite_keeps (down s .l1 _ _ h) h
  unfold State.loopStep
  dsimp only
  split
  · exact down s .l1 _ _ h
  generalize (if s.cur.pc = s.cur.loop1.lb ∧ s.cur.loop1.lc = 1 then _ else s) = t at passed ⊢
  split
  · exact down t .l0 _ _ passed
  · exact ite_keeps (down t .l0 _ _ passed) passed

theorem finish_guards (h : guards g s) (len : Nat) : guards g (s.finish len) := by
  unfold State.finish
  split
  · exact loopStep_guards h len
  · exact h

end
end Sys2Proof.Proofs
end

section
/-!
Memory, the external bus, the caches and the fetch leave the guarded part of the cores alone.
-/

namespace Sys2Proof.Proofs

open Machine Laws

section

variable {s t : State} {g : Guarded × Guarded} {P Q : State → Prop}

/-! ## Memory and the external bus -/

theorem memStore_guards (h : guards g s) (a n v : Nat) : guards g (s.memStore a n v) := h

theorem boardRead_guards (h : guards g s) (loc a n : Nat) : guards g (s.boardRead loc a n).2 := by
  unfold State.boardRead
  split <;> exact h

theorem boardWrite_guards (h : guards g s) (loc a n v : Nat) : guards g (s.boardWrite loc a n v) := by
  unfold State.boardWrite
  split
  · exact memStore_guards h _ _ _
  all_goals exact h

theorem masterWrite_guards (h : guards g s) (a : Word) (b : Byte) : guards g (s.masterWrite a b) := by
  unfold State.masterWrite
  split
  · split
    · exact memStore_guards h _ _ _
    · exact h
  · exact h

theorem betweenHalves_guards (h : guards g s) : guards g s.betweenHalves := by
  have drawn : guards g s.drawBit.2 := h
  unfold State.betweenHalves
  split
  · split
    · exact h
    · refine ite_keeps (foldl_keeps (P := guards g) (fun t (w : Word × Byte) ht => masterWrite_guards ht w.1 w.2) _ ?_) drawn
      exact h
  · exact h

theorem twoHalves_guards (h : guards g s) (a : Nat) {f : Nat → State → Nat × State}
    (hf : ∀ x t, guards g t → guards g (f x t).2) : guards g (s.twoHalves a f).2 := by
  unfold State.twoHalves
  dsimp only [State.drawBit]
  split <;> refine hf _ _ (betweenHalves_guards (hf _ _ ?_)) <;> exact h

theorem serve_guards (h : guards g s) (u : BusUser) (a : Nat) (rdyen : Bool) :
    busKeeps (guards g) (s.serve u a rdyen) := by
  have fresh : busKeeps (guards g) (if rdyen then
      (if s.drawBit.1 then .ok () (s.drawBit.2.setEbiu { s.sys.ebiu with busy := none })
        else .wait (s.drawBit.2.setEbiu { s.sys.ebiu with busy := some ⟨u, a, false⟩ }))
      else (.ok () (s.setEbiu { s.sys.ebiu with busy := none }) : BusRes Unit)) :=
    ite_keeps (ite_keeps h h) h
  unfold State.serve
  dsimp only
  split
  · exact h
  · split
    · exact fresh
    · exact ite_keeps h (ite_keeps fresh h)

theorem extAccess_guards (h : guards g s) (u : BusUser) (a : Nat) : busKeeps (guards g) (s.extAccess u a) := by
  have served : ∀ (rdyen : Bool) (loc : Nat) (f : State → State), (∀ t, guards g t → guards g (f t)) →
      busKeeps (guards g) (match s.serve u a rdyen with
        | .ok _ s => .ok loc (f s)
        | .error s => .error s
        | .wait s => .wait s
        | .refused r => .refused r : BusRes Nat) := by
    intro rdyen loc f hf
    have hs := serve_guards h u a rdyen
    cases hr : s.serve u a rdyen <;> rw [hr] at hs
    · exact hf _ hs
    · exact hs
    · exact hs
    · trivial
  unfold State.extAccess
  dsimp only
  split
  · exact ite_keeps (Q := guards g) h h
  · exact ite_keeps trivial (served _ _ id fun _ ht => ht)
  · exact ite_keeps trivial (served _ _ _ fun _ ht => ht)
  · exact ite_keeps trivial (served _ _ _ fun _ ht => ht)

theorem extRead_guards (h : guards g s) (u : BusUser) (a n : Nat) : busKeeps (guards g) (s.extRead u a n) := by
  have ha := extAccess_guards h u a
  unfold State.extRead
  cases hr : s.extAccess u a <;> rw [hr] at ha
  case ok loc t =>
    dsimp only [busKeeps] at ha ⊢
    split
    · exact twoHalves_guards ha a fun _ _ ht => boardRead_guards ht _ _ _
    · exact boardRead_guards ha _ _ _
  case refused => trivial
  all_goals exact ha

theorem extWrite_guards (h : guards g s) (u : BusUser) (a n v : Nat) : busKeeps (guards g) (s.extWrite u a n v) := by
  have ha := extAccess_guards h u a
  unfold State.extWrite
  cases hr : s.extAccess u a <;> rw [hr] at ha
  case ok loc t =>
    dsimp only [busKeeps] at ha ⊢
    split
    · exact twoHalves_guards ha a fun _ _ ht => boardWrite_guards ht _ _ _ _
    · exact boardWrite_guards ha _ _ _ _
  case refused => trivial
  all_goals exact ha

theorem behindRead_guards (h : guards g s) (u : BusUser) (a n : Nat) :
    busKeeps (guards g) (s.behindRead u a n) := by
  unfold State.behindRead
  split
  · exact extRead_guards h u a n
  all_goals exact h

theorem behindWrite_guards (h : guards g s) (u : BusUser) (a n v : Nat) :
    busKeeps (guards g) (s.behindWrite u a n v) := by
  unfold State.behindWrite
  split
  · exact extWrite_guards h u a n v
  · exact memStore_guards h a n v
  · exact h

/-! ## The caches -/

theorem tracked_guards (h : guards g s) (a : Nat) {f : State → Res Nat}
    (hf : ∀ t, guards g t → resKeeps (guards g) (f t)) : resKeeps (guards g) (s.tracked a f) := by
  unfold State.tracked
  dsimp only
  split
  · exact h
  · refine resKeeps.bind (hf _ ?_) fun v t ht => ?_
    · exact h
    · exact ht

theorem busLoad_guards (h : guards g s) (a n : Nat) : resKeeps (guards g) (s.busLoad a n) := by
  refine tracked_guards h a fun t ht => ?_
  have hr := behindRead_guards ht (.load t.cur.id) a n
  cases hb : t.behindRead (.load t.cur.id) a n <;> rw [hb] at hr
  case refused => trivial
  all_goals exact hr

theorem uncachedLoad_guards (h : guards g s) (a n : Nat) : resKeeps (guards g) (s.uncachedLoad a n) := by
  unfold State.uncachedLoad
  split
  · exact h
  · exact resKeeps.bind (busLoad_guards h a n) fun _ _ ht => ht

theorem writeBack_guards (h : guards g s) (k : LineKey) : guards g (s.writeBack k) := by
  unfold State.writeBack
  dsimp only
  split <;> exact h

theorem lruOf_guards (h : guards g s) (k : LineKey) : guards g (s.lruOf k).2 := by
  unfold State.lruOf
  split <;> exact h

theorem voidLines_guards (h : guards g s) (holes : Bool) (keep : LineKey → Bool) (ls : List (LineKey × Line)) :
    guards g (s.voidLines holes keep ls).2 := by
  induction ls generalizing s with
  | nil => exact h
  | cons x ls ih =>
    unfold State.voidLines
    split
    · exact ih h
    · exact ih (s := (s.blankLine holes).2) h

theorem startFill_guards (h : guards g s) (a : Nat) : guards g (s.startFill a) := by
  unfold State.startFill
  split <;> exact h

theorem fillWay_guards (h : guards g s) (a : Nat) : guards g (s.fillWay a).2 := by
  unfold State.fillWay
  dsimp only
  split
  · exact h
  split
  · exact h
  · exact lruOf_guards h _

theorem installData_guards (h : guards g s) (f : Fill) : guards g (s.installData f) := by
  unfold State.installData
  dsimp only
  split
  · exact count_guards (writeBack_guards (fillWay_guards h _) _) _
  split
  · exact fillWay_guards h _
  · refine count_guards (setCur_guards (fillWay_guards h _) ?_) _
    rfl

theorem cachedLoad_guards (h : guards g s) (a n : Nat) : resKeeps (guards g) (s.cachedLoad a n) := by
  unfold State.cachedLoad
  split
  · exact h
  · split
    · exact h
    · exact startFill_guards h a

theorem cachedStore_guards (h : guards g s) (page : Cplb) (a n v : Nat) :
    resKeeps (guards g) (s.cachedStore page a n v) := by
  have through : guards g (if page.writeThrough then s.pend a n v else s) := ite_keeps h h
  unfold State.cachedStore
  dsimp only
  split
  · exact ite_keeps (Q := guards g) h h
  split
  · exact through
  split
  · exact h
  split
  · exact h
  · exact startFill_guards through a

theorem flushLine_guards (h : guards g s) (a : Word) (inv : Bool) : guards g (s.flushLine a inv) := by
  unfold State.flushLine
  split
  · exact h
  · dsimp only
    split <;> split <;> exact writeBack_guards h _

theorem outdateLine_guards (h : guards g s) (k : LineKey) (l : Line) : guards g (s.outdateLine k l) := by
  unfold State.outdateLine
  split <;> exact h

theorem iflushLine_guards (h : guards g s) (a : Nat) : guards g (s.iflushLine a) := by
  unfold State.iflushLine
  split
  · exact h
  · refine setImem_guards (outdateLine_guards h _ _) ?_ ?_ <;>
    · unfold State.outdateLine
      split <;> rfl

theorem installInst_guards (h : guards g s) (f : Fill) : guards g (s.installInst f) := by
  unfold State.installInst
  dsimp only
  split
  · exact h
  · split <;> exact h

theorem fillWord_guards (h : guards g s) (inst : Bool) (f : Fill) : busKeeps (guards g) (s.fillWord inst f) := by
  have hr := behindRead_guards h (if inst then .instFill s.cur.id else .dataFill s.cur.id) (f.base + 4 * f.next) 4
  unfold State.fillWord
  dsimp only
  split <;> rename_i hb <;> rw [hb] at hr
  case h_4 => trivial
  all_goals exact hr

theorem fillWords_guards (h : guards g s) (inst : Bool) (f : Fill) (n : Nat) :
    busKeeps (guards g) (s.fillWords inst f n) := by
  induction n generalizing s f with
  | zero => exact h
  | succ n ih =>
    have hr := fillWord_guards h inst f
    unfold State.fillWords
    split <;> rename_i hb <;> rw [hb] at hr
    · exact ih hr _
    · exact hr
    · exact hr
    · trivial

theorem fillStep_guards (h : guards g s) (inst : Bool) : outcomeKeeps (guards g) (s.fillStep inst) := by
  unfold State.fillStep
  split
  · exact h
  rename_i f _
  split
  · have hr := fillWords_guards h inst f (if s.cur.region f.base == .external then 1 else 8 - f.got.length)
    split <;> rename_i hb <;> rw [hb] at hr
    · refine setCur_guards hr ?_
      split <;> rfl
    · exact hr
    · exact hr
    · trivial
  · exact ite_keeps (Q := guards g) (installInst_guards h f) (installData_guards h f)

/-! ## Instruction fetch -/

theorem fetchOld_guards (h : guards g s) (x : OldHalf) : resKeeps (guards g) (x.fetch s) := by
  unfold OldHalf.fetch
  split
  · exact h
  · trivial

theorem pickHalf_guards (h : guards g s) (x : OldHalf) (others : List OldHalf) :
    resKeeps (guards g) (s.pickHalf x others) := by
  unfold State.pickHalf
  split
  · exact fetchOld_guards h x
  · exact fetchOld_guards (s := s.drawNat.2) h _

theorem fetchDirect_guards (h : guards g s) (a : Nat) : resKeeps (guards g) (s.fetchDirect a) := by
  unfold State.fetchDirect
  split
  · have hr := extAccess_guards h (.fetch s.cur.id) a
    split <;> rename_i hb <;> rw [hb] at hr
    · split
      · exact pickHalf_guards hr _ _
      · exact pickHalf_guards hr _ _
      · trivial
    · trivial
    · exact hr
    · trivial
  · exact pickHalf_guards h _ _
  · exact pickHalf_guards h _ _
  · trivial

theorem fetchMiss_guards (h : guards g s) (page : Cplb) (a : Nat) : resKeeps (guards g) (s.fetchMiss page a) := by
  unfold State.fetchMiss
  dsimp only
  split
  · exact pickHalf_guards h _ _
  · exact h

theorem fetchCached_guards (h : guards g s) (page : Cplb) (a : Nat) : resKeeps (guards g) (s.fetchCached page a) := by
  unfold State.fetchCached
  split
  · dsimp only
    split
    · exact fetchOld_guards h _
    · exact pickHalf_guards h _ _
  · refine tracked_guards h a fun t ht => ?_
    exact ite_keeps (fetchDirect_guards ht a) (fetchMiss_guards ht page a)

theorem fetchHalf_guards (h : guards g s) (a : Word) : resKeeps (guards g) (s.fetchHalf a) := by
  unfold State.fetchHalf
  split
  · exact h
  dsimp only
  split
  · trivial
  split
  · exact pickHalf_guards h _ _
  split
  · exact tracked_guards h _ fun t ht => fetchDirect_guards ht _
  · exact fetchCached_guards h _ _

theorem fetch_guards (h : guards g s) : resKeeps (guards g) s.fetch := by
  refine resKeeps.bind ?_ fun _ _ ht => ht
  unfold State.fetchUnits
  refine resKeeps.bind (fetchHalf_guards h _) fun _ _ h1 => ite_keeps h1 ?_
  refine resKeeps.bind (fetchHalf_guards h1 _) fun _ _ h2 => ite_keeps h2 ?_
  refine resKeeps.bind (fetchHalf_guards h2 _) fun _ _ h3 => ?_
  exact resKeeps.bind (fetchHalf_guards h3 _) fun _ _ h4 => h4

end
end Sys2Proof.Proofs
end

section
/-!
Reads of the MMRs, and loads and stores of a core, leave the guarded part of the cores alone: what a store writes is
pending when the instruction completes (20_memory.md R341).
-/

namespace Sys2Proof.Proofs

open Machine Laws

section

variable {s t : State} {g : Guarded × Guarded} {P Q : State → Prop}

/-! ## Registers that are read -/

theorem coreMmrRead_guards (h : guards g s) (off : Nat) : mmrKeeps (guards g) (coreMmrRead off s) := by
  have arr : ∀ (l : List Word) (base : Nat),
      mmrKeeps (guards g) (match nth l base off with | some w => .ok w s | none => .error) := by
    intro l base
    split
    · exact h
    · trivial
  have trace : mmrKeeps (guards g) (tbufRead s) := by
    unfold tbufRead
    dsimp only
    split
    · exact h
    · exact ite_keeps h h
  unfold coreMmrRead
  dsimp only
  split
  case h_31 =>
    iterate 8
      split
      · exact arr _ _
    exact arr _ _
  case h_24 => exact trace
  all_goals exact h

theorem pllStat_guards (h : guards g s) : guards g s.pllStat.2 := by
  unfold State.pllStat
  dsimp only
  split <;> split <;> exact h

theorem powerRead_guards (h : guards g s) (off n : Nat) : mmrKeeps (guards g) (powerRead off n s) := by
  unfold powerRead
  dsimp only
  split
  case h_4 => exact pllStat_guards h
  case h_6 => trivial
  all_goals exact h

theorem sdstat_guards (h : guards g s) : guards g s.sdstat.2 := by
  have drawn : ∀ (c : Prop) [Decidable c] (b : Bool) (t : State), guards g t →
      guards g (if c then t.drawBit else (b, t)).2 :=
    fun c _ b t ht => ite_keeps (Q := fun z : Bool × State => guards g z.2) ht ht
  exact drawn _ _ _ (drawn _ _ _ h)

theorem ebiuRead_guards (h : guards g s) (off n : Nat) : mmrKeeps (guards g) (ebiuRead off n s) := by
  unfold ebiuRead
  split
  case h_7 => exact sdstat_guards h
  case h_8 => trivial
  all_goals exact h

theorem timerRead_guards (h : guards g s) (first count shared off n : Nat) :
    mmrKeeps (guards g) (timerRead first count shared off n s) := by
  unfold timerRead
  dsimp only
  refine ite_keeps ?_ (ite_keeps (ite_keeps h (ite_keeps h trivial)) trivial)
  split
  case h_5 => trivial
  all_goals exact h

theorem ppiRead_guards (h : guards g s) (x off n : Nat) : mmrKeeps (guards g) (ppiRead x off n s) := by
  unfold ppiRead
  dsimp only
  split
  case h_6 => trivial
  all_goals exact h

theorem setSpi_guards (h : guards g s) (p : Spi) : guards g (s.setSpi p) := ite_keeps h h

theorem spiRead_guards (h : guards g s) (off n : Nat) : mmrKeeps (guards g) (spiRead off n s) := by
  have data : mmrKeeps (guards g) (spiRdbr s) := by
    unfold spiRdbr
    dsimp only
    refine setSpi_guards ?_ _
    split
    · split <;> exact h
    · exact h
  unfold spiRead
  dsimp only
  split
  case h_5 => exact data
  case h_8 => trivial
  all_goals exact h

theorem sportRead_guards (h : guards g s) (x off n : Nat) : mmrKeeps (guards g) (sportRead x off n s) := by
  have received : ∀ wide, mmrKeeps (guards g) (sportRx x wide s) := by
    intro wide
    unfold sportRx
    split
    · exact h
    · trivial
  have channel : mmrKeeps (guards g) (sportChnl x s) := ite_keeps h (ite_keeps h h)
  unfold sportRead
  dsimp only
  split
  case h_5 => exact received false
  case h_6 => exact received true
  case h_12 => exact channel
  case h_15 => exact ite_keeps h trivial
  case h_16 => trivial
  all_goals exact h

theorem uartRead_guards (h : guards g s) (off n : Nat) : mmrKeeps (guards g) (uartRead off n s) := by
  unfold uartRead
  dsimp only
  split
  case h_1 => exact ite_keeps h h
  case h_9 => trivial
  all_goals exact h

theorem dmaRead_guards (h : guards g s) (i off n : Nat) : mmrKeeps (guards g) (dmaRead i off n s) := by
  unfold dmaRead
  dsimp only
  refine ite_keeps ?_ trivial
  split
  case h_14 => trivial
  all_goals exact h

theorem trafficRead_guards (h : guards g s) (per : HWord) (off n : Nat) :
    mmrKeeps (guards g) (trafficRead per off n s) := by
  unfold trafficRead
  split
  · exact h
  · exact h
  · trivial

theorem flagRead_guards (h : guards g s) (n off size : Nat) : mmrKeeps (guards g) (flagRead n off size s) := by
  unfold flagRead
  dsimp only
  refine ite_keeps ?_ trivial
  split
  case h_9 => trivial
  all_goals exact h

theorem wdogRead_guards (h : guards g s) (id : CoreId) (off n : Nat) : mmrKeeps (guards g) (wdogRead id off n s) := by
  unfold wdogRead
  dsimp only
  split
  case h_4 => trivial
  all_goals exact h

theorem sicBlockRead_guards (h : guards g s) (id : CoreId) (off n : Nat) :
    mmrKeeps (guards g) (sicBlockRead id off n s) := by
  unfold sicBlockRead
  refine ite_keeps (ite_keeps h trivial) (ite_keeps (ite_keeps h trivial) (ite_keeps ?_ trivial))
  split
  · exact h
  · trivial

theorem sysMmrRead_guards (h : guards g s) (off n : Nat) : mmrKeeps (guards g) (sysMmrRead off n s) := by
  unfold sysMmrRead
  dsimp only
  refine ite_keeps trivial ?_
  split
  · exact powerRead_guards h _ _
  · exact sicBlockRead_guards h _ _ _
  · exact wdogRead_guards h _ _ _
  · exact uartRead_guards h _ _
  · exact spiRead_guards h _ _
  · exact timerRead_guards h _ _ _ _ _
  · exact flagRead_guards h _ _ _
  · exact sportRead_guards h _ _ _
  · exact sportRead_guards h _ _ _
  · exact ebiuRead_guards h _ _
  · exact trafficRead_guards h _ _ _
  · exact ppiRead_guards h _ _ _
  · exact sicBlockRead_guards h _ _ _
  · exact wdogRead_guards h _ _ _
  · exact ppiRead_guards h _ _ _
  · exact flagRead_guards h _ _ _
  · exact timerRead_guards h _ _ _ _ _
  · exact flagRead_guards h _ _ _
  · exact trafficRead_guards h _ _ _
  · split
    · exact dmaRead_guards h _ _ _
    · trivial

/-! ## Loads and stores of a core -/

theorem dataWatchOne_guards (h : guards g s) (n : Nat) (a : Word) (write dag1 : Bool) :
    guards g (s.dataWatchOne n a write dag1) := ite_keeps (ite_keeps h h) h

theorem dataWatch_guards (h : guards g s) (a : Word) (write dag1 : Bool) : guards g (s.dataWatch a write dag1) :=
  ite_keeps (dataWatchOne_guards (dataWatchOne_guards h _ _ _ _) _ _ _ _) h

theorem watched_guards (h : guards g s) (a : Word) (n : Nat) (write dag1 : Bool) :
    guards g (s.watched a n write dag1) := ite_keeps h (dataWatch_guards h _ _ _)

theorem checkData_guards (h : guards g s) {dag1 write : Bool} {a : Word} {n : Nat} {r : Exc × State}
    (e : s.checkData dag1 a n write = some r) : guards g r.2 := by
  unfold State.checkData at e
  split at e
  · cases e
  · cases e
    exact ite_keeps (Q := guards g) h h

theorem mmrLoad_guards (h : guards g s) (x n : Nat) (e : Exc) : resKeeps (guards g) (s.mmrLoad x n e) := by
  unfold State.mmrLoad
  refine ite_keeps (ite_keeps ?_ h) ?_
  · generalize x - 0xFFE00000 = off
    split
    next hr => exact (coreMmrRead_guards h _).of_ok hr
    · exact h
    · trivial
  · split
    next hr => exact (sysMmrRead_guards h _ _).of_ok hr
    · exact h
    · trivial

theorem mmrSeen_guards (h : guards g s) (x n : Nat) (e : Exc) : resKeeps (guards g) (s.mmrSeen x n e) :=
  ite_keeps h (resKeeps.bind (mmrLoad_guards h x n e) fun _ _ ht => ht)

theorem performLoad_guards (h : guards g s) (a : Word) (n : Nat) (dag1 : Bool) :
    resKeeps (guards g) (s.performLoad a n dag1) := by
  unfold State.performLoad
  dsimp only
  refine ite_keeps trivial ?_
  split
  · exact h
  · exact h
  · exact mmrSeen_guards h _ _ _
  · exact mmrSeen_guards h _ _ _
  · exact uncachedLoad_guards h _ _
  · exact ite_keeps (cachedLoad_guards h _ _) (uncachedLoad_guards h _ _)

theorem takeLoad_guards (h : guards g s) (a : Word) (n : Nat) (dag1 : Bool) :
    resKeeps (guards g) (s.takeLoad a n dag1) := by
  unfold State.takeLoad
  split
  · exact h
  · exact performLoad_guards h a n dag1

theorem performStore_guards (h : guards g s) (a : Word) (n v : Nat) (dag1 : Bool) :
    resKeeps (guards g) (s.performStore a n v dag1) := by
  unfold State.performStore
  dsimp only
  refine ite_keeps trivial ?_
  split
  case h_1 => exact ite_keeps h h
  case h_6 =>
    split
    · exact cachedStore_guards h _ _ _ _
    · exact h
  all_goals exact h

theorem loadAt_guards (h : guards g s) (dag1 : Bool) (a : Word) (n : Nat) :
    resKeeps (guards g) (s.loadAt dag1 a n) := by
  unfold State.loadAt
  split
  next e => exact checkData_guards h e
  · exact takeLoad_guards (watched_guards h _ _ _ _) _ _ _

theorem store_guards (h : guards g s) (a : Word) (n v : Nat) : resKeeps (guards g) (s.store a n v) := by
  unfold State.store State.storeAt
  split
  next e => exact checkData_guards h e
  · exact performStore_guards (watched_guards h _ _ _ _) _ _ _ _

theorem load_guards (h : guards g s) (a : Word) (n : Nat) : resKeeps (guards g) (s.load a n) :=
  resKeeps.bind (loadAt_guards h _ a n) fun _ _ ht => ite_keeps ht ht

/-! ## What stays of a step that is taken back -/

theorem keepBus_guards (h : guards g s) (t : State) : guards g (s.keepBus t) := by
  refine (foldl_keeps (P := guards g) (fun u i hu => ?_) _ h :
    guards g (s.replay (s.inputs.take (s.inputs.length - t.inputs.length))))
  cases i
  case masterStore a b => exact masterWrite_guards hu a b
  all_goals exact hu

theorem pushWords_guards (h : guards g s) (a : Word) (vs : List Word) : resKeeps (guards g) (s.pushWords a vs) := by
  induction vs generalizing s a with
  | nil => exact h
  | cons v vs ih => exact resKeeps.bind (store_guards h _ _ _) fun _ t ht => ih ht _

theorem popWords_guards (h : guards g s) (a : Word) (n : Nat) : resKeeps (guards g) (s.popWords a n) := by
  induction n generalizing s a with
  | zero => exact h
  | succ n ih =>
    exact resKeeps.bind (load_guards h _ _) fun _ t ht => resKeeps.bind (ih ht _) fun _ _ hu => hu

theorem allOrNone_guards {α : Type} (h : guards g s) {x : Res α} (hx : resKeeps (guards g) x) :
    resKeeps (guards g) (x.allOrNone s) := by
  cases x with
  | exc e t => exact keepBus_guards h t
  | ok a t => exact hx
  | stall t => exact hx
  | refused r => trivial
  | fault f => trivial

end
end Sys2Proof.Proofs
end

section
/-!
A predicate on states that the operations of instructions keep: which operations it must be kept by, and how the
shared forms of the instructions' meanings then keep it.
-/

namespace Sys2Proof.Proofs

open Machine Laws

/-- A property of the guarded parts that every operation of an instruction keeps, the Supervisor instructions apart: it
reads nothing else of the state, and an exception, a write of a pointer register, and in Supervisor mode a write of a
register and of IPEND[4] keep it. -/
structure KeptByOps (P : State → Prop) : Prop where
  same : ∀ {s t : State}, P s → guards (guardedOf s) t → P t
  takeException : ∀ {s : State}, P s → ∀ e ret, P (s.takeException e ret)
  doubleFault : ∀ {s : State}, P s → s.cur.inException = true → P s.doubleFault
  enterEvent3 : ∀ {s : State}, P s → ∀ src ret, P (s.enterEvent 3 src ret)
  setP : ∀ {s : State}, P s → ∀ p v, P (s.setP p v)
  writeReg : ∀ {s : State}, P s → s.user = false → ∀ r v, P (s.writeReg r v)
  setIntDisable : ∀ {s : State}, P s → s.user = false → ∀ r b, P (s.setIntDisable r b)

/-- The instructions whose meaning is guarded by Supervisor mode and that change the event controller (R1703). -/
def supervisorOnly : Instr → Bool
  | .cli _ | .sti _ | .raiseInt _ | .rti | .rtx | .rtn => true
  | _ => false

section

variable {s t : State} {P : State → Prop}

/-- The mode is a matter of the guarded parts. -/
theorem user_of_guards (e : guards (guardedOf s) t) : t.user = s.user := by
  have hcur : guardedCore t.cur = guardedCore s.cur := congrArg Prod.fst e
  have hpend : t.cur.ev.ipend = s.cur.ev.ipend := congrArg Guarded.ipend hcur
  rw [State.user, Core.user, Core.evbits, hpend]
  rfl

theorem done_keeps (hP : KeptByOps P) (h : P s) (e : guards (guardedOf s) t) (len : Nat) :
    outcomeKeeps P (done len t) := hP.same h (finish_guards e len)

theorem done_of_keeps (hP : KeptByOps P) (h : P s) (len : Nat) : outcomeKeeps P (done len s) :=
  done_keeps hP h rfl len

theorem raise_keeps (hP : KeptByOps P) (h : P s) (e : Exc) : outcomeKeeps P (raise e s) :=
  ite_keeps (hP.takeException h e _) (hP.same h rfl)

theorem raiseService_keeps (hP : KeptByOps P) (h : P s) (e : Exc) (len : Nat) :
    outcomeKeeps P (raiseService e len s) := by
  have moved : guards (guardedOf s) ((s.count 0x0D).finish len) := finish_guards (count_guards rfl _) len
  unfold raiseService
  split
  next inside => exact hP.doubleFault h inside
  · refine hP.enterEvent3 (hP.same h ?_) _ _
    exact setCur_guards moved rfl

theorem legal_keeps (hP : KeptByOps P) (h : P s) (ok : Bool) {k : Outcome} (hk : outcomeKeeps P k) :
    outcomeKeeps P (legal ok s k) := by
  cases ok
  · exact raise_keeps hP h _
  · exact hk

/-- A Supervisor instruction raises 0x2E in User mode. -/
theorem supervisor_keeps (hP : KeptByOps P) (h : P s) {i : Instr} {k : Outcome} (e : exec i s = supervisor s k)
    (hi : s.user = false → outcomeKeeps P (exec i s)) : outcomeKeeps P (exec i s) := by
  by_cases hu : s.user = true
  · rw [e, supervisor_user hu]
    exact raise_keeps hP h _
  · exact hi (Bool.eq_false_iff.2 hu)

theorem transfer_keeps (hP : KeptByOps P) (h : P s) (a : Word) : outcomeKeeps P (transfer a s) := by
  have moved : guards (guardedOf s) ((s.flow a).setPc a) := flow_guards rfl a
  exact ite_keeps (hP.takeException (hP.same h (count_guards moved _)) _ a) (hP.same h moved)

theorem call_keeps (hP : KeptByOps P) (h : P s) (len : Nat) (a : Word) :
    outcomeKeeps P (transfer a (s.saveRets len)) := by
  refine transfer_keeps hP (hP.same h ?_) a
  exact setCur_guards (loopStep_guards rfl len) rfl

theorem branch_keeps (hP : KeptByOps P) (h : P s) (taken : Bool) (o : BitVec 10) :
    outcomeKeeps P (s.branch taken o) :=
  ite_keeps (transfer_keeps hP (hP.same h (count_guards rfl _)) _) (done_keeps hP h (count_guards rfl _) 2)

theorem run_keeps (hP : KeptByOps P) (h : P s) {α : Type} {x : Res α} (hx : resKeeps (guards (guardedOf s)) x)
    {f : α → State → Outcome} (hf : ∀ a t, guards (guardedOf s) t → outcomeKeeps P (f a t)) :
    outcomeKeeps P (x.run f) := by
  cases x with
  | ok a t => exact hf a t hx
  | exc e t => exact raise_keeps hP (hP.same h hx) e
  | stall t => exact hP.same h hx
  | refused r => trivial
  | fault f => trivial

theorem loading_keeps (hP : KeptByOps P) (h : P s) {len : Nat} {a : Word} {n : Nat} {f : Nat → State → State}
    (hf : ∀ v t, P t → guards (guardedOf s) t → P (f v t)) : outcomeKeeps P (s.loading len a n f) :=
  run_keeps hP h (load_guards rfl a n) fun v t ht => done_of_keeps hP (hf v t (hP.same h ht) ht) len

theorem storing_keeps (hP : KeptByOps P) (h : P s) {len : Nat} {a : Word} {n : Nat} {w : Word} {f : State → State}
    (hf : ∀ t, P t → guards (guardedOf s) t → P (f t)) : outcomeKeeps P (s.storing len a n w f) :=
  run_keeps hP h (store_guards rfl a n _) fun _ t ht => done_of_keeps hP (hf t (hP.same h ht) ht) len

/-! ### Registers -/

theorem setDp_keeps (hP : KeptByOps P) (h : P s) (r : DPReg) (v : Word) : P (s.setDp r v) := by
  cases r
  case d r => exact hP.same h rfl
  case p r => exact hP.setP h r v

/-- A register that User mode may write is no guarded one but for SP, or the write is in Supervisor mode. -/
theorem writeReg_keeps (hP : KeptByOps P) (h : P s) {r : AllReg} (hr : s.user = true → supervisorDest r = false)
    (v : Word) : P (s.writeReg r v) := by
  by_cases hu : s.user = true
  · have dest := hr hu
    cases r
    case p r => exact hP.setP h r v
    case syscfg | reti | retx | retn | rete => exact absurd dest (by decide)
    case ax n | aw n | lc n | lt n | lb n => cases n <;> exact hP.same h rfl
    all_goals exact hP.same h rfl
  · exact hP.writeReg h (Bool.eq_false_iff.2 hu) r v

theorem postP_keeps (hP : KeptByOps P) (h : P s) (a : PostMod) (p : PReg) (n : Nat) : P (s.postP a p n) := by
  cases a
  case keep => exact h
  all_goals exact hP.setP h p _

theorem postI_guards (a : PostMod) (i : DagN) (n : Nat) : guards (guardedOf s) (s.postI a i n) := by
  cases a <;> rfl

theorem addPOrKeep_keeps (hP : KeptByOps P) (h : P s) (p x : PReg) : P (s.addPOrKeep p x) :=
  ite_keeps h (hP.setP h p _)

theorem postLine_keeps (hP : KeptByOps P) (h : P s) (inc : Bool) (p : PReg) : P (s.postLine inc p) :=
  ite_keeps (hP.setP h p _) h

theorem setDps_keeps (hP : KeptByOps P) (rs : List (DPReg × Word)) (h : P s) : P (s.setDps rs) := by
  induction rs generalizing s with
  | nil => exact h
  | cons r rs ih => exact ih (setDp_keeps hP h _ _)

end
end Sys2Proof.Proofs
end

section
/-!
An instruction keeps what its operations keep; those of Supervisor mode are a hypothesis.
-/

namespace Sys2Proof.Proofs

open Machine Laws

section

variable {s t : State} {g : Guarded × Guarded} {P : State → Prop}

theorem flags_guards (h : guards g s) (f : Astat → Astat) : guards g (s.flags f) := h

theorem sync_guards (h : guards g s) : guards g s.sync := h

theorem setAccs_guards (h : guards g s) (r1 r0 : Result 40) : guards g (s.setAccs r1 r0) := h

theorem resultHalf_guards (h : guards g s) (o : MMod) (x : Int) (d : DReg) (k : Half) :
    guards g (s.resultHalf o x d k) := h

theorem putWord_guards (h : guards g s) (o : MMod) (x : Int) (d : DReg) : guards g (s.putWord o x d).1 := by
  unfold State.putWord
  split <;> exact h

theorem resultWord_guards (h : guards g s) (o : MMod) (x : Int) (d : DReg) : guards g (s.resultWord o x d) :=
  putWord_guards h o x d

theorem resultDual_guards (h : guards g s) (m : MMod) (mm pair : Bool) (x1 x0 : Option Int) (d : DReg) :
    guards g (s.resultDual m mm pair x1 x0 d) := by
  cases pair
  case false => cases x1 <;> cases x0 <;> exact h
  case true =>
    cases x1
    case none =>
      cases x0
      · exact h
      · exact putWord_guards h _ _ _
    case some =>
      cases x0
      · exact putWord_guards h _ _ _
      · exact putWord_guards (putWord_guards h _ _ _) _ _ _

theorem accumulate_guards (h : guards g s) (m : MMod) (mm : Bool) (a : AccN) (op : MacOp) (p : Int) :
    guards g (s.accumulate m mm a op p) := by
  cases op <;> cases a <;> exact h

theorem prefetchLine_guards (h : guards g s) (a : Word) : guards g (s.prefetchLine a) :=
  ite_keeps (ite_keeps (startFill_guards (s := s.drawBit.2) h _) h) h

theorem flushAt_guards (h : guards g s) (a : Word) (inv : Bool) : resKeeps (guards g) (s.flushAt a inv) := by
  unfold State.flushAt
  split
  · exact h
  · exact ite_keeps h (flushLine_guards h a inv)

theorem testset_guards (h : guards g s) (a : Nat) : resKeeps (guards g) (s.testset a) := by
  have he := extAccess_guards h (.load s.cur.id) a
  unfold State.testset
  dsimp only
  refine ite_keeps h ?_
  split
  · exact memStore_guards h a 1 (s.mem.loadN a 1 ||| 0x80)
  · split <;> rename_i hb <;> rw [hb] at he
    · exact setCur_guards (boardWrite_guards (boardRead_guards he _ _ _) _ a 1 _) rfl
    · exact he
    · exact he
    · trivial
  · exact h

theorem execTestset_keeps (hP : KeptByOps P) (h : P s) (p : PReg) : outcomeKeeps P (execTestset p s) := by
  unfold execTestset
  dsimp only
  split
  next e _ => exact raise_keeps hP (hP.same h (checkData_guards rfl e)) _
  next e _ => exact raise_keeps hP (hP.same h (checkData_guards rfl e)) _
  next e => exact raise_keeps hP (hP.same h (checkData_guards rfl e)) _
  · refine ite_keeps trivial ?_
    have hw : guards (guardedOf s) ((s.dataWatch (s.p p) false s.dag1).dataWatch (s.p p) true s.dag1) :=
      dataWatch_guards (dataWatch_guards rfl _ _ _) _ _ _
    exact run_keeps hP (hP.same h hw) (testset_guards rfl _) fun _ t ht =>
      done_keeps hP (hP.same h hw) ht 2

theorem loadImm_keeps (hP : KeptByOps P) (h : P s) (r : ImmReg) (v : Word) :
    outcomeKeeps P (done 4 (s.writeReg (immTarget r) v)) := by
  refine done_of_keeps hP (writeReg_keeps hP h (fun _ => ?_) v) 4
  cases r <;> rfl

theorem immCount_keeps (hP : KeptByOps P) (h : P s) (e : guards (guardedOf s) t) (w : Nat) (n : BitVec 6) (len : Nat) :
    outcomeKeeps P (immCount w n (done len t)) := ite_keeps (done_keeps hP h e len) trivial

theorem writeReg_user (s : State) (r : AllReg) (v : Word) : (s.writeReg r v).user = s.user := by
  cases r
  case ax n | aw n | lc n | lt n | lb n => cases n <;> rfl
  all_goals rfl

/-- A push or pop of RETI is a Supervisor instruction (R1017, R1021). -/
theorem setIntDisable_keeps (hP : KeptByOps P) (h : P s) {r : AllReg} (hr : s.user = true → supervisorReg r = false)
    (b : Bool) : P (s.setIntDisable r b) := by
  by_cases hu : s.user = true
  · rw [State.setIntDisable, if_neg]
    · exact h
    · rintro rfl
      exact absurd (hr hu) (by decide)
  · exact hP.setIntDisable h (Bool.eq_false_iff.2 hu) r b

theorem execPushReg_keeps (hP : KeptByOps P) (h : P s) (r : AllReg) : outcomeKeeps P (execPushReg r s) := by
  unfold execPushReg
  split
  · exact raise_keeps hP h _
  next hr =>
    have named : s.user = true → supervisorReg r = false := by simpa using hr
    refine ite_keeps trivial (storing_keeps hP h fun t ht e => ?_)
    refine setIntDisable_keeps hP (hP.setP ht _ _) (fun hu => named ?_) _
    rwa [setP_user, user_of_guards e] at hu

theorem execPopReg_keeps (hP : KeptByOps P) (h : P s) (r : AllReg) : outcomeKeeps P (execPopReg r s) := by
  unfold execPopReg
  split
  · exact raise_keeps hP h _
  next hr =>
    have named : s.user = true → supervisorDest r = false := by simpa using hr
    refine ite_keeps trivial (ite_keeps trivial (loading_keeps hP h fun v t ht e => ?_))
    have user : t.user = s.user := user_of_guards e
    have written : P (t.writeReg r (loadZ v)) := writeReg_keeps hP ht (fun hu => named (user ▸ hu)) _
    refine setIntDisable_keeps hP (hP.setP written _ _) (fun hu => ?_) _
    rw [setP_user, writeReg_user, user] at hu
    have dest := named hu
    cases r
    case cycles | cycles2 => rfl
    all_goals exact dest

theorem execLink_keeps (hP : KeptByOps P) (h : P s) (n : BitVec 16) : outcomeKeeps P (execLink n s) := by
  refine ite_keeps trivial (run_keeps hP h (allOrNone_guards rfl (pushWords_guards rfl _ _)) fun a t ht => ?_)
  exact done_of_keeps hP (hP.setP (hP.setP (hP.same h ht) _ _) _ _) 4

theorem execUnlink_keeps (hP : KeptByOps P) (h : P s) : outcomeKeeps P (execUnlink s) := by
  refine run_keeps hP h (allOrNone_guards rfl (popWords_guards rfl _ _)) fun vs t ht => ?_
  refine done_keeps hP (hP.setP (hP.setP (hP.same h ht) .fp (vs.getD 0 0)) .sp (s.p .fp + 8)) ?_ 4
  rfl

/-- An instruction keeps the property: most change registers and flags alone. -/
theorem exec_keeps (hP : KeptByOps P) (h : P s) (i : Instr)
    (hsup : s.user = false → supervisorOnly i = true → outcomeKeeps P (exec i s)) : outcomeKeeps P (exec i s) := by
  cases i
  case moveReg d r =>
    refine legal_keeps hP h _ ?_
    split
    · exact raise_keeps hP h _
    next hr =>
      have named : s.user = true → supervisorDest d = false ∧ supervisorReg r = false := by simpa using hr
      exact ite_keeps trivial (done_of_keeps hP (writeReg_keeps hP h (fun hu => (named hu).1) _) _)
  case moveAccAcc a | moveAccDreg a _ | moveAccXDregLo a _ | moveAccLDregLo a _ | moveAccHDregHi a _ | negAcc a _ |
      absAcc a _ | satAcc a | rotAccImm a _ | rotAcc a _ | ashiftAcc a _ =>
    refine done_keeps hP h ?_ _
    cases a <;> rfl
  case negAccBoth => exact done_keeps hP h (flags_guards (setAccs_guards rfl _ _) _) _
  case absAccBoth | satAccBoth => exact done_keeps hP h (setAccs_guards rfl _ _) _
  case asrAccImm a _ | lsrAccImm a _ | lslAccImm a _ =>
    refine immCount_keeps hP h ?_ _ _ _
    cases a <;> rfl
  case ifCcMove => exact done_of_keeps hP (ite_keeps (setDp_keeps hP h _ _) h) 2
  case ifNccMove => exact done_of_keeps hP (ite_keeps h (setDp_keeps hP h _ _)) 2
  case loadImm16X | loadImm16Z | loadImm16Lo | loadImm16Hi => exact loadImm_keeps hP h _ _
  case moveDregEvenA0 | moveDregOddA1 => exact legal_keeps hP h _ (done_keeps hP h (flags_guards (putWord_guards rfl _ _ _) _) _)
  case moveDregPairAcc =>
    exact legal_keeps hP h _ (done_keeps hP h (flags_guards (putWord_guards (putWord_guards rfl _ _ _) _ _ _) _) _)
  case mulEven | mulOdd => exact legal_keeps hP h _ (done_keeps hP h (resultWord_guards rfl _ _ _) _)
  case mulDual => exact legal_keeps hP h _ (done_keeps hP h (resultDual_guards rfl _ _ _ _ _ _) _)
  case macA0SetLo | macA0AddLo | macA0SubLo | macA1SetHi | macA1AddHi | macA1SubHi =>
    exact done_keeps hP h (resultHalf_guards (accumulate_guards rfl _ _ _ _ _) _ _ _ _) _
  case macA0SetEven | macA1SetOdd | macA0AddEven | macA1AddOdd | macA0SubEven | macA1SubOdd =>
    exact legal_keeps hP h _ (done_keeps hP h (resultWord_guards (accumulate_guards rfl _ _ _ _ _) _ _ _) _)
  case macDual =>
    exact legal_keeps hP h _ (done_keeps hP h (resultDual_guards (accumulate_guards (accumulate_guards rfl _ _ _ _ _)
      _ _ _ _ _) _ _ _ _ _ _) _)
  case addSubDreg | accSumDiff | quadAddSub | quadAddSubCross | bitmux =>
    refine legal_keeps hP h _ (done_keeps hP h ?_ _)
    rfl
  case deposit =>
    refine ite_keeps (ite_keeps (done_keeps hP h ?_ _) (done_keeps hP h ?_ _)) (done_keeps hP h ?_ _) <;> rfl
  case asrImm | lsrImm | lslImm | lslImmSat | asrImmVec | lsrImmVec | lslImmVec | lslImmVecSat | asrImmHalf |
      lsrImmHalf | lslImmHalf | lslImmHalfSat =>
    refine immCount_keeps hP h ?_ _ _ _
    rfl
  case bxorShift | bxorAcc | saa | byteop1p | byteop16 | byteop2p | byteop3p | bytepack | emuexcpt => trivial
  case jumpShort | jumpLong | jumpAny | jumpPreg | jumpPcPreg | rts => exact transfer_keeps hP h _
  case callOff | callPreg | callPcPreg => exact call_keeps hP h _ _
  case rti | rtx | rtn | cli | sti | raiseInt => exact supervisor_keeps hP h rfl fun hu => hsup hu rfl
  case rte => exact raise_keeps hP h _
  case brcc | brncc | brccBp | brnccBp => exact branch_keeps hP h _ _
  case lsetupPreg c _ _ _ | lsetup c _ _ | lsetupPregHalf c _ _ _ =>
    refine done_keeps hP h ?_ _
    cases c <;> rfl
  case loadImm7P | addPreg | addPregTo | subPregFrom | addPregImm7 | addShift1Preg | addShift2Preg | addShifted1Preg |
      addShifted2Preg | shl1Preg | shl2Preg | shr1Preg | shr2Preg | addPregBrev =>
    exact done_of_keeps hP (hP.setP h _ _) _
  case loadP => exact ite_keeps trivial (loading_keeps hP h fun _ _ ht _ => postP_keeps hP (hP.setP ht _ _) _ _ _)
  case loadD | loadWZ | loadWX | loadBZ | loadBX =>
    refine loading_keeps hP h fun _ t ht _ => postP_keeps hP (hP.same ht ?_) _ _ _
    rfl
  case storeP | storeD | storeW | storeB => exact storing_keeps hP h fun _ ht _ => postP_keeps hP ht _ _ _
  case loadDOff | loadWZOff | loadWXOff | loadDLong | loadWZLong | loadWXLong | loadBZLong | loadBXLong =>
    refine loading_keeps hP h fun _ _ ht _ => hP.same ht ?_
    rfl
  case loadPOff | loadPLong => exact loading_keeps hP h fun _ _ ht _ => hP.setP ht _ _
  case storeDOff | storeWOff | storePOff | storeFp | storeDLong | storePLong | storeWLong | storeBLong =>
    exact storing_keeps hP h fun _ ht _ => ht
  case loadFp => exact loading_keeps hP h fun _ _ ht _ => setDp_keeps hP ht _ _
  case loadDIdx | loadWZIdx | loadWXIdx =>
    refine ite_keeps trivial (loading_keeps hP h fun _ _ ht _ => hP.setP (hP.same ht ?_) _ _)
    rfl
  case loadLoIdx | loadHiIdx =>
    refine loading_keeps hP h fun _ _ ht _ => addPOrKeep_keeps hP (hP.same ht ?_) _ _
    rfl
  case storeDIdx => exact ite_keeps trivial (storing_keeps hP h fun _ ht _ => hP.setP ht _ _)
  case storeLoIdx | storeHiIdx => exact storing_keeps hP h fun _ ht _ => addPOrKeep_keeps hP ht _ _
  case loadDI | loadLoI | loadHiI =>
    refine loading_keeps hP h fun _ _ ht _ => hP.same (hP.same ht ?_) (postI_guards _ _ _)
    rfl
  case storeDI | storeLoI | storeHiI => exact storing_keeps hP h fun _ ht _ => hP.same ht (postI_guards _ _ _)
  case loadDIM =>
    refine loading_keeps hP h fun _ _ ht _ => hP.same ht ?_
    rfl
  case storeDIM =>
    refine storing_keeps hP h fun _ ht _ => hP.same ht ?_
    rfl
  case excpt => exact raiseService_keeps hP (hP.same h (count_guards rfl _)) _ _
  case idle => refine ite_keeps trivial (ite_keeps (done_keeps hP h ?_ _) (hP.same h ?_)) <;> rfl
  case csync | ssync =>
    refine ite_keeps (done_keeps hP h (sync_guards (count_guards rfl _)) _) (hP.same h ?_)
    rfl
  case testset p => exact execTestset_keeps hP h p
  case prefetch =>
    exact done_of_keeps hP (postLine_keeps hP (hP.same h (prefetchLine_guards rfl _)) _ _) _
  case flush | flushinv =>
    exact run_keeps hP h (flushAt_guards rfl _ _) fun _ _ ht =>
      done_of_keeps hP (postLine_keeps hP (hP.same h ht) _ _) _
  case iflush =>
    refine ite_keeps (hP.same h ?_) (done_of_keeps hP (postLine_keeps hP (hP.same h (iflushLine_guards rfl _)) _ _) _)
    rfl
  case pushReg r => exact execPushReg_keeps hP h r
  case popReg r => exact execPopReg_keeps hP h r
  case pushMulti =>
    exact run_keeps hP h (pushWords_guards rfl _ _) fun _ _ ht => done_of_keeps hP (hP.setP (hP.same h ht) _ _) _
  case popMulti =>
    exact run_keeps hP h (allOrNone_guards rfl (popWords_guards rfl _ _)) fun _ _ ht =>
      done_of_keeps hP (hP.setP (setDps_keeps hP _ (hP.same h ht)) _ _) _
  case link n => exact execLink_keeps hP h n
  case unlink => exact execUnlink_keeps hP h
  all_goals
    refine done_keeps hP h ?_ _
    rfl

end
end Sys2Proof.Proofs
end

section
/-!
O59: what an instruction of User mode cannot change while it stays in User mode (60_exceptions.md R1703; 10_state.md
R54, R63).
-/

namespace Sys2Proof.Proofs

open Machine Laws

section

variable {s t : State} {P : State → Prop}

/-! ## Leaving User mode -/

theorem user_eq_false_iff : s.user = false ↔ s.cur.ev.ipend &&& 0xFFEF ≠ 0 := by
  rw [State.user, Core.user, Core.evbits, beq_eq_false_iff_ne]

/-- Event 3 in service is Supervisor mode (R1702). -/
theorem enterEvent3_user (s : State) (src ret : Word) : (s.enterEvent 3 src ret).user = false := by
  obtain ⟨-, -, -, -, hev, -⟩ := enterEvent3_keeps s src ret
  rw [user_eq_false_iff, hev]
  intro e
  have bit3 := congrArg (fun x : HWord => x.getLsbD 3) e
  simp at bit3

theorem user_of_inException (h : s.cur.inException = true) : s.user = false := by
  rw [user_eq_false_iff]
  intro e
  have low : s.cur.ev.ipend &&& 0xF = (s.cur.ev.ipend &&& 0xFFEF) &&& 0xF := by rw [BitVec.and_assoc]; rfl
  rw [Core.inException, low, e] at h
  exact absurd h (by decide)

theorem doubleFault_user (h : s.cur.inException = true) : s.doubleFault.user = false := by
  unfold State.doubleFault
  split
  · refine user_eq_false_iff.2 (?_ : (0x0012 : HWord) &&& 0xFFEF ≠ 0)
    decide
  · exact user_of_inException h

theorem takeException_user (s : State) (e : Exc) (ret : Word) : (s.takeException e ret).user = false := by
  unfold State.takeException
  split
  next h => exact doubleFault_user h
  · exact enterEvent3_user _ _ _

theorem setIntDisable_user (s : State) (r : AllReg) (b : Bool) : (s.setIntDisable r b).user = s.user := by
  have set : ∀ x : HWord, (x ||| 0x10) &&& 0xFFEF = x &&& 0xFFEF := fun x => by
    rw [BitVec.and_comm, BitVec.and_or_distrib_left, BitVec.and_comm]
    exact BitVec.or_zero
  have clear : ∀ x : HWord, (x &&& 0xFFEF) &&& 0xFFEF = x &&& 0xFFEF := fun x => by rw [BitVec.and_assoc, BitVec.and_self]
  unfold State.setIntDisable
  split
  · cases b
    · exact congrArg (· == 0) (clear s.cur.ev.ipend)
    · exact congrArg (· == 0) (set s.cur.ev.ipend)
  · rfl

/-- What is guarded is as it was, or User mode has been left. -/
def confined (g : Guarded × Guarded) (t : State) : Prop := t.user = true → guards g t

theorem confined_of_supervisor {g : Guarded × Guarded} (h : t.user = false) : confined g t :=
  fun hu => absurd (h.symm.trans hu) Bool.false_ne_true

/-- In User mode SP is the user stack pointer (R54). -/
theorem setP_guards_user (hu : s.user = true) (p : PReg) (v : Word) : guards (guardedOf s) (s.setP p v) := by
  rw [State.setP, hu]
  cases p <;> rfl

theorem confined_keptByOps (g : Guarded × Guarded) : KeptByOps (confined g) where
  same h e hu := e.trans (h (user_of_guards e ▸ hu))
  takeException _ e ret := confined_of_supervisor (takeException_user _ e ret)
  doubleFault _ inside := confined_of_supervisor (doubleFault_user inside)
  enterEvent3 _ src ret := confined_of_supervisor (enterEvent3_user _ src ret)
  setP {s} h p v hu :=
    have user : s.user = true := (setP_user s p v).symm.trans hu
    (setP_guards_user user p v).trans (h user)
  writeReg _ hu r v := confined_of_supervisor ((writeReg_user _ r v).trans hu)
  setIntDisable _ hu r b := confined_of_supervisor ((setIntDisable_user _ r b).trans hu)

end

/-- Settles O59: an instruction of User mode keeps what is guarded, or raises an exception and leaves User mode. -/
theorem userModeConfined : Obligations.UserModeConfined := by
  intro i s t hu _ he ht
  have kept : outcomeKeeps (confined (guardedOf s)) (exec i s) :=
    exec_keeps (confined_keptByOps _) (fun _ => rfl) i fun hs => absurd (hs.symm.trans hu) Bool.false_ne_true
  rw [he] at kept
  have guarded : guardedCore t.cur = guardedCore s.cur := congrArg Prod.fst (kept ht)
  simpa only [guardedCore, Guarded.mk.injEq] using guarded

end Sys2Proof.Proofs
end

section
/-!
O57, first part: IMASK[4:0] stay 1 and the cores stay two (60_exceptions.md R1711) through events, resets, every
instruction and stores to the core MMRs.
-/

namespace Sys2Proof.Proofs

open Machine Laws

section

variable {s t : State} {P : State → Prop}

/-! ## What decides the invariant -/

theorem coresInv_of_guards (h : s.coresInv) (e : guards (guardedOf s) t) : t.coresInv := by
  have hcur : guardedCore t.cur = guardedCore s.cur := congrArg Prod.fst e
  have hoth : guardedCore t.oth = guardedCore s.oth := congrArg Prod.snd e
  have idc : t.cur.id = s.cur.id := congrArg Guarded.id hcur
  have ido : t.oth.id = s.oth.id := congrArg Guarded.id hoth
  have maskc : t.cur.ev.imask = s.cur.ev.imask := congrArg Guarded.imask hcur
  have masko : t.oth.ev.imask = s.oth.ev.imask := congrArg Guarded.imask hoth
  obtain ⟨hc, ho, hid⟩ := h
  refine ⟨?_, ?_, ?_⟩
  · rw [Core.maskInv, maskc]
    exact hc
  · rw [Core.maskInv, masko]
    exact ho
  · rw [idc, ido]
    exact hid

theorem setCur_coresInv (h : s.coresInv) {c : Core} (hm : c.maskInv) (hi : c.id = s.cur.id) : (s.setCur c).coresInv := by
  obtain ⟨-, ho, hid⟩ := h
  exact ⟨hm, ho, hi ▸ hid⟩

theorem setImem_coresInv (h : s.coresInv) (m : IMem) : (s.setImem m).coresInv := h

theorem setDmem_coresInv (h : s.coresInv) (d : DMem) : (s.setDmem d).coresInv := h

theorem setEv_coresInv (h : s.coresInv) {e : EventCtl} (he : e.imask &&& 0x001F = 0x001F) : (s.setEv e).coresInv :=
  setCur_coresInv h he rfl

/-! ## Resets and events -/

/-- A reset of the cores sets IMASK to 0x1F, and Core A is the current core (R1928). -/
theorem resetCores_coresInv (s : State) (again : Bool) : (s.resetCores again).coresInv :=
  have mask : (0x001F : HWord) &&& 0x001F = 0x001F := by decide
  have apart : CoreId.a ≠ .b := by decide
  ⟨mask, mask, apart⟩

theorem doubleFault_coresInv (h : s.coresInv) : s.doubleFault.coresInv := by
  unfold State.doubleFault
  split
  · exact resetCores_coresInv _ true
  · exact h

theorem setReturn_ev (c : Core) (n : Nat) (ret : Word) : (c.setReturn n ret).ev = c.ev := by
  unfold Core.setReturn
  split <;> rfl

theorem setReturn_id (c : Core) (n : Nat) (ret : Word) : (c.setReturn n ret).id = c.id := by
  unfold Core.setReturn
  split <;> rfl

theorem enterEvent_coresInv (h : s.coresInv) (n : Nat) (src ret : Word) : (s.enterEvent n src ret).coresInv := by
  have ht : (s.recordFlow (s.cur.ev.ipend ||| bitOf n) src (s.cur.vector n)).coresInv :=
    coresInv_of_guards h (recordFlow_guards rfl _ _ _)
  unfold State.enterEvent
  dsimp only
  generalize s.recordFlow (s.cur.ev.ipend ||| bitOf n) src (s.cur.vector n) = t at ht ⊢
  refine setCur_coresInv ht ?_ (setReturn_id t.cur n ret)
  obtain ⟨hm, -⟩ := ht
  refine (?_ : (t.cur.setReturn n ret).ev.imask &&& 0x001F = 0x001F)
  rw [setReturn_ev]
  exact hm

theorem report_coresInv (h : s.coresInv) (r : Report) (q : Seqstat) :
    (s.setCur { s.cur.report r with seqstat := q }).coresInv := by
  cases r <;> exact h

theorem takeException_coresInv (h : s.coresInv) (e : Exc) (ret : Word) : (s.takeException e ret).coresInv := by
  have hc : (if e.code = 0x24 ∨ e.code = 0x2A then s.count 0x0F else s).coresInv :=
    coresInv_of_guards h (ite_keeps (count_guards rfl _) rfl)
  unfold State.takeException
  split
  · exact doubleFault_coresInv h
  · exact enterEvent_coresInv (report_coresInv hc e.report _) 3 _ ret

theorem interrupt_coresInv (h : s.coresInv) (n : Nat) : (s.interrupt n).coresInv :=
  enterEvent_coresInv (coresInv_of_guards h (count_guards rfl _)) n _ _

/-- No operation of an instruction but a reset touches IMASK or a core's identity. -/
theorem coresInv_keptByOps : KeptByOps State.coresInv where
  same := coresInv_of_guards
  takeException := takeException_coresInv
  doubleFault h _ := doubleFault_coresInv h
  enterEvent3 h src ret := enterEvent_coresInv h 3 src ret
  setP h _ _ := h
  writeReg h _ r v := by
    cases r
    case ax n | aw n | lc n | lt n | lb n => cases n <;> exact h
    all_goals exact h
  setIntDisable h _ _ _ := ite_keeps (Q := State.coresInv) h h

/-! ## The Supervisor instructions -/

theorem done_coresInv (h : s.coresInv) (len : Nat) : outcomeKeeps State.coresInv (done len s) :=
  done_of_keeps coresInv_keptByOps h len

theorem goTo_coresInv (h : s.coresInv) (a : Word) : outcomeKeeps State.coresInv (goTo a s) :=
  ite_keeps (takeException_coresInv (coresInv_of_guards h (count_guards (s := s.setPc a) rfl _)) _ a) h

theorem returnTo_coresInv (h : s.coresInv) (a : Word) (enable : Bool) :
    outcomeKeeps State.coresInv (returnTo a enable s) := by
  have hf : (s.flow a).coresInv := coresInv_of_guards h (flow_guards rfl a)
  unfold returnTo
  dsimp only
  generalize s.flow a = t at hf ⊢
  refine goTo_coresInv (setCur_coresInv hf ?_ ?_) a
  · obtain ⟨hm, -⟩ := hf
    exact hm
  · rfl

/-- IMASK[4:0] are 1 whatever is written (R1711). -/
theorem maskInv_of_write (x : HWord) : ((x &&& 0xFFE0) ||| 0x001F) &&& 0x001F = 0x001F := by
  rw [BitVec.and_comm, BitVec.and_or_distrib_left, BitVec.and_self, BitVec.and_comm, BitVec.and_assoc]
  exact congrArg (· ||| (0x001F : HWord)) BitVec.and_zero

theorem execRaiseInt_coresInv (h : s.coresInv) (n : BitVec 4) (hu : s.user = false) :
    outcomeKeeps State.coresInv (execRaiseInt n s) := by
  rw [execRaiseInt, supervisor_ok hu]
  split
  case h_4 => exact resetCores_coresInv _ true
  case h_5 => exact done_coresInv (by exact h) 2
  case h_6 => exact done_coresInv (by exact h) 2
  all_goals trivial

theorem supervisorOnly_coresInv (h : s.coresInv) (i : Instr) (hu : s.user = false) (hi : supervisorOnly i = true) :
    outcomeKeeps State.coresInv (exec i s) := by
  cases i
  case cli d =>
    change outcomeKeeps State.coresInv (supervisor s _)
    rw [supervisor_ok hu]
    refine done_coresInv (setEv_coresInv (s := s.setD d _) h ?_) 2
    obtain ⟨hm, -⟩ := h
    rw [BitVec.and_assoc, BitVec.and_self]
    exact hm
  case sti r =>
    change outcomeKeeps State.coresInv (supervisor s _)
    rw [supervisor_ok hu]
    exact done_coresInv (setEv_coresInv h (maskInv_of_write _)) 2
  case raiseInt n => exact execRaiseInt_coresInv h n hu
  case rti | rtx | rtn =>
    change outcomeKeeps State.coresInv (supervisor s _)
    rw [supervisor_ok hu]
    exact returnTo_coresInv h _ _
  all_goals exact absurd hi Bool.false_ne_true

theorem exec_coresInv (h : s.coresInv) (i : Instr) : outcomeKeeps State.coresInv (exec i s) :=
  exec_keeps coresInv_keptByOps h i (supervisorOnly_coresInv h i)

theorem raise_coresInv (h : s.coresInv) (e : Exc) : outcomeKeeps State.coresInv (raise e s) :=
  raise_keeps coresInv_keptByOps h e

/-! ## Stores to the core MMRs -/

theorem instTest_coresInv (h : s.coresInv) (k : LineKey) : (s.instTest k).2.coresInv := by
  unfold State.instTest
  dsimp only
  split <;> exact h

theorem dataTest_coresInv (h : s.coresInv) (k : LineKey) : (s.dataTest k).2.coresInv := by
  unfold State.dataTest
  dsimp only
  split <;> exact h

theorem itest_coresInv (h : s.coresInv) (c : Word) : (itest c s).coresInv := by
  have line : ∀ (m : IMem) (k : LineKey), ((s.setImem m).instTest k).2.coresInv := fun m k =>
    instTest_coresInv (s := s.setImem m) h k
  unfold itest
  dsimp only
  refine ite_keeps (ite_keeps (ite_keeps ?_ ?_) (ite_keeps ?_ ?_)) (ite_keeps ?_ ?_)
  · exact setImem_coresInv (line _ _) _
  · exact h
  · exact setImem_coresInv (line _ _) _
  · exact h
  · exact setImem_coresInv (line _ _) _
  · exact setImem_coresInv (line _ _) _

theorem dtest_coresInv (h : s.coresInv) (c : Word) : (dtest c s).coresInv := by
  have line : ∀ (d : DMem) (k : LineKey), ((s.setDmem d).dataTest k).2.coresInv := fun d k =>
    dataTest_coresInv (s := s.setDmem d) h k
  have sram : ∀ (d : DMem) (write : Bool) (a v : Nat), (if write then (s.setDmem d).memStore a 8 v
      else (s.setDmem d).dtestData ((s.setDmem d).mem.loadN a 8)).coresInv := fun d write a v =>
    ite_keeps (Q := State.coresInv) h h
  unfold dtest
  dsimp only
  refine ite_keeps (ite_keeps ?_ ?_) (ite_keeps (sram _ _ _ _) (ite_keeps (ite_keeps (sram _ _ _ _)
    (ite_keeps ?_ ?_)) (ite_keeps ?_ ?_)))
  · exact h
  · exact h
  · exact setDmem_coresInv (line _ _) _
  · exact setDmem_coresInv (line _ _) _
  · exact setDmem_coresInv (setDmem_coresInv (line _ _) _) _
  · refine setDmem_coresInv (coresInv_of_guards (line _ _) (lruOf_guards rfl _)) _

theorem imemControl_coresInv (h : s.coresInv) (v : Word) : (imemControl v s).coresInv := by
  have outdated : ∀ ls : List (LineKey × Line), (ls.foldl (fun s x => s.outdateLine x.1 x.2) s).coresInv := fun ls =>
    foldl_keeps (P := State.coresInv) (fun t x ht => coresInv_of_guards ht (outdateLine_guards rfl x.1 x.2)) ls h
  have voided : ∀ (t : State) keep ls, t.coresInv → (t.voidLines true keep ls).2.coresInv := fun t keep ls ht =>
    coresInv_of_guards ht (voidLines_guards rfl _ _ _)
  unfold imemControl
  dsimp only
  have kept := voided _ (fun _ => v.getLsbD 2) s.cur.imem.lines
    (ite_keeps (c := v.getLsbD 2 = true) (Q := State.coresInv) h (outdated s.cur.imem.lines))
  refine ite_keeps (Q := State.coresInv) ?_ ?_ <;> exact ite_keeps (Q := State.coresInv) kept kept

theorem dmemControl_coresInv (h : s.coresInv) (v : Word) : mmrKeeps State.coresInv (dmemControl v s) := by
  have voided : ∀ keep ls, (s.voidLines false keep ls).2.coresInv := fun keep ls =>
    coresInv_of_guards h (voidLines_guards rfl _ _ _)
  have scrubbed : ∀ (t : State) (c : Bool) (lo hi : Nat), t.coresInv → (if c then t.scrub lo hi else t).coresInv :=
    fun t c lo hi ht => ite_keeps (Q := State.coresInv) ht ht
  unfold dmemControl
  dsimp only
  exact ite_keeps trivial (scrubbed _ _ _ _ (scrubbed _ _ _ _ (voided _ _)))

theorem wpStore_coresInv (h : s.coresInv) (w : WatchUnit) : mmrKeeps State.coresInv (wpStore w s) :=
  ite_keeps trivial h

theorem coreMmrWrite_coresInv (h : s.coresInv) (off : Nat) (v : Word) :
    mmrKeeps State.coresInv (coreMmrWrite off v s) := by
  have hm : s.cur.ev.imask &&& 0x001F = 0x001F := h.1
  unfold coreMmrWrite
  dsimp only
  split
  case h_1 => exact dmemControl_coresInv h v
  case h_4 => exact dtest_coresInv h v
  case h_7 => exact imemControl_coresInv h v
  case h_10 => exact itest_coresInv h v
  case h_13 => exact setEv_coresInv h (maskInv_of_write _)
  case h_17 => exact ite_keeps trivial h
  case h_25 => exact wpStore_coresInv h _
  case h_26 => exact wpStore_coresInv h _
  case h_27 => exact wpStore_coresInv h _
  case h_31 =>
    have cplb : ∀ (c : Bool) (t : State), t.coresInv →
        mmrKeeps State.coresInv (if c then .refused .coreMmrSetting else .ok 0 t) := fun c t ht => ite_keeps trivial ht
    have watch : ∀ w : WatchUnit, mmrKeeps State.coresInv (wpStore w s) := wpStore_coresInv h
    refine ite_keeps trivial (ite_keeps (cplb _ _ h) (ite_keeps (cplb _ _ h) (ite_keeps (cplb _ _ h)
      (ite_keeps (cplb _ _ h) (ite_keeps ?_ (ite_keeps (watch _) (ite_keeps (watch _) (ite_keeps (watch _)
      (ite_keeps (watch _) trivial)))))))))
    exact h
  all_goals exact h

end
end Sys2Proof.Proofs
end

section
/-!
The peripherals, their controllers and the outside world leave the guarded part of the cores alone.
-/

namespace Sys2Proof.Proofs

open Machine Laws

section

variable {s t : State} {g : Guarded × Guarded} {P : State → Prop}

/-! ## The reset of the peripherals, the controllers and the clocks -/

theorem endBreak_guards (h : guards g s) : guards g s.endBreak := ite_keeps h h

theorem loseSdram_guards (h : guards g s) : guards g s.loseSdram := ite_keeps (Q := guards g) h h

theorem resetPeripherals_guards (h : guards g s) : guards g s.resetPeripherals :=
  setSpi_guards (endBreak_guards (loseSdram_guards h)) .reset

theorem systemSoftwareReset_guards (h : guards g s) : guards g s.systemSoftwareReset := resetPeripherals_guards h

/-- What leaves the guarded part of each core keeps the whole. -/
theorem cores_guards (h : guards g s) {f : Core → Core} (hf : ∀ c, guardedCore (f c) = guardedCore c) :
    guards g { s with cur := f s.cur, oth := f s.oth } := by
  rw [guards, guardedOf, hf, hf]
  exact h

theorem releaseB_guards (h : guards g s) : guards g s.releaseB :=
  cores_guards (f := fun c => if c.id = .b then { c with held := false } else c) h fun c => by
    split <;> rfl

theorem setSic_guards (h : guards g s) (id : CoreId) (c : Sic) : guards g (s.setSic id c) := by
  cases id <;> exact h

theorem setPower_guards (h : guards g s) (p : Power) : guards g (s.setPower p) := h

theorem sicWrite_guards (h : guards g s) (id : CoreId) (off : Nat) (v : Word) :
    mmrKeeps (guards g) (sicWrite id off v s) := by
  have set : ∀ k : Sic, guards g (s.setSic id k) := setSic_guards h id
  unfold sicWrite
  dsimp only
  split
  case h_3 => exact h
  case h_4 => exact h
  case h_7 => exact ite_keeps (ite_keeps (set _) trivial) trivial
  all_goals exact set _

theorem sicBlockWrite_guards (h : guards g s) (id : CoreId) (off n : Nat) (v : Word) :
    mmrKeeps (guards g) (sicBlockWrite id off n v s) := by
  have swrst : mmrKeeps (guards g) (swrstWrite v s) :=
    by refine ite_keeps (Q := guards g) (systemSoftwareReset_guards ?_) ?_ <;> exact h
  have syscr : mmrKeeps (guards g) (match id with | .a => syscrWrite v s | .b => syscrBWrite v s) := by
    cases id
    · exact ite_keeps trivial (ite_keeps (Q := guards g) (releaseB_guards h) h)
    · exact ite_keeps trivial h
  exact ite_keeps (ite_keeps swrst trivial) (ite_keeps (ite_keeps syscr trivial)
    (ite_keeps (sicWrite_guards h id off v) trivial))

theorem powerWrite_guards (h : guards g s) (off n : Nat) (v : Word) : mmrKeeps (guards g) (powerWrite off n v s) := by
  unfold powerWrite
  dsimp only
  split
  case h_2 => exact ite_keeps trivial h
  case h_3 => exact ite_keeps trivial h
  case h_6 => trivial
  all_goals exact h

theorem leaveIdle_guards (h : guards g s) : guards g s.leaveIdle := setSic_guards (setPower_guards h _) _ _

theorem sdramDecay_guards (h : guards g s) : guards g s.sdramDecay := ite_keeps (Q := guards g) h h

theorem pllLatch_guardedCore (s : State) (c : Core) : guardedCore (s.pllLatch c) = guardedCore c := by
  unfold State.pllLatch
  dsimp only
  split <;> rfl

theorem pllWake_guards (h : guards g s) : guards g s.pllWake :=
  cores_guards (setPower_guards h _) (pllLatch_guardedCore _)

theorem pllApply_guards (h : guards g s) : outcomeKeeps (guards g) s.pllApply := by
  unfold State.pllApply
  dsimp only
  refine ite_keeps trivial (ite_keeps trivial (ite_keeps (sdramDecay_guards h) ?_))
  split
  · exact sdramDecay_guards h
  · exact h
  · refine ite_keeps (Q := guards g) ?_ ?_
    · exact setPower_guards h _
    · exact pllWake_guards (setPower_guards h _)

/-! ## The external bus interface -/

theorem enterSelfRefresh_guards (h : guards g s) : guards g s.enterSelfRefresh := by
  unfold State.enterSelfRefresh
  dsimp only
  split <;> exact h

theorem ebiuWrite_guards (h : guards g s) (off n : Nat) (v : Word) : mmrKeeps (guards g) (ebiuWrite off n v s) := by
  have sdgctl : mmrKeeps (guards g) (sdgctlWrite v s) :=
    ite_keeps trivial (ite_keeps trivial (ite_keeps trivial (ite_keeps trivial (ite_keeps (Q := guards g) h h))))
  unfold ebiuWrite
  dsimp only
  split
  case h_4 => exact sdgctl
  case h_7 => exact ite_keeps (Q := guards g) h h
  case h_8 => trivial
  all_goals exact ite_keeps trivial h

/-! ## The timers, the parallel ports and the SPI -/

theorem timerWrite_guards (h : guards g s) (first count shared off n : Nat) (v : Word) :
    mmrKeeps (guards g) (timerWrite first count shared off n v s) := by
  have store : ∀ x off n, mmrKeeps (guards g) (timerStore x off n v s) := by
    intro x off n
    unfold timerStore
    dsimp only
    split
    · exact ite_keeps trivial h
    · exact h
    · exact ite_keeps h h
    · exact ite_keeps h h
    · trivial
  unfold timerWrite
  dsimp only
  exact ite_keeps (store _ _ _) (ite_keeps (ite_keeps (ite_keeps trivial h) (ite_keeps h (ite_keeps h trivial)))
    trivial)

theorem ppiSample_guards (h : guards g s) (x : Nat) (d : HWord) : guards g (s.ppiSample x d).2 := by
  unfold State.ppiSample
  dsimp only
  split
  · split
    · exact h
    · exact ite_keeps (Q := guards g) h h
  · exact h

theorem ppiShows_guards (h : guards g s) (x : Nat) (p : Ppi) : guards g (s.ppiShows x p) := by
  unfold State.ppiShows
  dsimp only
  split <;> exact h

theorem setPpi_guards (h : guards g s) (x : Nat) (p : Ppi) : guards g (s.setPpi x p) := h

theorem mapTimers_guards (h : guards g s) (f : Nat → GpTimer → GpTimer) : guards g (s.mapTimers f) := h

theorem ppiClk_guards (h : guards g s) (x : Nat) (d : HWord) (fs1 fs2 fs3 : Bool) :
    guards g (s.ppiClk x d fs1 fs2 fs3) := by
  have timers : guards g (s.ppiClkTimers x) := h
  unfold State.ppiClk
  generalize s.ppiClkTimers x = u at timers ⊢
  dsimp only
  refine ite_keeps (Q := guards g) ?_ timers
  exact ppiShows_guards (setPpi_guards (ppiSample_guards (setPpi_guards (mapTimers_guards timers _) _ _) _ _) _ _) _ _

theorem ppiWrite_guards (h : guards g s) (x off n : Nat) (v : Word) : mmrKeeps (guards g) (ppiWrite x off n v s) := by
  have set : ∀ q : Ppi, mmrKeeps (guards g)
      (if (s.sys.ppi x).en then .refused .unitSetting else .ok 0 (s.setPpi x q)) := fun _ => ite_keeps trivial h
  unfold ppiWrite
  dsimp only
  split
  · exact ite_keeps (ite_keeps h (ite_keeps h trivial)) (ite_keeps trivial h)
  · exact h
  · exact set _
  · exact set _
  · exact set _
  · trivial

theorem spiShows_guards (h : guards g s) (w : HWord) : guards g (s.spiShows w) := ite_keeps h h

theorem spiBegin_guards (h : guards g s) : guards g s.spiBegin := by
  unfold State.spiBegin
  dsimp only
  refine spiShows_guards (setSpi_guards ?_ _) _
  split <;> exact h

theorem spiEnd_guards (h : guards g s) (w : HWord) : guards g (s.spiEnd w) := by
  unfold State.spiEnd
  dsimp only
  refine setSpi_guards ?_ _
  split <;> exact h

theorem spiPut_guards (h : guards g s) (v : HWord) : guards g (s.spiPut v) := by
  have drawn : guards g (if s.spiRace then s.drawBit else (false, s)).2 := by split <;> exact h
  unfold State.spiPut
  dsimp only
  generalize (if s.spiRace then s.drawBit else (false, s)) = x at drawn ⊢
  split
  · exact spiShows_guards (setSpi_guards (s := x.2.drawWord.2.drawBit.2) drawn _) _
  · exact setSpi_guards drawn _

theorem spiTxMove_guards (h : guards g s) : guards g s.spiTxMove :=
  ite_keeps (setSpi_guards h _) (spiPut_guards (setSpi_guards h _) _)

theorem spiWrite_guards (h : guards g s) (off n : Nat) (v : Word) : mmrKeeps (guards g) (spiWrite off n v s) := by
  unfold spiWrite
  dsimp only
  split
  · exact ite_keeps trivial (setSpi_guards h _)
  · exact setSpi_guards h _
  · exact setSpi_guards h _
  · exact spiPut_guards h _
  · exact h
  · exact setSpi_guards h _
  · exact h
  · trivial

/-! ## The serial ports -/

theorem frameSync_guards (h : guards g s) (x : Nat) : guards g (s.frameSync x) :=
  ite_keeps h (ite_keeps h (ite_keeps h h))

theorem sportBits_guards (h : guards g s) (x : Nat) (a b : Word) : guards g (s.sportBits x a b) :=
  ite_keeps (Q := guards g) h (ite_keeps (ite_keeps (Q := guards g) h h) h)

theorem sportFreeBits_guards (h : guards g s) (x : Nat) : guards g (s.sportFreeBits x) :=
  sportBits_guards (s := { s with free := s.free + 2 }) h x _ _

theorem sportMove_guards (h : guards g s) {x : Nat} {m : SportMove} (e : s.sportMove x m = some t) : guards g t := by
  cases m
  case load =>
    obtain ⟨p, -, rfl⟩ := Option.map_eq_some_iff.1 e
    exact h
  case txStart =>
    change (if _ then some _ else some _) = some t at e
    split at e <;> cases e <;> exact h
  case txEnd => cases e; exact ite_keeps (Q := guards g) h h
  case rxStart => cases e; exact h
  case rxEnd => cases e; exact sportFreeBits_guards h x
  case rxMove => cases e; exact h
  case frame => cases e; exact frameSync_guards h x
  case slotStart => cases e; exact ite_keeps (Q := guards g) h h
  case slotEnd => cases e; exact sportFreeBits_guards h x

theorem sportTfsIn_guards (h : guards g s) (x : Nat) : guards g (s.sportTfsIn x) :=
  ite_keeps h (ite_keeps h (ite_keeps h h))

theorem sportRfsIn_guards (h : guards g s) (x : Nat) : guards g (s.sportRfsIn x) :=
  ite_keeps h (ite_keeps h (ite_keeps h (ite_keeps (frameSync_guards h x) h)))

theorem sportWrite_guards (h : guards g s) (x off n : Nat) (v : Word) :
    mmrKeeps (guards g) (sportWrite x off n v s) := by
  have set : ∀ (c : Bool) (q : Sport), mmrKeeps (guards g) (if c then .ok 0 s else .ok 0 (s.setSport x q)) :=
    fun _ _ => ite_keeps h h
  have select : mmrKeeps (guards g) (sportSelect x off v s) :=
    ite_keeps trivial (ite_keeps (ite_keeps trivial h) (ite_keeps (ite_keeps trivial h) trivial))
  unfold sportWrite
  dsimp only
  split
  case h_1 => exact ite_keeps (ite_keeps h (ite_keeps trivial h)) (ite_keeps (ite_keeps (Q := guards g) h h) h)
  case h_2 => exact set _ _
  case h_4 => exact set _ _
  case h_7 => exact ite_keeps (ite_keeps h (ite_keeps trivial h)) (ite_keeps (ite_keeps trivial h) h)
  case h_8 => exact set _ _
  case h_10 => exact set _ _
  case h_12 => exact set _ _
  case h_13 => exact set _ _
  case h_14 => exact select
  case h_15 => trivial
  all_goals exact h

/-! ## The UART -/

theorem uartSent_guards (h : guards g s) : guards g s.uartSent := ite_keeps (ite_keeps h h) h

theorem uartWrite_guards (h : guards g s) (off n : Nat) (v : Word) : mmrKeeps (guards g) (uartWrite off n v s) := by
  unfold uartWrite
  dsimp only
  split
  case h_4 => exact ite_keeps (Q := guards g) h h
  case h_9 => trivial
  all_goals exact h

/-! ## The DMA controllers -/

theorem dmaError_guards (h : guards g s) (i : Nat) : guards g (s.dmaError i) := h

theorem setChan_guards (h : guards g s) (i : Nat) (c : DmaChan) : guards g (s.setChan i c) := h

theorem dmaLoad_guards (h : guards g s) (i : Nat) (a : Word) (n : Nat) : busKeeps (guards g) (s.dmaLoad i a n) :=
  ite_keeps (ite_keeps h (extRead_guards h _ _ _)) (ite_keeps h (ite_keeps trivial h))

theorem dmaPut_guards (h : guards g s) (i : Nat) (a : Word) (n v : Nat) : busKeeps (guards g) (s.dmaPut i a n v) :=
  ite_keeps (ite_keeps h (extWrite_guards h _ _ _ _)) (ite_keeps h (ite_keeps trivial h))

theorem dmaBegin_guards (h : guards g s) (i : Nat) : outcomeKeeps (guards g) (s.dmaBegin i) :=
  ite_keeps h (ite_keeps (ite_keeps trivial h) (ite_keeps trivial h))

theorem dmaUnit_guards (h : guards g s) (i : Nat) (first : Bool) : outcomeKeeps (guards g) (s.dmaUnit i first) :=
  ite_keeps (ite_keeps h (dmaBegin_guards h i)) h

theorem dmaFetch_guards (h : guards g s) (i f n k : Nat) : outcomeKeeps (guards g) (s.dmaFetch i f n k) := by
  have hl := dmaLoad_guards h i (s.sys.chan i).currDesc 2
  unfold State.dmaFetch
  dsimp only
  refine ite_keeps (dmaError_guards h i) ?_
  split <;> rename_i hb <;> rw [hb] at hl
  · exact ite_keeps (setChan_guards hl _ _) (dmaBegin_guards (setChan_guards hl _ _) i)
  · exact dmaError_guards hl i
  · exact hl
  · trivial

theorem dmaIssue_guards (h : guards g s) (i : Nat) : outcomeKeeps (guards g) (s.dmaIssue i) :=
  ite_keeps trivial (setChan_guards (ite_keeps (setChan_guards h _ _) h) _ _)

theorem dmaAccess_guards (h : guards g s) (i : Nat) : outcomeKeeps (guards g) (s.dmaAccess i) := by
  unfold State.dmaAccess
  dsimp only
  split
  · exact h
  next a rest _ =>
    refine ite_keeps (dmaError_guards h i) (ite_keeps ?_ ?_)
    · have hp := dmaPut_guards h i a.addr a.size a.data.toNat
      split <;> rename_i hb <;> rw [hb] at hp
      · exact setChan_guards hp _ _
      · exact dmaError_guards hp i
      · exact hp
      · trivial
    · have hl := dmaLoad_guards h i a.addr a.size
      split <;> rename_i hb <;> rw [hb] at hl
      · exact setChan_guards hl _ _
      · exact dmaError_guards hl i
      · exact hl
      · trivial

theorem takeFrom_guards (h : guards g s) {c : DmaChan} {p : Periph} {r : Word × State}
    (e : s.takeFrom c p = some r) : guards g r.2 := by
  unfold State.takeFrom at e
  split at e
  · split at e
    · cases e
    · obtain ⟨q, -, rfl⟩ := Option.map_eq_some_iff.1 e
      exact h
  · split at e
    · cases e
    · obtain ⟨q, -, rfl⟩ := Option.map_eq_some_iff.1 e
      exact h
  · split at e
    · obtain ⟨q, -, rfl⟩ := Option.map_eq_some_iff.1 e
      exact setSpi_guards h _
    · cases e
  · split at e
    · cases e
      exact h
    · cases e
  · cases e

theorem giveTo_guards (h : guards g s) {c : DmaChan} {w : Word} {n : Nat} {p : Periph}
    (e : s.giveTo c w n p = some t) : guards g t := by
  unfold State.giveTo at e
  split at e
  · split at e
    · cases e
    · obtain ⟨q, -, rfl⟩ := Option.map_eq_some_iff.1 e
      exact h
  · split at e
    · cases e
    · cases e
      exact h
  · split at e
    · obtain ⟨q, -, rfl⟩ := Option.map_eq_some_iff.1 e
      exact setSpi_guards h _
    · cases e
  · split at e
    · cases e
      exact h
    · cases e
  · cases e

theorem dmaGrant_guards (h : guards g s) (i : Nat) : outcomeKeeps (guards g) (s.dmaGrant i) := by
  unfold State.dmaGrant
  dsimp only
  split
  · exact h
  · refine ite_keeps ?_ ?_
    · split
      next e => exact setChan_guards (takeFrom_guards h e) _ _
      · trivial
    · split
      next e => exact setChan_guards (giveTo_guards h e) _ _
      · trivial

theorem dmaStep_guards (h : guards g s) (i : Nat) (m : DmaMove) : outcomeKeeps (guards g) (s.dmaStep i m) := by
  cases m
  case fetch =>
    unfold State.dmaStep
    dsimp only
    split
    · exact dmaFetch_guards h _ _ _ _
    · exact h
  case issue => exact dmaIssue_guards h i
  case access => exact dmaAccess_guards h i
  case next => exact dmaUnit_guards h i false
  case grant => exact dmaGrant_guards h i

theorem dmaConfig_guards (h : guards g s) (i : Nat) (v : HWord) : mmrKeeps (guards g) (dmaConfig i v s) := by
  have toMmr_guards : ∀ o : Outcome, outcomeKeeps (guards g) o → mmrKeeps (guards g) (toMmr o) := by
    intro o ho
    cases o
    case next t => exact ho
    all_goals trivial
  exact ite_keeps (dmaError_guards h i) (ite_keeps (ite_keeps trivial (setChan_guards h _ _))
    (ite_keeps (dmaError_guards (setChan_guards h _ _) i)
      (ite_keeps trivial (toMmr_guards _ (dmaUnit_guards (setChan_guards h _ _) i true)))))

theorem dmaWrite_guards (h : guards g s) (i off n : Nat) (v : Word) : mmrKeeps (guards g) (dmaWrite i off n v s) := by
  unfold dmaWrite
  dsimp only
  refine ite_keeps (ite_keeps (dmaConfig_guards h i _) (ite_keeps (setChan_guards h _ _) ?_)) trivial
  split
  · trivial
  · exact ite_keeps (Q := guards g) (dmaError_guards h i) (setChan_guards h _ _)

theorem trafficWrite_guards (h : guards g s) (dma2 : Bool) (off n : Nat) (v : Word) :
    mmrKeeps (guards g) (trafficWrite dma2 off n v s) := by
  unfold trafficWrite
  dsimp only
  split
  · exact h
  · exact h
  · trivial

/-! ## The programmable flags and the outside world -/

theorem showPins_guards (h : guards g t) (s : State) : guards g (t.showPins s) := by
  have shown : ∀ (u : State) (old new : Option Bool) (o : Bool → Output), guards g u →
      guards g (match new with | some v => if old == new then u else u.emit (o v) | none => u) := by
    intro u old new o hu
    cases new with
    | none => exact hu
    | some v => exact ite_keeps hu hu
  exact foldl_keeps (P := guards g) (fun u _ hu => shown u _ _ _ hu) _
    (foldl_keeps (P := guards g) (fun u _ hu => shown u _ _ _ hu) _ h)

theorem flagWrite_guards (h : guards g s) (n off size : Nat) (w : Word) :
    mmrKeeps (guards g) (flagWrite n off size w s) := by
  unfold flagWrite
  dsimp only
  refine ite_keeps ?_ trivial
  split
  case h_9 => trivial
  all_goals exact h

theorem masterStore_guards (h : guards g s) (a : Word) (b : Byte) : guards g (s.masterStore a b) :=
  ite_keeps (masterWrite_guards h a b) h

theorem setWdog_guards (h : guards g s) (id : CoreId) (w : Watchdog) : guards g (s.setWdog id w) := by
  cases id <;> exact h

theorem sample_guards (h : guards g s) (id : CoreId) : guards g (s.sample id) := by
  have drawn : ∀ c : Prop, [Decidable c] → guards g (if c then (0, s) else s.drawNat).2 :=
    fun c _ => ite_keeps (Q := fun z : Nat × State => guards g z.2) h h
  unfold State.sample
  dsimp only
  split
  · exact drawn _
  · exact setSic_guards (drawn _) _ _

end
end Sys2Proof.Proofs
end

section
/-!
O57, second part: every agent's step keeps IMASK[4:0] and the two cores apart.
-/

namespace Sys2Proof.Proofs

open Machine Laws

section

variable {s t : State}

theorem softReset_coresInv (s : State) (bit : BitVec 5) : (s.softReset bit).coresInv := resetCores_coresInv _ true

theorem hardwareReset_coresInv (s : State) (bm : BitVec 2) (pin : Bool) : (s.hardwareReset bm pin).coresInv :=
  resetCores_coresInv _ false

/-- What leaves IMASK and the identity of each core keeps the whole. -/
theorem cores_coresInv (h : s.coresInv) {f : Core → Core} (hm : ∀ c, (f c).ev.imask = c.ev.imask)
    (hi : ∀ c, (f c).id = c.id) : ({ s with cur := f s.cur, oth := f s.oth } : State).coresInv := by
  obtain ⟨hc, ho, hid⟩ := h
  refine ⟨?_, ?_, ?_⟩
  · rw [Core.maskInv, hm]
    exact hc
  · rw [Core.maskInv, hm]
    exact ho
  · rw [hi, hi]
    exact hid

theorem latchEvent_coresInv (h : s.coresInv) (id : CoreId) (n : Nat) : (s.latchEvent id n).coresInv :=
  cores_coresInv (f := fun c =>
    if c.id = id ∧ !c.held then { c with ev := { c.ev with ilat := c.ev.ilat ||| BitVec.ofNat 16 (2 ^ n) } } else c) h
    (fun c => by split <;> rfl) (fun c => by split <;> rfl)

/-! ## Stores to the system MMRs, and the write buffer -/

theorem setWdog_coresInv (h : s.coresInv) (id : CoreId) (w : Watchdog) : (s.setWdog id w).coresInv :=
  coresInv_of_guards h (setWdog_guards rfl id w)

theorem watchdogExpire_coresInv (h : s.coresInv) (id : CoreId) : (s.watchdogExpire id).coresInv := by
  unfold State.watchdogExpire
  dsimp only
  split
  · exact setWdog_coresInv (softReset_coresInv _ _) _ _
  · exact latchEvent_coresInv (setWdog_coresInv h _ _) _ _
  · exact setWdog_coresInv h _ _
  · exact setWdog_coresInv h _ _

theorem watchdogStep_coresInv (h : s.coresInv) (id : CoreId) : (s.watchdogStep id).coresInv :=
  ite_keeps (Q := State.coresInv) (watchdogExpire_coresInv (setWdog_coresInv h _ _) id) (setWdog_coresInv h _ _)

theorem wdogWrite_coresInv (h : s.coresInv) (id : CoreId) (off n : Nat) (v : Word) :
    mmrKeeps State.coresInv (wdogWrite id off n v s) := by
  unfold wdogWrite
  dsimp only
  split
  · exact ite_keeps (Q := State.coresInv) (watchdogExpire_coresInv (setWdog_coresInv h _ _) id) (setWdog_coresInv h _ _)
  · exact ite_keeps (Q := State.coresInv) h (setWdog_coresInv h _ _)
  · exact setWdog_coresInv h _ _
  · trivial

theorem unitWrite_coresInv (h : s.coresInv) (off n : Nat) (v : Word) :
    mmrKeeps State.coresInv (unitWrite off n v s) := by
  have kept : ∀ {x : MmrRes}, mmrKeeps (guards (guardedOf s)) x → mmrKeeps State.coresInv x :=
    mmrKeeps.imp fun _ => coresInv_of_guards h
  have same : guards (guardedOf s) s := rfl
  unfold unitWrite
  dsimp only
  refine ite_keeps trivial ?_
  split
  · exact kept (powerWrite_guards same _ _ _)
  · exact kept (sicBlockWrite_guards same _ _ _ _)
  · exact wdogWrite_coresInv h _ _ _ _
  · exact kept (uartWrite_guards same _ _ _)
  · exact kept (spiWrite_guards same _ _ _)
  · exact kept (timerWrite_guards same _ _ _ _ _ _)
  · exact kept (flagWrite_guards same _ _ _ _)
  · exact kept (sportWrite_guards same _ _ _ _)
  · exact kept (sportWrite_guards same _ _ _ _)
  · exact kept (ebiuWrite_guards same _ _ _)
  · exact kept (trafficWrite_guards same _ _ _ _)
  · exact kept (ppiWrite_guards same _ _ _ _)
  · exact kept (sicBlockWrite_guards same _ _ _ _)
  · exact wdogWrite_coresInv h _ _ _ _
  · exact kept (ppiWrite_guards same _ _ _ _)
  · exact kept (flagWrite_guards same _ _ _ _)
  · exact kept (timerWrite_guards same _ _ _ _ _ _)
  · exact kept (flagWrite_guards same _ _ _ _)
  · exact kept (trafficWrite_guards same _ _ _ _)
  · split
    · exact kept (dmaWrite_guards same _ _ _ _)
    · trivial

theorem showPins_coresInv (h : t.coresInv) (s : State) : (t.showPins s).coresInv :=
  coresInv_of_guards h (showPins_guards rfl s)

theorem sysMmrWrite_coresInv (h : s.coresInv) (off n : Nat) (v : Word) :
    mmrKeeps State.coresInv (sysMmrWrite off n v s) := by
  have hu := unitWrite_coresInv h off n v
  unfold sysMmrWrite
  cases hr : unitWrite off n v s <;> rw [hr] at hu
  case ok w t => exact showPins_coresInv hu s
  all_goals trivial

theorem performPending_coresInv (h : s.coresInv) (ht : t.coresInv) (p : PendStore) :
    outcomeKeeps State.coresInv (s.performPending t p) := by
  have hb : busKeeps (guards (guardedOf s)) (s.behindWrite (.store s.cur.id) p.addr p.size p.val) :=
    behindWrite_guards rfl _ _ _ _
  unfold State.performPending
  dsimp only
  refine ite_keeps ?_ (ite_keeps ?_ (ite_keeps ht ?_))
  · generalize p.addr - 0xFFE00000 = off
    have hm := coreMmrWrite_coresInv ht off (BitVec.ofNat 32 p.val)
    split <;> rename_i hr <;> rw [hr] at hm
    · exact hm
    · exact ht
    · trivial
  · generalize p.addr - 0xFFC00000 = off
    have hm := sysMmrWrite_coresInv ht off p.size (BitVec.ofNat 32 p.val)
    split <;> rename_i hr <;> rw [hr] at hm
    · exact hm
    · exact ht
    · trivial
  · split <;> rename_i hr <;> rw [hr] at hb
    · exact coresInv_of_guards h hb
    · exact coresInv_of_guards h hb
    · exact coresInv_of_guards h hb
    · trivial

theorem drain_coresInv (h : s.coresInv) : outcomeKeeps State.coresInv s.drain := by
  have drawn : ∀ c : Prop, [Decidable c] → (if c then (0, s) else s.drawNat).2.coresInv :=
    fun c _ => ite_keeps (Q := fun z : Nat × State => z.2.coresInv) h h
  unfold State.drain
  dsimp only
  split
  · exact drawn _
  · refine ite_keeps (performPending_coresInv (drawn _) ?_ _) (performPending_coresInv ?_ ?_ _) <;> exact drawn _

/-! ## An instruction of the current core -/

theorem keepBus_coresInv (h : s.coresInv) (t : State) : (s.keepBus t).coresInv :=
  coresInv_of_guards h (keepBus_guards rfl t)

theorem part_coresInv (h0 : s.coresInv) (h : t.coresInv) (k : Slot) (i : Instr) {f : State → Outcome}
    (hf : ∀ u, u.coresInv → outcomeKeeps State.coresInv (f u)) : outcomeKeeps State.coresInv (part k i s t f) := by
  have he : outcomeKeeps State.coresInv
      (exec i { t with cur := t.cur.withRegs s.cur, issue := { t.issue with slot := k } }) :=
    exec_coresInv (by exact h) i
  unfold part
  split <;> rename_i hr
  · rw [hr] at he
    refine ite_keeps he ?_
    split
    · exact ite_keeps he (takeException_coresInv (keepBus_coresInv h0 _) _ _)
    · exact hf _ he
  · trivial
  · trivial

theorem execBundle_coresInv (h : s.coresInv) (i0 i1 i2 : Instr) :
    outcomeKeeps State.coresInv (execBundle i0 i1 i2 s) := by
  unfold execBundle
  refine ite_keeps trivial ?_
  refine part_coresInv h (by exact h) _ _ fun t0 h0 => ?_
  refine part_coresInv h h0 _ _ fun t1 h1 => ?_
  refine part_coresInv h h1 _ _ fun t2 h2 => ?_
  refine coresInv_of_guards ?_ (finish_guards rfl _)
  exact h2

theorem runDecoded_coresInv (h : s.coresInv) (d : Decoded) : outcomeKeeps State.coresInv (runDecoded d s) := by
  cases d with
  | single i len => exact exec_coresInv h i
  | bundle i0 i1 i2 => exact execBundle_coresInv h i0 i1 i2
  | undefined => exact raise_coresInv h _
  | illegal => exact raise_coresInv h _
  | notDefined => trivial

theorem instWatchOne_coresInv (h : s.coresInv) (k j : Nat) : (s.instWatchOne k j).coresInv := by
  unfold State.instWatchOne
  dsimp only
  exact ite_keeps (Q := State.coresInv) (ite_keeps (Q := State.coresInv) h
    (ite_keeps (Q := State.coresInv) h (ite_keeps (Q := State.coresInv) h h))) h

theorem instWatch_coresInv (h : s.coresInv) : s.instWatch.coresInv := by
  unfold State.instWatch
  split
  · exact foldl_keeps (P := State.coresInv) (fun _ _ ht => instWatchOne_coresInv ht _ _) _ h
  · exact h

theorem ghostRead_coresInv (h : s.coresInv) (x : Nat × Nat) : (s.ghostRead x).coresInv := by
  have he : busKeeps (guards (guardedOf s)) (s.extRead (.load s.cur.id) x.1 x.2) := extRead_guards rfl _ _ _
  unfold State.ghostRead
  refine ite_keeps (Q := State.coresInv) ?_ (ite_keeps (Q := State.coresInv) ?_ ?_)
  · split
    next hr =>
      rw [hr] at he
      exact coresInv_of_guards h he
    · exact h
  · generalize x.1 - 0xFFE00000 = off
    split
    next hr => exact coresInv_of_guards h ((coreMmrRead_guards rfl _).of_ok hr)
    · exact h
  · generalize x.1 - 0xFFC00000 = off
    split
    next hr => exact coresInv_of_guards h ((sysMmrRead_guards rfl _ _).of_ok hr)
    · exact h

theorem ghostReads_coresInv (h : s.coresInv) (xs : List (Nat × Nat)) : (s.ghostReads xs).coresInv := by
  induction xs generalizing s with
  | nil => exact h
  | cons x xs ih => exact ih (ite_keeps (Q := State.coresInv) (ghostRead_coresInv (by exact h) x) h)

theorem speculate_coresInv (h : s.coresInv) (d : Decoded) : (s.speculate d).coresInv := by
  unfold State.speculate
  split
  · exact ghostReads_coresInv h _
  · exact h

theorem cancelLoad_coresInv (h : s.coresInv) : s.cancelLoad.coresInv := by
  unfold State.cancelLoad
  split
  · exact ghostReads_coresInv h _
  · exact h

theorem execute_coresInv (h : s.coresInv) : outcomeKeeps State.coresInv s.execute := by
  refine run_keeps coresInv_keptByOps h (fetch_guards rfl) fun d t ht => ?_
  have hw : t.instWatch.coresInv := instWatch_coresInv (coresInv_of_guards h ht)
  exact ite_keeps trivial (ite_keeps (raise_coresInv hw _) (runDecoded_coresInv (speculate_coresInv hw d) d))

/-! ## The end of an instruction -/

theorem perfAdd_coresInv (h : s.coresInv) (n : Bool) (k : Nat) : (s.perfAdd n k).coresInv := by
  unfold State.perfAdd
  dsimp only
  exact ite_keeps (Q := State.coresInv) (ite_keeps (Q := State.coresInv) h h) h

theorem countTiming_coresInv (h : s.coresInv) (n : Bool) : (s.countTiming n).coresInv :=
  ite_keeps (Q := State.coresInv) (perfAdd_coresInv (by exact h) _ _) h

theorem passCycles_coresInv (h : s.coresInv) : s.passCycles.coresInv := ite_keeps (Q := State.coresInv) h h

theorem passTime_coresInv (h : s.coresInv) : s.passTime.coresInv :=
  countTiming_coresInv (countTiming_coresInv (passCycles_coresInv h) _) _

theorem serviceException_coresInv (h : s.coresInv) (e : Exc) (src : Word) : (s.serviceException e src).coresInv :=
  enterEvent_coresInv (s := s.setCur { s.cur with seqstat := { s.cur.seqstat with excause := e.code } }) h 3 src _

theorem singleStep_coresInv (s : State) (h : t.coresInv) : (s.singleStep t).2.coresInv := by
  unfold State.singleStep
  split
  · split
    · exact ite_keeps (Q := State.coresInv) h h
    · exact h
  · exact h

theorem quiet_coresInv (h : s.coresInv) : s.quiet.coresInv := h

theorem count_coresInv (h : s.coresInv) (e : Byte) : (s.count e).coresInv := coresInv_of_guards h (count_guards rfl e)

theorem afterCommit_coresInv (s : State) (h : t.coresInv) : outcomeKeeps State.coresInv (s.afterCommit t) := by
  have hs : (s.singleStep (t.count 0x0D)).2.coresInv := singleStep_coresInv s (count_coresInv h _)
  exact ite_keeps trivial (ite_keeps (quiet_coresInv (serviceException_coresInv hs _ _))
    (ite_keeps (quiet_coresInv (serviceException_coresInv hs _ _)) (quiet_coresInv hs)))

theorem settle_coresInv (h : s.coresInv) (ht : t.coresInv) : outcomeKeeps State.coresInv (s.settle t) := by
  have hk : (s.keepBus t).coresInv := keepBus_coresInv h t
  have hm : s.cur.maskInv := h.1
  exact ite_keeps hk (ite_keeps (ite_keeps trivial (quiet_coresInv
    (takeException_coresInv (setCur_coresInv hk (by exact hm) (by rfl)) _ _)))
    (ite_keeps trivial (ite_keeps (quiet_coresInv ht) (afterCommit_coresInv s ht))))

theorem makeAhead_coresInv (h : s.coresInv) (e : EarlyRead) : (s.makeAhead e).coresInv := by
  have hl : resKeeps (guards (guardedOf s))
      ((s.setCur { s.cur with progress := [] }).performLoad (BitVec.ofNat 32 e.addr) e.size false) :=
    performLoad_guards (by rfl) _ _ _
  unfold State.makeAhead
  split
  next hr =>
    rw [hr] at hl
    exact coresInv_of_guards h hl
  · exact h

theorem readAhead_coresInv (h : s.coresInv) : (∀ u, s.readAhead.1 = some u → u.coresInv) ∧ s.readAhead.2.coresInv := by
  unfold State.readAhead
  split
  · exact ⟨(fun _ e => nomatch e), h⟩
  · refine ⟨fun u e => ?_, h⟩
    obtain ⟨x, -, rfl⟩ := Option.map_eq_some_iff.1 e
    exact makeAhead_coresInv (by exact h) x

theorem instruction_coresInv (h : s.coresInv) : outcomeKeeps State.coresInv s.instruction := by
  have h0 : ((s.setCur { s.cur with synced := false, waiting := none }).passTime).coresInv :=
    passTime_coresInv (by exact h)
  have he := execute_coresInv h0
  unfold State.instruction
  dsimp only
  split <;> rename_i hr
  · rw [hr] at he
    exact settle_coresInv h0 he
  · trivial
  · trivial

/-! ## Events and the boot kernel -/

theorem chooseEvent_coresInv (h : s.coresInv) : s.chooseEvent.2.coresInv := by
  unfold State.chooseEvent
  split
  · exact h
  · exact ite_keeps (Q := fun z : Option Nat × State => z.2.coresInv) h
      (ite_keeps (Q := fun z : Option Nat × State => z.2.coresInv) h h)

theorem leaveIdle_coresInv (h : s.coresInv) : s.leaveIdle.coresInv := coresInv_of_guards h (leaveIdle_guards rfl)

theorem takeEvent_coresInv (h : s.coresInv) (n : Nat) : outcomeKeeps State.coresInv (s.takeEvent n) := by
  have hs : (if s.cur.idle then s.leaveIdle else s.cancelLoad).coresInv :=
    ite_keeps (Q := State.coresInv) (leaveIdle_coresInv h) (cancelLoad_coresInv h)
  unfold State.takeEvent
  dsimp only
  generalize (if s.cur.idle then s.leaveIdle else s.cancelLoad) = u at hs ⊢
  have ht : ((u.setCur { u.cur with synced := false }).passTime.interrupt n).coresInv :=
    interrupt_coresInv (passTime_coresInv (by exact hs)) n
  exact ite_keeps trivial (ite_keeps (quiet_coresInv (serviceException_coresInv ht _ _)) (quiet_coresInv ht))

theorem boot_coresInv (h : s.coresInv) : s.boot.coresInv := by
  have spi : ∀ (u : State) (p : Spi), u.coresInv → (u.setSpi p).coresInv := fun u p hu =>
    coresInv_of_guards hu (setSpi_guards rfl p)
  unfold State.boot
  dsimp only
  refine (fun u hu => ite_keeps (Q := State.coresInv) hu hu : ∀ u : State, u.coresInv →
    (if u.sys.ctl.noBoot then u else { u with mem := u.mem.place Config.bootImage }).coresInv) _ ?_
  exact showPins_coresInv (by exact spi _ _ h) s

theorem coreStep_coresInv (h : s.coresInv) : outcomeKeeps State.coresInv s.coreStep := by
  have hc : s.chooseEvent.2.coresInv := chooseEvent_coresInv h
  obtain ⟨hahead, hrest⟩ := readAhead_coresInv hc
  unfold State.coreStep
  dsimp only
  split
  · exact takeEvent_coresInv hc _
  · refine ite_keeps (leaveIdle_coresInv hc) (ite_keeps (ite_keeps trivial (boot_coresInv hc)) ?_)
    split <;> rename_i hr <;> rw [hr] at hahead hrest
    · exact hahead _ rfl
    · exact instruction_coresInv hrest

/-! ## What acts besides the cores -/

theorem swap_coresInv (h : s.coresInv) : s.swap.coresInv := by
  obtain ⟨hc, ho, hid⟩ := h
  exact ⟨ho, hc, hid.symm⟩

theorem timerStep_guardedCore (c : Core) : guardedCore c.timerStep = guardedCore c := by
  unfold Core.timerStep
  dsimp only
  split <;> rfl

/-- A core is put back in its place, its IMASK and its identity as they were. -/
theorem setCore_coresInv (h : s.coresInv) (id : CoreId) {c : Core} (hm : c.ev.imask = (s.coreOf id).ev.imask)
    (hi : c.id = (s.coreOf id).id) : (s.setCore id c).coresInv := by
  obtain ⟨hc, ho, hid⟩ := h
  unfold State.coreOf at hm hi
  unfold State.setCore
  by_cases this : s.cur.id = id
  · rw [if_pos this] at hm hi ⊢
    refine ⟨?_, ho, hi ▸ hid⟩
    rw [Core.maskInv, hm]
    exact hc
  · rw [if_neg this] at hm hi ⊢
    refine ⟨hc, ?_, hi ▸ hid⟩
    rw [Core.maskInv, hm]
    exact ho

theorem asCore_coresInv (h : s.coresInv) (id : CoreId) {f : State → State} (hf : ∀ u, u.coresInv → (f u).coresInv) :
    (s.asCore id f).coresInv :=
  ite_keeps (Q := State.coresInv) (hf s h) (swap_coresInv (hf s.swap (swap_coresInv h)))

theorem writeBackOne_coresInv (h : s.coresInv) : s.writeBackOne.coresInv := by
  unfold State.writeBackOne
  dsimp only
  split
  · exact h
  · exact coresInv_of_guards h (writeBack_guards (s := s.drawNat.2) (by rfl) _)

theorem actAs_coresInv (h : s.coresInv) (id : CoreId) {f : State → Outcome}
    (hf : ∀ u, u.coresInv → outcomeKeeps State.coresInv (f u)) : outcomeKeeps State.coresInv (s.actAs id f) := by
  have hs := hf s.swap (swap_coresInv h)
  refine ite_keeps (hf s h) ?_
  split <;> rename_i hr
  · rw [hr] at hs
    exact swap_coresInv hs
  · trivial
  · trivial

theorem quietStep_coresInv {o : Outcome} (ho : outcomeKeeps State.coresInv o) :
    outcomeKeeps State.coresInv (quietStep o) := by
  cases o with
  | next t => exact ite_keeps trivial ho
  | fault f => trivial
  | refused r => trivial

theorem wakeCore_coresInv (h : s.coresInv) (id : CoreId) (w : Bool) : (s.wakeCore id w).coresInv :=
  ite_keeps (Q := State.coresInv) (asCore_coresInv h id fun _ => leaveIdle_coresInv) h

theorem endSleep_coresInv (h : s.coresInv) : s.endSleep.coresInv :=
  wakeCore_coresInv (wakeCore_coresInv (by exact h) _ _) _ _

/-! ## The outside world -/

theorem clockedInput_coresInv (h : s.coresInv) (i : Input) : (s.clockedInput i).coresInv := by
  have kept : ∀ {u : State}, guards (guardedOf s) u → u.coresInv := coresInv_of_guards h
  cases i with
  | nmi id => exact latchEvent_coresInv h id 2
  | timerPin x rising => exact ite_keeps (Q := State.coresInv) h h
  | ppiClk x d fs1 fs2 fs3 => exact kept (ppiClk_guards rfl x d fs1 fs2 fs3)
  | spiBegin => exact ite_keeps (Q := State.coresInv) (kept (spiBegin_guards rfl)) h
  | spiEnd w => exact ite_keeps (Q := State.coresInv) (kept (spiEnd_guards rfl w)) h
  | uartRecv d p f b => exact ite_keeps (Q := State.coresInv) h h
  | sportTfs x => exact kept (sportTfsIn_guards rfl x)
  | sportRfs x => exact kept (sportRfsIn_guards rfl x)
  | pin i level => exact ite_keeps (Q := State.coresInv) h h
  | busGrant g => exact ite_keeps (Q := State.coresInv) h h
  | masterStore a b => exact kept (masterStore_guards rfl a b)
  | sportRxBits x p q => exact kept (sportBits_guards rfl x p q)
  | spiReceived w => exact ite_keeps (Q := State.coresInv) (kept (spiEnd_guards rfl w)) h
  | hardwareReset bm bypass => exact h

theorem input_coresInv (h : s.coresInv) (i : Input) : (s.input i).coresInv := by
  unfold State.input
  split
  · exact ite_keeps (Q := State.coresInv) h (hardwareReset_coresInv _ _ _)
  · exact ite_keeps (Q := State.coresInv) (clockedInput_coresInv h _) h

theorem takeInput_coresInv (h : s.coresInv) : s.takeInput.coresInv := by
  unfold State.takeInput
  split
  · exact h
  · exact input_coresInv (by exact h) _

/-! ## One agent's step -/

theorem act_coresInv (h : s.coresInv) (a : Agent) : outcomeKeeps State.coresInv (s.act a) := by
  have kept : ∀ {u : State}, guards (guardedOf s) u → u.coresInv := coresInv_of_guards h
  have keptBy : ∀ {o : Outcome}, outcomeKeeps (guards (guardedOf s)) o → outcomeKeeps State.coresInv o :=
    outcomeKeeps.imp fun _ => coresInv_of_guards h
  cases a with
  | current => exact coreStep_coresInv h
  | other => exact coreStep_coresInv (swap_coresInv h)
  | coreTimer id =>
    exact setCore_coresInv h id
      (congrArg Guarded.imask (timerStep_guardedCore _)) (congrArg Guarded.id (timerStep_guardedCore _))
  | sic id g => exact setCore_coresInv h id rfl rfl
  | sample id => exact kept (sample_guards rfl id)
  | cache id => exact asCore_coresInv h id fun _ => writeBackOne_coresInv
  | drain id => exact actAs_coresInv h id fun _ hu => quietStep_coresInv (drain_coresInv hu)
  | fill id inst =>
    exact actAs_coresInv h id fun _ hu => quietStep_coresInv
      ((fillStep_guards rfl inst).imp fun _ => coresInv_of_guards hu)
  | ardy => exact h
  | selfRefresh => exact kept (enterSelfRefresh_guards rfl)
  | pllApply => exact keptBy (pllApply_guards rfl)
  | pllLock => exact coresInv_of_guards (by exact h) (pllWake_guards rfl)
  | sleepWake => exact endSleep_coresInv h
  | watchdog id => exact watchdogStep_coresInv h id
  | timer x => exact showPins_coresInv (by exact h) s
  | spiBegin => exact kept (spiBegin_guards rfl)
  | spiEnd => exact coresInv_of_guards (s := s.drawWord.2) h (spiEnd_guards rfl _)
  | spiFault => exact showPins_coresInv (kept (setSpi_guards rfl _)) s
  | spiRx => exact kept (setSpi_guards rfl _)
  | spiTx => exact kept (spiTxMove_guards rfl)
  | uartLoad => exact h
  | uartSent => exact kept (uartSent_guards rfl)
  | sport x m =>
    change outcomeKeeps State.coresInv (match s.sportMove x m with | some t => .next t | none => .refused .unitSetting)
    split
    next e => exact kept (sportMove_guards rfl e)
    · trivial
  | dma i m => exact keptBy (dmaStep_guards rfl i m)
  | outside => exact showPins_coresInv (takeInput_coresInv h) s

theorem move_coresInv (h : s.coresInv) : outcomeKeeps State.coresInv s.move := by
  unfold State.move
  split
  · exact ite_keeps trivial h
  · exact act_coresInv h _
  · exact act_coresInv (s := s.drawNat.2) h _

end

/-- Settles O57: every step is the step of one agent; IMASK changes by CLI, STI, a store to its MMR and a reset alone,
each of which leaves IMASK[4:0] at 1. -/
theorem stepKeepsCores : Obligations.StepKeepsCores := by
  intro s t h e
  have hm := move_coresInv h
  rw [show s.move = .next t from e] at hm
  exact hm

end Sys2Proof.Proofs
end

section
/-!
O60: what reset leaves (70_reset_and_hazards.md R1928; 10_state.md R61; 60_exceptions.md R1711, R1713).
-/

namespace Sys2Proof.Proofs

open Machine Laws

theorem reset_coresInv : State.reset.coresInv :=
  have mask : (0x001F : HWord) &&& 0x001F = 0x001F := by decide
  have apart : CoreId.a ≠ .b := by decide
  ⟨mask, mask, apart⟩

theorem reset_user : State.reset.user = false :=
  user_eq_false_iff.2 (by decide : (0x0012 : HWord) &&& 0xFFEF ≠ 0)

/-- Settles O60: the values are those that the reset of the cores writes, memory is empty, and an empty memory is in
canonical form. -/
theorem resetState : Obligations.ResetState :=
  have syscfg : Syscfg.toWord ⟨false, false⟩ = 0x30 := by decide
  ⟨syscfg, rfl, rfl, rfl, reset_user, rfl, rfl, reset_coresInv, Mem.wf_reset, fun _ _ => rfl⟩

end Sys2Proof.Proofs
end

section
/-!
O49: the entry of an exception by EXCPT, of an interrupt and of the NMI (60_exceptions.md R1740; 46_system.md R1005):
what the entry leaves, and that the move past an instruction depends on the sequencer alone.
-/

namespace Sys2Proof.Proofs

open Machine Laws

section

variable {s t u : State}

/-! ## The move past an instruction, of states that agree in the sequencer -/

/-- Two states with the same pc and the same loop units. -/
def sameSequencer (s t : State) : Prop := t.cur.pc = s.cur.pc ∧ ∀ n, t.loopUnit n = s.loopUnit n

theorem sameSequencer.trans (h : sameSequencer s t) (k : sameSequencer t u) : sameSequencer s u :=
  ⟨k.1.trans h.1, fun n => (k.2 n).trans (h.2 n)⟩

theorem sameSequencer.count (s : State) (e : Byte) : sameSequencer s (s.count e) :=
  ⟨count_pc s e, count_loopUnit s e⟩

theorem sameSequencer.loopMatch (h : sameSequencer s t) (n : LoopN) : sameSequencer (loopMatch n s) (loopMatch n t) := by
  obtain ⟨hpc, hloop⟩ := h
  exact ⟨by simpa using hpc, fun q => by simp [hloop]⟩

theorem sameSequencer.lastPass (h : sameSequencer s t) (n : LoopN) : sameSequencer (lastPass n s) (lastPass n t) := by
  obtain ⟨hpc, hloop⟩ := h
  unfold Proofs.lastPass
  rw [hpc, hloop]
  split
  · exact sameSequencer.loopMatch ⟨hpc, hloop⟩ n
  · exact ⟨hpc, hloop⟩

theorem sameSequencer.loopsBack (h : sameSequencer s t) (n : LoopN) : loopsBack n t ↔ loopsBack n s := by
  obtain ⟨hpc, hloop⟩ := h
  rw [Proofs.loopsBack, Proofs.loopsBack, hpc, hloop]

/-- The hardware-loop rule looks at the sequencer alone. -/
theorem sameSequencer.loopStep (h : sameSequencer s t) (len : Nat) :
    sameSequencer (s.loopStep len).1 (t.loopStep len).1 ∧ (t.loopStep len).2 = (s.loopStep len).2 := by
  have lt1 : t.cur.loop1 = s.cur.loop1 := h.2 .l1
  have lt0 : t.cur.loop0 = s.cur.loop0 := h.2 .l0
  by_cases h1 : Proofs.loopsBack .l1 s
  · rw [loopStep_back1 h1, loopStep_back1 ((h.loopsBack .l1).2 h1)]
    exact ⟨h.loopMatch .l1, congrArg LoopUnit.lt lt1⟩
  · have h1' := mt (h.loopsBack .l1).1 h1
    by_cases h0 : Proofs.loopsBack .l0 s
    · rw [loopStep_back0 h1 h0, loopStep_back0 h1' ((h.loopsBack .l0).2 h0)]
      exact ⟨(h.lastPass .l1).loopMatch .l0, congrArg LoopUnit.lt lt0⟩
    · rw [loopStep_past h1 h0, loopStep_past h1' (mt (h.loopsBack .l0).1 h0)]
      exact ⟨(h.lastPass .l1).lastPass .l0, congrArg (· + _) h.1⟩

theorem sameSequencer.finish (h : sameSequencer s t) (hs : s.issue.slot = .single) (ht : t.issue.slot = .single)
    (len : Nat) : sameSequencer (s.finish len) (t.finish len) := by
  obtain ⟨⟨-, hloop⟩, hnext⟩ := h.loopStep len
  rw [finish_single hs, finish_single ht]
  exact ⟨hnext, fun n => hloop n⟩

/-! ## What the entry of an event leaves -/

/-- What stays while an event is entered, counted and recorded (R1740). -/
def entryKeeps (s t : State) : Prop :=
  t.cur.r = s.cur.r ∧ t.cur.p = s.cur.p ∧ t.cur.i = s.cur.i ∧ t.cur.m = s.cur.m ∧
    t.cur.b = s.cur.b ∧ t.cur.l = s.cur.l ∧ t.cur.a0 = s.cur.a0 ∧ t.cur.a1 = s.cur.a1 ∧ t.cur.astat = s.cur.astat ∧
    t.cur.rets = s.cur.rets ∧ t.cur.syscfg = s.cur.syscfg ∧ t.cur.ev.imask = s.cur.ev.imask ∧ t.mem = s.mem ∧
    t.cur.stores = s.cur.stores ∧ t.oth = s.oth ∧ t.sys = s.sys

theorem entryKeeps.trans (h : entryKeeps s t) (k : entryKeeps t u) : entryKeeps s u := by
  obtain ⟨h1, h2, h3, h4, h5, h6, h7, h8, h9, h10, h11, h12, h13, h14, h15, h16⟩ := h
  obtain ⟨k1, k2, k3, k4, k5, k6, k7, k8, k9, k10, k11, k12, k13, k14, k15, k16⟩ := k
  exact ⟨k1.trans h1, k2.trans h2, k3.trans h3, k4.trans h4, k5.trans h5, k6.trans h6, k7.trans h7, k8.trans h8,
    k9.trans h9, k10.trans h10, k11.trans h11, k12.trans h12, k13.trans h13, k14.trans h14, k15.trans h15, k16.trans h16⟩

theorem Sequenced.entryKeeps (h : Sequenced s t) : entryKeeps s t := by
  rw [h.frame]
  exact ⟨rfl, rfl, rfl, rfl, rfl, rfl, rfl, rfl, rfl, rfl, rfl, rfl, rfl, rfl, rfl, rfl⟩

/-- The return registers and the vectors are not the sequencer's. -/
theorem Sequenced.returns (h : Sequenced s t) :
    t.cur.reti = s.cur.reti ∧ t.cur.retn = s.cur.retn ∧ t.cur.retx = s.cur.retx ∧ t.cur.ev.evt = s.cur.ev.evt ∧
      t.cur.ev.ipend = s.cur.ev.ipend ∧ t.issue.slot = s.issue.slot := by
  rw [h.frame]
  exact ⟨rfl, rfl, rfl, rfl, rfl, rfl⟩

/-- The entry of an event, what it records in the trace buffer named. -/
theorem enterEvent_traced (s : State) (n : Nat) (src ret : Word) : ∃ es full,
    s.enterEvent n src ret =
      { (withTrace s es full).setCur ((withTrace s es full).cur.enterEvent n ret).refetch with
        issue := { (withTrace s es full).issue with event := true } } := by
  obtain ⟨es, full, e⟩ := recordFlow_only s (s.cur.ev.ipend ||| bitOf n) src (s.cur.vector n)
  exact ⟨es, full, by simp only [State.enterEvent, e]; rfl⟩

theorem setReturn_only (c : Core) (n : Nat) (ret : Word) : ∃ e m x i,
    c.setReturn n ret = { c with rete := e, retn := m, retx := x, reti := i } := by
  unfold Core.setReturn
  split
  · exact ⟨ret, c.retn, c.retx, c.reti, rfl⟩
  · exact ⟨c.rete, c.retn, c.retx, c.reti, rfl⟩
  · exact ⟨c.rete, ret, c.retx, c.reti, rfl⟩
  · exact ⟨c.rete, c.retn, ret, c.reti, rfl⟩
  · exact ⟨c.rete, c.retn, c.retx, ret, rfl⟩

/-- The core after the entry of event `n`. -/
def enteredCore (c : Core) (n : Nat) (ret : Word) : Core :=
  { c.setReturn n ret with
    ev := { c.ev with ilat := c.ev.ilat &&& ~~~ (bitOf n), raised := c.ev.raised &&& ~~~ (bitOf n),
                      ipend := c.ev.ipend ||| bitOf n ||| (if 5 ≤ n then 0x10 else 0) }
    pc := c.vector n, idle := false, stale := [], waiting := none, progress := [], early := [] }

theorem enterEvent_eq_enteredCore (c : Core) (n : Nat) (ret : Word) : (c.enterEvent n ret).refetch = enteredCore c n ret := by
  unfold Core.refetch Core.enterEvent enteredCore Core.vector
  dsimp only
  rw [setReturn_ev]

theorem enteredCore_keeps (c : Core) (n : Nat) (ret : Word) : let d := enteredCore c n ret
    d.r = c.r ∧ d.p = c.p ∧ d.i = c.i ∧ d.m = c.m ∧ d.b = c.b ∧ d.l = c.l ∧ d.a0 = c.a0 ∧ d.a1 = c.a1 ∧
      d.astat = c.astat ∧ d.rets = c.rets ∧ d.syscfg = c.syscfg ∧ d.stores = c.stores ∧ d.loop0 = c.loop0 ∧
      d.loop1 = c.loop1 := by
  obtain ⟨e, m, x, i, h⟩ := setReturn_only c n ret
  unfold enteredCore
  rw [h]
  exact ⟨rfl, rfl, rfl, rfl, rfl, rfl, rfl, rfl, rfl, rfl, rfl, rfl, rfl, rfl⟩

/-- The entry of an event changes the core alone. -/
theorem enterEvent_enteredCore (s : State) (n : Nat) (src ret : Word) : ∃ es, let t := s.enterEvent n src ret
    t.cur = enteredCore { s.cur with trace := { s.cur.trace with entries := es } } n ret ∧ t.mem = s.mem ∧
      t.oth = s.oth ∧ t.sys = s.sys := by
  obtain ⟨es, full, e⟩ := enterEvent_traced s n src ret
  rw [e]
  exact ⟨es, enterEvent_eq_enteredCore _ n ret, rfl, rfl, rfl⟩

theorem enterEvent_entryKeeps (s : State) (n : Nat) (src ret : Word) : entryKeeps s (s.enterEvent n src ret) := by
  obtain ⟨es, hcur, hmem, hoth, hsys⟩ := enterEvent_enteredCore s n src ret
  obtain ⟨hr, hp, hi, hm, hb, hl, ha0, ha1, hastat, hrets, hsyscfg, hstores, -⟩ :=
    enteredCore_keeps { s.cur with trace := { s.cur.trace with entries := es } } n ret
  unfold entryKeeps
  rw [hcur]
  exact ⟨hr, hp, hi, hm, hb, hl, ha0, ha1, hastat, hrets, hsyscfg, rfl, hmem, hstores, hoth, hsys⟩

theorem enterEvent_goesOn (s : State) (n : Nat) (src ret : Word) : let t := s.enterEvent n src ret
    t.cur.pc = s.cur.ev.evt.toList.getD n 0 ∧ t.cur.idle = false ∧ t.cur.loop0 = s.cur.loop0 ∧
      t.cur.loop1 = s.cur.loop1 := by
  obtain ⟨es, hcur, -⟩ := enterEvent_enteredCore s n src ret
  obtain ⟨-, -, -, -, -, -, -, -, -, -, -, -, hloop0, hloop1⟩ :=
    enteredCore_keeps { s.cur with trace := { s.cur.trace with entries := es } } n ret
  dsimp only
  rw [hcur]
  exact ⟨rfl, rfl, hloop0, hloop1⟩

theorem enterEvent_ev (s : State) (n : Nat) (src ret : Word) :
    (s.enterEvent n src ret).cur.ev =
      { s.cur.ev with ilat := s.cur.ev.ilat &&& ~~~ (bitOf n), raised := s.cur.ev.raised &&& ~~~ (bitOf n),
                      ipend := s.cur.ev.ipend ||| bitOf n ||| (if 5 ≤ n then 0x10 else 0) } := by
  obtain ⟨es, hcur, -⟩ := enterEvent_enteredCore s n src ret
  rw [hcur]
  rfl

/-- The NMI saves its return address in RETN. -/
theorem enterEvent2_returns (s : State) (src ret : Word) : let t := s.enterEvent 2 src ret
    t.cur.retn = ret ∧ t.cur.reti = s.cur.reti ∧ t.cur.retx = s.cur.retx := by
  obtain ⟨es, hcur, -⟩ := enterEvent_enteredCore s 2 src ret
  dsimp only
  rw [hcur]
  exact ⟨rfl, rfl, rfl⟩

/-- An interrupt saves it in RETI. -/
theorem enterInterrupt_returns (s : State) {n : Nat} (hn : 5 ≤ n) (src ret : Word) : let t := s.enterEvent n src ret
    t.cur.reti = ret ∧ t.cur.retn = s.cur.retn ∧ t.cur.retx = s.cur.retx := by
  obtain ⟨k, rfl⟩ : ∃ k, n = k + 5 := ⟨n - 5, by omega⟩
  obtain ⟨es, hcur, -⟩ := enterEvent_enteredCore s (k + 5) src ret
  dsimp only
  rw [hcur]
  exact ⟨rfl, rfl, rfl⟩

/-! ## The bits of ILAT and IPEND -/

theorem getLsbD_bitOf (n : Nat) {k : Nat} (hk : k < 16) : (bitOf n).getLsbD k = (k == n) := by
  have twoPow : bitOf n = BitVec.twoPow 16 n := BitVec.eq_of_toNat_eq (by rw [BitVec.toNat_twoPow]; rfl)
  rw [twoPow, BitVec.getLsbD_twoPow]
  by_cases h : k = n
  · subst h
    simp [hk]
  · simp [h, Ne.symm h]

theorem getLsbD_intDisable {n k : Nat} (hn : n = 2 ∨ 5 ≤ n) (hk : k < 16) :
    (if 5 ≤ n then 0x10 else 0 : HWord).getLsbD k = (k == 4 && n != 2) := by
  have bit4 : (0x10 : HWord) = bitOf 4 := rfl
  rcases hn with rfl | h5
  · simp
  · rw [if_pos h5, bit4, getLsbD_bitOf 4 hk, bne_iff_ne.2 (by omega : n ≠ 2), Bool.and_true]

/-- With an event other than the disabled interrupts' bit in service the core is in Supervisor mode. -/
theorem user_of_pending {n : Nat} (hn : n < 16) (hn4 : n ≠ 4) (h : s.cur.ev.ipend.getLsbD n = true) : s.user = false := by
  rw [State.user, Core.user, beq_eq_false_iff_ne]
  intro hzero
  have hbit := getLsbD_evbits s.cur hn
  rw [hzero, h] at hbit
  simp [hn4] at hbit

/-! ## EXCPT, and interrupts -/

/-- A service exception where one may be taken: the instruction commits, and event 3 is entered with the address that
follows. -/
theorem raiseService_eq (h : s.cur.inException = false) (e : Exc) (len : Nat) :
    raiseService e len s = .next
      ((((s.count 0x0D).finish len).setCur { ((s.count 0x0D).finish len).cur with
          seqstat := { ((s.count 0x0D).finish len).cur.seqstat with excause := e.code } }).enterEvent 3 s.cur.pc
        ((s.count 0x0D).finish len).cur.pc) := by
  rw [raiseService, if_neg (by rw [h]; decide)]
  rfl

theorem excpt_enters (m : BitVec 4) (h : s.canTrap) : ∃ t, exec (.excpt m) s = .next t ∧
    t.cur.retx = (s.finish 2).cur.pc ∧ t.cur.seqstat.excause = m.zeroExtend 6 ∧
      t.cur.pc = s.cur.ev.evt.toList.getD 3 0 ∧ t.cur.ev.ipend = s.cur.ev.ipend ||| 0x8 ∧ entryKeeps s t ∧
      t.cur.reti = s.cur.reti ∧ t.cur.retn = s.cur.retn ∧ t.cur.loop0 = (s.finish 2).cur.loop0 ∧
      t.cur.loop1 = (s.finish 2).cur.loop1 := by
  obtain ⟨hslot, hin⟩ := h
  have hc := (Sequenced.count s 0x0B).trans (Sequenced.count (s.count 0x0B) 0x0D)
  have hu := hc.trans (Sequenced.finish ((s.count 0x0B).count 0x0D) 2)
  obtain ⟨hreti, hretn, -, hevt, hipend, -⟩ := hu.returns
  obtain ⟨-, -, -, -, -, hcslot⟩ := hc.returns
  obtain ⟨-, -, -, -, hcipend, -⟩ := (Sequenced.count s 0x0B).returns
  obtain ⟨hpc, hloop⟩ := ((sameSequencer.count s 0x0B).trans (sameSequencer.count _ 0x0D)).finish hslot
    (hcslot.trans hslot) 2
  have hexec : exec (.excpt m) s = _ := raiseService_eq (s := s.count 0x0B)
    ((congrArg (fun x : HWord => x &&& 0xF != 0) hcipend).trans hin) (.excpt m) 2
  rw [hexec]
  refine ⟨_, rfl, ?_⟩
  generalize ((s.count 0x0B).count 0x0D).finish 2 = u at *
  let v := u.setCur { u.cur with seqstat := { u.cur.seqstat with excause := (Exc.excpt m).code } }
  have he : entryKeeps s v := hu.entryKeeps
  obtain ⟨hretx, hseq, hvec, -, hev, -, hwith, -⟩ := enterEvent3_keeps v (s.count 0x0B).cur.pc u.cur.pc
  refine ⟨hretx.trans hpc, congrArg Seqstat.excause hseq, ?_, ?_, he.trans (enterEvent_entryKeeps v 3 _ _), ?_, ?_, ?_, ?_⟩
  · exact hvec.trans (congrArg (fun e : Vector Word 16 => e.toList.getD 3 0) hevt)
  · exact (congrArg EventCtl.ipend hev).trans (congrArg (· ||| (8 : HWord)) hipend)
  · exact (congrArg Core.reti hwith :).trans hreti
  · exact (congrArg Core.retn hwith :).trans hretn
  · exact (congrArg Core.loop0 hwith :).trans (hloop .l0)
  · exact (congrArg Core.loop1 hwith :).trans (hloop .l1)

theorem interrupt_enters {n : Nat} (hn : n = 2 ∨ (5 ≤ n ∧ n < 16)) : let t := s.interrupt n
    (if n = 2 then t.cur.retn = s.cur.pc ∧ t.cur.reti = s.cur.reti
      else t.cur.reti = s.cur.pc ∧ t.cur.retn = s.cur.retn) ∧
      t.cur.retx = s.cur.retx ∧ t.cur.pc = s.cur.ev.evt.toList.getD n 0 ∧ t.cur.idle = false ∧ t.user = false ∧
      (∀ k, k < 16 → t.cur.ev.ipend.getLsbD k = (s.cur.ev.ipend.getLsbD k || k == n || (k == 4 && n != 2))) ∧
      t.cur.ev.ilat.getLsbD n = false ∧ entryKeeps s t ∧ t.cur.loop0 = s.cur.loop0 ∧ t.cur.loop1 = s.cur.loop1 := by
  have hcount := Sequenced.count s 0x0E
  have hpc := count_pc s 0x0E
  have hloop := count_loopUnit s 0x0E
  obtain ⟨hreti, hretn, hretx, hevt, hipend, -⟩ := hcount.returns
  have hkeeps := hcount.entryKeeps.trans (enterEvent_entryKeeps (s.count 0x0E) n s.cur.pc s.cur.pc)
  have hev := enterEvent_ev (s.count 0x0E) n s.cur.pc s.cur.pc
  obtain ⟨hvec, hidle, hl0, hl1⟩ := enterEvent_goesOn (s.count 0x0E) n s.cur.pc s.cur.pc
  have hret : (if n = 2 then (s.interrupt n).cur.retn = s.cur.pc ∧ (s.interrupt n).cur.reti = s.cur.reti
      else (s.interrupt n).cur.reti = s.cur.pc ∧ (s.interrupt n).cur.retn = s.cur.retn) ∧
      (s.interrupt n).cur.retx = s.cur.retx := by
    rcases hn with rfl | ⟨h5, -⟩
    · obtain ⟨h, hi, hx⟩ := enterEvent2_returns (s.count 0x0E) s.cur.pc s.cur.pc
      exact ⟨⟨h, hi.trans hreti⟩, hx.trans hretx⟩
    · obtain ⟨h, hnmi, hx⟩ := enterInterrupt_returns (s.count 0x0E) h5 s.cur.pc s.cur.pc
      rw [if_neg (by omega : n ≠ 2)]
      exact ⟨⟨h, hnmi.trans hretn⟩, hx.trans hretx⟩
  have hbits : ∀ k, k < 16 → (s.interrupt n).cur.ev.ipend.getLsbD k =
      (s.cur.ev.ipend.getLsbD k || k == n || (k == 4 && n != 2)) := by
    intro k hk
    rw [State.interrupt, hev, BitVec.getLsbD_or, BitVec.getLsbD_or, hipend, getLsbD_bitOf n hk,
      getLsbD_intDisable (by omega) hk]
  have hn16 : n < 16 := by omega
  refine ⟨hret.1, hret.2, hvec.trans (by rw [hevt]), hidle, ?_, hbits, ?_, hkeeps, hl0.trans (hloop .l0),
    hl1.trans (hloop .l1)⟩
  · exact user_of_pending hn16 (by omega) (by rw [hbits n hn16]; simp)
  · rw [State.interrupt, hev, BitVec.getLsbD_and, BitVec.getLsbD_not, getLsbD_bitOf n hn16]
    simp

end

/-- Settles O49: the entry itself, after what the performance monitor counts before it. -/
theorem eventEntry : Obligations.EventEntry := by
  refine ⟨fun m s h => excpt_enters m h, fun n s hn => interrupt_enters hn⟩

end Sys2Proof.Proofs
end

section
/-!
O50: which event is taken, and an idle core that takes it (60_exceptions.md R1741, R1746, R1749; 92_eei_decisions.md
D45).
-/

namespace Sys2Proof.Proofs

open Machine Laws

section

variable {s t : State} {c : Core} {n k : Nat}

/-! ## The smallest bit -/

theorem lowestBit_spec (x : HWord) : lowestBit x ≤ 16 ∧ (lowestBit x < 16 → x.getLsbD (lowestBit x) = true) ∧
    ∀ j, j < lowestBit x → x.getLsbD j = false := by
  cases h : (List.range 16).find? fun i => x.getLsbD i with
  | none =>
    have low : lowestBit x = 16 := congrArg (Option.getD · 16) h
    rw [List.find?_eq_none] at h
    rw [low]
    exact ⟨Nat.le_refl 16, fun hlt => absurd hlt (Nat.lt_irrefl 16), fun j hj => by simpa using h j (List.mem_range.2 hj)⟩
  | some n =>
    have low : lowestBit x = n := congrArg (Option.getD · 16) h
    obtain ⟨hset, hmem, hbelow⟩ := List.find?_range_eq_some.1 h
    rw [low]
    exact ⟨Nat.le_of_lt (List.mem_range.1 hmem), fun _ => hset, fun j hj => by simpa using hbelow j hj⟩

theorem lowestBit_le_of_bit {x : HWord} (h : x.getLsbD n = true) : lowestBit x ≤ n := by
  obtain ⟨-, -, hbelow⟩ := lowestBit_spec x
  refine Nat.le_of_not_lt fun hlt => ?_
  rw [hbelow n hlt] at h
  exact absurd h Bool.false_ne_true

theorem lt_lowestBit_iff (x : HWord) (hn : n < 16) : n < lowestBit x ↔ ∀ j, j ≤ n → x.getLsbD j = false := by
  obtain ⟨-, hset, hbelow⟩ := lowestBit_spec x
  constructor
  · exact fun h j hj => hbelow j (Nat.lt_of_le_of_lt hj h)
  · intro h
    refine Nat.lt_of_not_le fun hle => ?_
    have set := hset (Nat.lt_of_le_of_lt hle hn)
    rw [h _ hle] at set
    exact absurd set Bool.false_ne_true

/-! ## The events that may be taken (R1741) -/

/-- Event `k` meets the conditions of R1741 at the core. -/
def wants (c : Core) (k : Nat) : Prop :=
  k < 16 ∧ c.ev.ilat.getLsbD k = true ∧ c.ev.imask.getLsbD k = true ∧
    (5 ≤ k → c.ev.ipend.getLsbD 4 = false) ∧ ∀ j, j ≤ k → j ≠ 4 → c.ev.ipend.getLsbD j = false

theorem getLsbD_requests (c : Core) (hk : k < 16) : c.requests.getLsbD k =
    (c.ev.ilat.getLsbD k && c.ev.imask.getLsbD k && (decide (k < 5) || !c.ev.ipend.getLsbD 4)) := by
  have low : ∀ j : Fin 16, (0x001F : HWord).getLsbD j = decide (j.val < 5) := by decide
  have all : ∀ j : Fin 16, (0xFFFF : HWord).getLsbD j = true := by decide
  rw [Core.requests, BitVec.getLsbD_and, BitVec.getLsbD_and]
  cases c.ev.ipend.getLsbD 4
  · rw [if_neg (by decide), all ⟨k, hk⟩, Bool.not_false, Bool.or_true]
  · rw [if_pos rfl, low ⟨k, hk⟩, Bool.not_true, Bool.or_false]

theorem lt_level_iff (c : Core) (hk : k < 16) : k < c.level ↔ ∀ j, j ≤ k → j ≠ 4 → c.ev.ipend.getLsbD j = false := by
  rw [Core.level, lt_lowestBit_iff _ hk]
  refine forall₂_congr fun j hj => ?_
  rw [getLsbD_evbits c (Nat.lt_of_le_of_lt hj hk)]
  by_cases h4 : j = 4 <;> simp [h4]

theorem wants_iff (c : Core) (k : Nat) : wants c k ↔ k < 16 ∧ c.requests.getLsbD k = true ∧ k < c.level := by
  refine and_congr_right fun hk => ?_
  rw [getLsbD_requests c hk, lt_level_iff c hk, Bool.and_eq_true, Bool.and_eq_true, and_assoc, and_assoc]
  refine and_congr_right fun _ => and_congr_right fun _ => and_congr_left fun _ => ?_
  by_cases h5 : 5 ≤ k
  · simp [h5, Nat.not_lt.2 h5]
  · simp [h5, Nat.lt_of_not_le h5]

theorem takeable_iff (c : Core) (n : Nat) : c.takeable = some n ↔ wants c n ∧ ∀ k, k < n → ¬ wants c k := by
  obtain ⟨-, hset, hbelow⟩ := lowestBit_spec c.requests
  obtain ⟨hlevel, -⟩ := lowestBit_spec c.evbits
  have taken : c.takeable = some n ↔ lowestBit c.requests = n ∧ n < c.level := by
    rw [Core.takeable]
    split
    next h => rw [Option.some_inj]; exact ⟨fun e => ⟨e, e ▸ h⟩, And.left⟩
    next h => exact iff_of_false nofun fun ⟨e, hlt⟩ => h (e.symm ▸ hlt)
  rw [taken]
  constructor
  · rintro ⟨rfl, hlt⟩
    have h16 := Nat.lt_of_lt_of_le hlt hlevel
    refine ⟨(wants_iff c _).2 ⟨h16, hset h16, hlt⟩, fun k hk hw => ?_⟩
    obtain ⟨-, hreq, -⟩ := (wants_iff c k).1 hw
    exact absurd ((hbelow k hk).symm.trans hreq) Bool.false_ne_true
  · rintro ⟨hw, hleast⟩
    obtain ⟨h16, hreq, hlt⟩ := (wants_iff c n).1 hw
    have hle := lowestBit_le_of_bit hreq
    refine ⟨Nat.le_antisymm hle (Nat.le_of_not_lt fun hless => ?_), hlt⟩
    have hless16 := Nat.lt_trans hless h16
    exact hleast _ hless ((wants_iff c _).2 ⟨hless16, hset hless16, Nat.lt_trans hless hlt⟩)

/-- A takeable event that RAISE latched is below the level of the core. -/
theorem raised_lt_level (hk : wants c k) (hr : c.ev.raised.getLsbD k = true) :
    lowestBit (c.requests &&& c.ev.raised) < c.level := by
  obtain ⟨-, hreq, hlt⟩ := (wants_iff c k).1 hk
  exact Nat.lt_of_le_of_lt (lowestBit_le_of_bit (by rw [BitVec.getLsbD_and, hreq, hr]; rfl)) hlt

theorem chooseEvent_of_takeable (ht : s.cur.takeable = some n) (hw : s.cur.waiting = none)
    (h : s.cur.idle = true ∨ s.cur.synced = true ∨ ∃ k, wants s.cur k ∧ s.cur.ev.raised.getLsbD k = true) :
    s.chooseEvent = (some n, s) := by
  have free : s.busHeld = false := by rw [State.busHeld, hw]; exact Bool.and_false _
  have now : (s.cur.idle || s.cur.synced ||
      decide (lowestBit (s.cur.requests &&& s.cur.ev.raised) < s.cur.level)) = true := by
    rcases h with h | h | ⟨k, hk, hr⟩
    · rw [h, Bool.true_or, Bool.true_or]
    · rw [h, Bool.or_true, Bool.true_or]
    · rw [decide_eq_true (raised_lt_level hk hr), Bool.or_true]
  rw [State.chooseEvent, ht]
  dsimp only
  rw [free, if_neg Bool.false_ne_true, if_pos now]

/-! ## An idle core takes an event -/

theorem setSic_cur (s : State) (id : CoreId) (k : Sic) : (s.setSic id k).cur = s.cur := by cases id <;> rfl

theorem setSic_issue (s : State) (id : CoreId) (k : Sic) : (s.setSic id k).issue = s.issue := by cases id <;> rfl

theorem leaveIdle_cur (s : State) : ∃ ilat, s.leaveIdle.cur = { s.cur with idle := false, ev := { s.cur.ev with ilat } } := by
  unfold State.leaveIdle
  dsimp only
  rw [setCur_cur, setSic_cur]
  exact ⟨_, rfl⟩

theorem leaveIdle_issue (s : State) : s.leaveIdle.issue = s.issue := setSic_issue _ _ _

/-- With the monitor and the trace buffer off, an interrupt changes the core alone and marks the step. -/
theorem interrupt_eq (hperf : s.perfOff) (htrace : s.traceOff) (n : Nat) :
    s.interrupt n = { s.setCur (enteredCore s.cur n s.cur.pc) with issue := { s.issue with event := true } } := by
  rw [State.interrupt, count_off hperf, State.enterEvent, recordFlow_off htrace]
  dsimp only
  rw [enterEvent_eq_enteredCore]
  rfl

theorem takeEvent_idle (n : Nat) (hidle : s.cur.idle = true) (hccen : s.cur.syscfg.ccen = false) (hperf : s.perfOff)
    (htrace : s.traceOff) (hissue : s.issue = .idle) : ∃ u : State, u.cur.pc = s.cur.pc ∧ u.cur.r = s.cur.r ∧
      u.cur.p = s.cur.p ∧ u.cur.ev.evt = s.cur.ev.evt ∧ u.mem = s.mem ∧ s.takeEvent n = .next (u.interrupt n).quiet := by
  obtain ⟨ilat, hcur⟩ := leaveIdle_cur s
  let u := s.leaveIdle.setCur { s.leaveIdle.cur with synced := false }
  have hperf' : u.perfOff := by
    refine (?_ : s.leaveIdle.perfOff)
    rw [State.perfOff, hcur]
    exact hperf
  have htrace' : u.traceOff := by
    refine (?_ : s.leaveIdle.traceOff)
    rw [State.traceOff, hcur]
    exact htrace
  have hccen' : u.cur.syscfg.ccen = false := (congrArg (fun c : Core => c.syscfg.ccen) hcur).trans hccen
  have hissue' : u.issue = .idle := (leaveIdle_issue s).trans hissue
  have emu : (u.interrupt n).issue.emu = false := by
    rw [interrupt_eq hperf' htrace', hissue']
    rfl
  have full : (u.interrupt n).issue.full = false := by
    rw [interrupt_eq hperf' htrace', hissue']
    rfl
  refine ⟨u, (congrArg Core.pc hcur :), (congrArg Core.r hcur :), (congrArg Core.p hcur :),
    (congrArg (fun c : Core => c.ev.evt) hcur :), leaveIdle_mem s, ?_⟩
  rw [State.takeEvent, if_pos hidle]
  dsimp only
  rw [passTime_off hccen' hperf', emu, full, if_neg Bool.false_ne_true, Bool.false_and, if_neg Bool.false_ne_true]

theorem move_current (h : s.turns = [.current]) : step s = s.coreStep := by
  rw [step, State.move, h]
  rfl

theorem coreStep_of_chosen (h : s.chooseEvent = (some n, s)) : s.coreStep = s.takeEvent n := by
  rw [State.coreStep, h]

theorem idle_takes (hturn : s.turns = [.current]) (hidle : s.cur.idle = true) (ht : s.cur.takeable = some n)
    (hn : n = 2 ∨ 5 ≤ n) (hwait : s.cur.waiting = none) (hccen : s.cur.syscfg.ccen = false) (hperf : s.perfOff)
    (htrace : s.traceOff) (hissue : s.issue = .idle) :
    ∃ t, step s = .next t ∧ t.cur.pc = s.cur.ev.evt.toList.getD n 0 ∧ t.cur.idle = false ∧
      (if n = 2 then t.cur.retn = s.cur.pc else t.cur.reti = s.cur.pc) ∧ t.cur.ev.ipend.getLsbD n = true ∧
      t.cur.ev.ilat.getLsbD n = false ∧ t.cur.r = s.cur.r ∧ t.cur.p = s.cur.p ∧ t.mem = s.mem := by
  obtain ⟨⟨hn16, -⟩, -⟩ := (takeable_iff s.cur n).1 ht
  obtain ⟨u, hpc, hr, hp, hevt, hmem, htaken⟩ := takeEvent_idle n hidle hccen hperf htrace hissue
  have hn' : n = 2 ∨ (5 ≤ n ∧ n < 16) := hn.imp_right fun h5 => ⟨h5, hn16⟩
  obtain ⟨hret, -, hvec, hawake, -, hbits, hilat, hkeeps, -⟩ := interrupt_enters (s := u) hn'
  obtain ⟨hr', hp', -, -, -, -, -, -, -, -, -, -, hmem', -⟩ := hkeeps
  have hchosen := chooseEvent_of_takeable ht hwait (.inl hidle)
  refine ⟨_, (move_current hturn).trans ((coreStep_of_chosen hchosen).trans htaken), ?_⟩
  generalize u.interrupt n = v at *
  refine ⟨hvec.trans (by rw [hevt]), hawake, ?_, ?_, hilat, hr'.trans hr, hp'.trans hp, hmem'.trans hmem⟩
  · split at hret
    next h =>
      rw [if_pos h]
      exact hret.1.trans hpc
    next h =>
      rw [if_neg h]
      exact hret.1.trans hpc
  · exact (hbits n hn16).trans (by simp)

end

/-- Settles O50: the smallest takeable event is the lowest bit of the requests, where it lies below the level. -/
theorem eventChoice : Obligations.EventChoice :=
  ⟨takeable_iff, fun _ _ hturn hidle ht hn hwait hccen hperf htrace hissue =>
    idle_takes hturn hidle ht hn hwait hccen hperf htrace hissue, fun _ _ ht hw h => chooseEvent_of_takeable ht hw h⟩

end Sys2Proof.Proofs
end

section
/-!
O51: an exception raised inside an exception, an NMI or the reset event, where it does not reset the chip
(60_exceptions.md R1727).
-/

namespace Sys2Proof.Proofs

open Machine Laws

section

variable {s : State} {i : Instr}

/-- A double fault whose reset is not enabled: the core stands still with EXCAUSE 0x25 and RETX at the instruction. -/
theorem doubleFault_stands (hdf : s.sys.ctl.dfEnabled s.cur.id = false) : s.doubleFault =
    { s.setCur { s.cur with seqstat := { s.cur.seqstat with excause := 0x25 }, retx := s.cur.pc, dead := true } with
      issue := { s.issue with event := true } } := by
  rw [State.doubleFault, hdf]
  rfl

theorem takeException_in (h : s.cur.inException = true) (e : Exc) (ret : Word) : s.takeException e ret = s.doubleFault :=
  if_pos h

theorem raise_in (hslot : s.issue.slot = .single) (h : s.cur.inException = true) (e : Exc) :
    raise e s = .next s.doubleFault := by rw [raise_takes hslot, takeException_in h]

theorem raiseService_in (h : s.cur.inException = true) (e : Exc) (len : Nat) : raiseService e len s = .next s.doubleFault :=
  if_pos h

/-- What the instruction leaves where its exception is a double fault. -/
def standsStill (i : Instr) (s : State) : Prop := ∃ t, exec i s = .next t ∧
  t.cur = { s.cur with seqstat := { s.cur.seqstat with excause := 0x25 }, retx := s.cur.pc, dead := true } ∧
  t.oth = s.oth ∧ t.sys = s.sys ∧ t.mem = s.mem ∧ t.board = s.board ∧ t.inputs = s.inputs ∧ t.out = s.out

theorem standsStill_of_doubleFault (hdf : s.sys.ctl.dfEnabled s.cur.id = false) (n : Nat)
    (he : exec i s = .next ({ s with free := n } : State).doubleFault) : standsStill i s := by
  rw [doubleFault_stands (s := { s with free := n }) hdf] at he
  exact ⟨_, he, rfl, rfl, rfl, rfl, rfl, rfl, rfl⟩

end

/-- Settles O51: inside an exception routine each of these raises, and what is raised there is a double fault. -/
theorem doubleFault : Obligations.DoubleFault := by
  intro s hslot hin hdf
  have stands : ∀ (i : Instr) (e : Exc) (n : Nat), exec i s = raise e { s with free := n } → standsStill i s :=
    fun i e n he => standsStill_of_doubleFault hdf n (he.trans (raise_in (s := { s with free := n }) hslot hin e))
  refine ⟨stands .rte .illegalSupervisorUse s.free rfl, fun asl a => ?bitmux, fun i x n w hi hal hoff => ?access,
    fun hperf m => ?excpt⟩
  case bitmux =>
    refine stands _ .illegalCombination s.free ?_
    change legal (decide (a ≠ a)) s _ = _
    rw [decide_ne_self, legal_not]
  case access =>
    obtain ⟨m, hm⟩ := access_stopped hslot hi (dataCheck_misaligned hoff hal w (Config.freeWord s.free))
    exact stands i _ m hm
  case excpt =>
    refine standsStill_of_doubleFault hdf s.free ?_
    change raiseService (.excpt m) 2 (s.count 0x0B) = _
    rw [count_off hperf, raiseService_in hin]

end Sys2Proof.Proofs
end

section
/-!
O55: the event controller's registers through loads, pending stores and their performance (60_exceptions.md R1710 to
R1714; 20_memory.md R330, R341, R342).
-/

namespace Sys2Proof.Proofs

open Machine Laws

/-! ## The bytes that a load takes from the pending stores -/

/-- Where every byte that a load sees is that of `v`, the load answers `v`. -/
theorem overlay_of_bytes {ps : List PendStore} {a n v w : Nat}
    (h : ∀ k, k < n → (pendByte ps (a + k)).getD (BitVec.ofNat 8 (w / 256 ^ k)) = BitVec.ofNat 8 (v / 256 ^ k)) :
    overlay ps a n w = v % 256 ^ n := by
  induction n generalizing a v w with
  | zero => rw [overlay, Nat.pow_zero, Nat.mod_one]
  | succ n ih =>
    have first : (pendByte ps a).getD (BitVec.ofNat 8 w) = BitVec.ofNat 8 v := by simpa using h 0 (Nat.succ_pos n)
    have rest : overlay ps (a + 1) n (w / 256) = v / 256 % 256 ^ n := ih fun k hk => by
      have := h (k + 1) (Nat.succ_lt_succ hk)
      rwa [Nat.add_comm k 1, ← Nat.add_assoc, Nat.pow_add, Nat.pow_one, ← Nat.div_div_eq_div_mul,
        ← Nat.div_div_eq_div_mul] at this
    rw [overlay, first, rest, Nat.pow_succ', BitVec.toNat_ofNat]
    exact Nat.mod_mul.symm

theorem overlay_lt (ps : List PendStore) (a n w : Nat) : overlay ps a n w < 256 ^ n := by
  induction n generalizing a w with
  | zero => exact Nat.one_pos
  | succ n ih =>
    have first := ((pendByte ps a).getD (BitVec.ofNat 8 w)).isLt
    have rest := ih (a + 1) (w / 256)
    rw [overlay, Nat.pow_succ']
    omega

/-- No pending store in the way: the load answers what is there. -/
theorem overlay_none {ps : List PendStore} {a n w : Nat} (h : ∀ k, k < n → pendByte ps (a + k) = none)
    (hw : w < 256 ^ n) : overlay ps a n w = w := by
  rw [overlay_of_bytes (v := w) fun k hk => by rw [h k hk]; rfl, Nat.mod_eq_of_lt hw]

theorem not_covered {ps : List PendStore} {a n : Nat} (hn : 0 < n) (h : pendByte ps a = none) :
    covered ps a n = false := by
  rw [covered, List.all_eq_false]
  exact ⟨0, List.mem_range.2 hn, by rw [Nat.add_zero, h]; decide⟩

/-- A load right after a store of a word to the same place sees that word (R342). -/
theorem pendByte_newest (ps : List PendStore) (a v : Nat) {n k : Nat} (hk : k < n) :
    pendByte (ps ++ [⟨a, n, v⟩]) (a + k) = some (BitVec.ofNat 8 (v / 256 ^ k)) := by
  rw [pendByte_append, if_pos ⟨Nat.le_add_right a k, Nat.add_lt_add_left hk a⟩, Nat.add_sub_cancel_left]

theorem covered_newest (ps : List PendStore) (a v n : Nat) : covered (ps ++ [⟨a, n, v⟩]) a n = true := by
  rw [covered, List.all_eq_true]
  intro k hk
  rw [pendByte_newest ps a v (List.mem_range.1 hk)]
  rfl

theorem overlay_newest (ps : List PendStore) (a : Nat) (v : Word) : overlay (ps ++ [⟨a, 4, v.toNat⟩]) a 4 0 = v.toNat := by
  rw [overlay_of_bytes (v := v.toNat) fun k hk => by rw [pendByte_newest ps a _ hk]; rfl]
  exact Nat.mod_eq_of_lt v.isLt

/-! ## The event controller's registers -/

/-- A register of the event controller (R1710). -/
inductive EventReg where
  | evt (k : Fin 16)
  | imask
  | ipend
  | ilat

/-- Its offset in core MMR space. -/
def EventReg.off : EventReg → Nat
  | .evt k => 0x2000 + 4 * k
  | .imask => 0x2104
  | .ipend => 0x2108
  | .ilat => 0x210C

/-- What a load from it answers. -/
def EventReg.read (r : EventReg) (e : EventCtl) : Word :=
  match r with
  | .evt k => e.evt.toList.getD k 0
  | .imask => ofH e.imask
  | .ipend => ofH e.ipend
  | .ilat => ofH e.ilat

/-- What a store to it leaves (R1711 to R1714). -/
def EventReg.write (r : EventReg) (v : Word) (e : EventCtl) : EventCtl :=
  match r with
  | .evt k => { e with evt := vset e.evt k v }
  | .imask => { e with imask := (half .lo v &&& 0xFFE0) ||| 0x001F }
  | .ipend => e
  | .ilat =>
    { e with ilat := e.ilat &&& ~~~ (half .lo v &&& 0xFFE4), raised := e.raised &&& ~~~ (half .lo v &&& 0xFFE4) }

theorem EventReg.off_aligned (r : EventReg) : (0xFFE00000 + r.off) % 4 = 0 := by
  cases r with
  | evt k =>
    rw [EventReg.off]
    omega
  | _ => rfl

theorem toNat_ofH (h : HWord) : (ofH h).toNat = h.toNat := BitVec.toNat_setWidth_of_le (by decide)

theorem toList_getD {α : Type} {n j : Nat} (v : Vector α n) (hj : j < n) (d : α) : v.toList.getD j d = v[j] := by
  simp [List.getD, hj]

theorem toList_getD_vset {α : Type} {n j : Nat} (v : Vector α n) (hj : j < n) (k : Nat) (x d : α) :
    (vset v k x).toList.getD j d = if k = j then x else v.toList.getD j d := by
  rw [toList_getD _ hj, toList_getD _ hj, vset, Vector.getElem_setIfInBounds]

theorem coreMmrRead_evt {k : Nat} (hk : k < 16) (s : State) :
    coreMmrRead (0x2000 + 4 * k) s = .ok (s.cur.ev.evt.toList.getD k 0) s := by
  have entry : nth s.cur.ev.evt.toList 0x2000 (0x2000 + 4 * k) = some (s.cur.ev.evt.toList.getD k 0) := by
    rw [nth, if_pos (by omega), show (0x2000 + 4 * k - 0x2000) / 4 = k by omega, toList_getD _ hk]
    simp [hk]
  unfold coreMmrRead
  dsimp only
  split
  case h_31 =>
    rw [if_neg (by omega), if_neg (by omega), if_neg (by omega), if_neg (by omega), if_pos (by omega), entry]
  all_goals omega

theorem coreMmrWrite_evt {k : Nat} (hk : k < 16) (v : Word) (s : State) :
    coreMmrWrite (0x2000 + 4 * k) v s = .ok 0 (s.setEv { s.cur.ev with evt := vset s.cur.ev.evt k v }) := by
  have index : (0x2000 + 4 * k) % 0x40 / 4 = k := by omega
  unfold coreMmrWrite
  dsimp only
  split
  case h_31 =>
    rw [if_neg (by omega), if_neg (by omega), if_neg (by omega), if_neg (by omega), if_neg (by omega),
      if_pos (by omega), index]
    rfl
  all_goals omega

theorem coreMmrRead_eventReg (r : EventReg) (s : State) : coreMmrRead r.off s = .ok (r.read s.cur.ev) s := by
  cases r with
  | evt k => exact coreMmrRead_evt k.isLt s
  | _ => rfl

theorem coreMmrWrite_eventReg (r : EventReg) (v : Word) (s : State) :
    coreMmrWrite r.off v s = .ok 0 (s.setEv (r.write v s.cur.ev)) := by
  cases r with
  | evt k => exact coreMmrWrite_evt k.isLt v s
  | _ => rfl

section

variable {s : State} {a : Word} {x : Nat} {r : EventReg}

/-! ## Words of core MMR space in Supervisor mode -/

theorem region_coreMmr (c : Core) (hx : 0xFFE00000 ≤ x) : c.region x = .coreMmr := by
  have l2 : ¬ inRange Config.l2Base 0x20000 x = true := by
    rw [inRange_iff, Config.l2Base]
    omega
  rw [Core.region, if_neg (show ¬ x < 0xEF000000 by omega), if_neg (show ¬ x < 0xEF000800 by omega), if_neg l2,
    if_neg (show ¬ x < 0xFF400000 by omega), if_pos hx]

/-- A word of core MMR space is accessed in Supervisor mode, alone in its issue, the DCPLBs and the watchpoint unit off. -/
structure AtCoreMmr (s : State) (a : Word) : Prop where
  supervisor : s.user = false
  slot : s.issue.slot = .single
  clash : s.issue.clash = none
  off : s.cur.dmem.endcplb = false
  watch : s.cur.wp.iactl.getLsbD 0 = false
  aligned : a.toNat % 4 = 0
  mmr : 0xFFE00000 ≤ a.toNat

theorem AtCoreMmr.checkData (h : AtCoreMmr s a) (write : Bool) : s.checkData false a 4 write = none := by
  have allowed : s.cur.fixedViolation a write false = none := by
    have hu : s.cur.user = false := h.supervisor
    simp [Core.fixedViolation, region_coreMmr s.cur h.mmr, hu]
  simp [State.checkData, Core.dataCheck, h.off, h.aligned, allowed]

theorem AtCoreMmr.watched (h : AtCoreMmr s a) (write : Bool) : s.watched a 4 write false = s := by
  rw [State.watched, State.dataWatch, h.watch, if_neg Bool.false_ne_true, ite_self]

theorem AtCoreMmr.dag1 (h : AtCoreMmr s a) : s.dag1 = false := by
  rw [State.dag1, h.slot]
  rfl

theorem AtCoreMmr.load (h : AtCoreMmr s a) {v : Nat} (e : s.takeLoad a 4 false = .ok v s) : s.load a 4 = .ok v s := by
  have apart : s.issue.clashes a.toNat 4 = false := by rw [Issue.clashes, h.clash]
  simp [State.load, State.loadAt, h.dag1, h.checkData, h.watched, e, Res.bind, apart]

theorem AtCoreMmr.takeLoad (h : AtCoreMmr s a) (hearly : s.cur.earlyRead a.toNat 4 = none) :
    ∃ e, s.takeLoad a 4 false = s.mmrSeen a.toNat 4 e := by
  have noPage := noPage_of_off h.off a
  exact ⟨s.cur.dataExc 0x23 13 a false false true, by
    simp [State.takeLoad, hearly, State.performLoad, noPage, region_coreMmr s.cur h.mmr]⟩

theorem AtCoreMmr.loadD (h : AtCoreMmr s (s.p p)) {v : Nat} (e : s.takeLoad (s.p p) 4 false = .ok v s) (hv : v < 2 ^ 32)
    (d : DReg) : Completes (.loadD .keep d p) s 2 [.d d] [] noBytes fun u => (u.d d).toNat = v := by
  refine ⟨s.setD d (loadZ v), ?_, rfl, Frame.setD (Frame.refl s _ _ _) (List.mem_singleton.2 rfl) _, ?_⟩
  · change s.loading 2 (s.p p) 4 _ = _
    rw [State.loading, h.load e]
    rfl
  · change ((s.setD d (loadZ v)).d d).toNat = v
    rw [setD_d_same, loadZ, BitVec.toNat_ofNat, Nat.mod_eq_of_lt hv]

theorem mmrSeen_covered (hc : covered s.cur.stores x 4 = true) (e : Exc) :
    s.mmrSeen x 4 e = .ok (overlay s.cur.stores x 4 0) s := if_pos hc

/-- A load of an event register that no pending store covers answers the register. -/
theorem mmrSeen_eventReg (hx : x = 0xFFE00000 + r.off) (hnone : ∀ k, k < 4 → pendByte s.cur.stores (x + k) = none)
    (e : Exc) : s.mmrSeen x 4 e = .ok (r.read s.cur.ev).toNat s := by
  have hload : s.mmrLoad x 4 e = .ok (r.read s.cur.ev).toNat s := by
    have hoff : x - 0xFFE00000 = r.off := by omega
    rw [State.mmrLoad, if_pos (by omega), if_pos rfl, hoff, coreMmrRead_eventReg]
  have uncovered : covered s.cur.stores x 4 = false := not_covered (by decide) (hnone 0 (by decide))
  rw [State.mmrSeen, uncovered, if_neg Bool.false_ne_true, hload, Res.bind, overlay_none hnone (r.read s.cur.ev).isLt]

theorem performStore_eventReg (h : AtCoreMmr s a) (hx : a.toNat = 0xFFE00000 + r.off) (v : Nat) :
    s.performStore a 4 v false = .ok () (s.pend a.toNat 4 v) := by
  obtain ⟨noPage, -⟩ := noPage_of_off h.off a
  have there : s.coreMmrThere a.toNat 4 = true := by
    have hoff : a.toNat - 0xFFE00000 = r.off := by omega
    rw [State.coreMmrThere, hoff, coreMmrWrite_eventReg]
    rfl
  unfold State.performStore
  dsimp only
  rw [noPage, if_neg Bool.false_ne_true, region_coreMmr s.cur h.mmr]
  exact if_pos there

theorem storeD_eventReg {p : PReg} (h : AtCoreMmr s (s.p p)) (hx : (s.p p).toNat = 0xFFE00000 + r.off) (d : DReg) :
    CompletesVia (.storeD .keep p d) s (s.pend (s.p p).toNat 4 (s.d d).toNat) 2 [] [] noBytes fun _ => True := by
  have value : (s.d d).toNat % 2 ^ (8 * 4) = (s.d d).toNat := Nat.mod_eq_of_lt (s.d d).isLt
  refine ⟨s.pend (s.p p).toNat 4 (s.d d).toNat, ?_, rfl, Frame.refl _ _ _ _, trivial⟩
  change s.storing 2 (s.p p) 4 (s.d d) _ = _
  rw [State.storing, value, State.store, State.storeAt, h.dag1, h.checkData]
  dsimp only
  rw [h.watched, performStore_eventReg h hx]
  rfl

/-! ## The stores are performed -/

theorem drain_eventReg {v : Word} (hs : s.cur.stores = [⟨x, 4, v.toNat⟩]) (hx : x = 0xFFE00000 + r.off) :
    s.drain = .next (s.setCur { s.cur with stores := [], ev := r.write v s.cur.ev }) := by
  have hoff : x - 0xFFE00000 = r.off := by omega
  have region : s.cur.region x ≠ .external := by
    rw [region_coreMmr s.cur (by omega)]
    decide
  rw [drain_single hs region, State.performPending]
  dsimp only
  rw [if_pos (by omega), hoff, BitVec.ofNat_toNat, BitVec.setWidth_eq, coreMmrWrite_eventReg]
  rfl

theorem getLsbD_ilatCleared (v : Word) {k : Nat} (hk : k < 16) :
    (half .lo v &&& 0xFFE4).getLsbD k = (v.getLsbD k && (k == 2 || decide (5 ≤ k))) := by
  have mask : ∀ j : Fin 16, (0xFFE4 : HWord).getLsbD j = (j.val == 2 || decide (5 ≤ j.val)) := by decide
  rw [BitVec.getLsbD_and, mask ⟨k, hk⟩, half, BitVec.getLsbD_extractLsb', Nat.zero_add, decide_eq_true hk, Bool.true_and]

end

theorem EventReg.address_evt {k : Nat} (hk : k < 16) :
    0xFFE02000 + 4 * k = 0xFFE00000 + (EventReg.evt ⟨k, hk⟩).off := by
  change _ = 0xFFE00000 + (0x2000 + 4 * k)
  omega

theorem exists_eventReg {x : Nat}
    (h : (∃ k, k < 16 ∧ x = 0xFFE02000 + 4 * k) ∨ x = 0xFFE02104 ∨ x = 0xFFE02108 ∨ x = 0xFFE0210C) :
    ∃ r : EventReg, x = 0xFFE00000 + r.off := by
  rcases h with ⟨k, hk, rfl⟩ | rfl | rfl | rfl
  · exact ⟨.evt ⟨k, hk⟩, EventReg.address_evt hk⟩
  · exact ⟨.imask, rfl⟩
  · exact ⟨.ipend, rfl⟩
  · exact ⟨.ilat, rfl⟩

/-- Settles O55: a store to an event register is pending until it is performed, and is then the register's write; a load
answers what is pending over the register. -/
theorem eventRegisters : Obligations.EventRegisters := by
  refine ⟨?access, fun ps a v => ⟨covered_newest ps a v.toNat 4, overlay_newest ps a v⟩, ?performed⟩
  case access =>
    intro s d p hu hslot hclash hoff hwatch hearly x loads
    have accessed : ∀ r : EventReg, x = 0xFFE00000 + r.off → AtCoreMmr s (s.p p) := fun r hx =>
      ⟨hu, hslot, hclash, hoff, hwatch, (congrArg (· % 4) hx).trans r.off_aligned,
        (Nat.le_add_right _ _).trans_eq hx.symm⟩
    have register : (∀ k, k < 4 → pendByte s.cur.stores (x + k) = none) →
        ∀ r : EventReg, x = 0xFFE00000 + r.off → loads (r.read s.cur.ev).toNat := by
      intro hnone r hx
      obtain ⟨e, htake⟩ := (accessed r hx).takeLoad hearly
      exact (accessed r hx).loadD (htake.trans (mmrSeen_eventReg hx hnone e)) (r.read s.cur.ev).isLt d
    refine ⟨fun hx => ?_, fun hnone => ⟨?_, ?_, ?_, ?_⟩⟩
    · obtain ⟨r, hr⟩ := exists_eventReg hx
      refine ⟨storeD_eventReg (accessed r hr) hr d, fun hc => ?_⟩
      obtain ⟨e, htake⟩ := (accessed r hr).takeLoad hearly
      exact (accessed r hr).loadD (htake.trans (mmrSeen_covered hc e)) (overlay_lt _ _ 4 _) d
    · exact fun k hk hx => register hnone (.evt ⟨k, hk⟩) (hx.trans (EventReg.address_evt hk))
    · exact fun hx => toNat_ofH s.cur.ev.imask ▸ register hnone .imask hx
    · exact fun hx => toNat_ofH s.cur.ev.ipend ▸ register hnone .ipend hx
    · exact fun hx => toNat_ofH s.cur.ev.ilat ▸ register hnone .ilat hx
  case performed =>
    intro s a v hs writes
    refine ⟨fun k hk hx => ?evt, fun hx => ?imask, fun hx => ?ipend, fun hx => ?ilat⟩
    case evt =>
      refine ⟨_, drain_eventReg hs (hx.trans (EventReg.address_evt hk)), ⟨?_, fun j hj hne => ?_, rfl⟩, rfl⟩
      · exact (toList_getD_vset _ hk k v 0).trans (if_pos rfl)
      · exact (toList_getD_vset _ hj k v 0).trans (if_neg hne.symm)
    case imask => exact ⟨_, drain_eventReg (r := .imask) hs hx, rfl, rfl⟩
    case ipend => exact ⟨_, drain_eventReg (r := .ipend) hs hx, rfl, rfl⟩
    case ilat =>
      refine ⟨_, drain_eventReg (r := .ilat) hs hx, ⟨rfl, fun k hk => ?_⟩, rfl⟩
      change (s.cur.ev.ilat &&& ~~~ (half .lo v &&& 0xFFE4)).getLsbD k = _
      rw [BitVec.getLsbD_and, BitVec.getLsbD_not, getLsbD_ilatCleared v hk, decide_eq_true hk, Bool.true_and]

end Sys2Proof.Proofs
end
